-- ==== Sys2Proof/Word.lean ====
section
/-!
DEFINITION. The word types of the GN7 (00 R9, R11): a byte, the 32-bit register word, the 64-bit value.
-/

namespace Sys2Proof

/-- One byte. -/
abbrev Byte := BitVec 8

/-- A word is 32 bits (R11); every register is one word (R9). -/
abbrev Word := BitVec 32

/-- A 64-bit value: a pair of registers (17 R509) or an eight-byte payload field. -/
abbrev DWord := BitVec 64

end Sys2Proof
end

