-- ==== Sys2Proof/Syntax.lean ====
section
/-!
DEFINITION. The commands of the block: one constructor of `Instr` per row of spec/opcode_table.json, with the operand
types they carry. The table gives no encoding: the operands are what the spec says each step depends on.
-/

namespace Sys2Proof

/-- The carrier a Valaz packet travels in (10 R302, R306). -/
inductive Carrier
  | raw | udp4 | udp6 | leash
deriving DecidableEq, Repr, Inhabited

/-- Who sent a packet, and therefore where its reply goes (10 R304, 12 R399) and which source R321 counts it under. -/
structure Source where
  carrier : Carrier
  /-- Ethernet port 0 or 1, or Leash port 0 to 3. -/
  port : Nat
  /-- MAC (6 bytes), IPv4 (4) or IPv6 (16) address; empty on Leash. -/
  addr : List Byte
  /-- UDP source port; 0 on the other carriers. -/
  udpPort : Nat
  /-- SRC_MEMBER on Leash; 0 otherwise. -/
  member : Nat
  /-- VLAN ID of the command's 802.1Q tag, if it carried one (18 R534). -/
  vlan : Option Nat
  /-- Source MAC address of a UDP command; empty on the other carriers. -/
  mac : List Byte
deriving DecidableEq, Repr, Inhabited

/-- A command the Handler takes: its session (none is SESSION 0xFF; 8 + k for what session k left taken when it closed, 10 R314),
its SEQ and its sender. -/
structure Req where
  session : Option Nat
  seq : Word
  src : Source
deriving DecidableEq, Repr, Inhabited

/-- What an Ethernet frame carries above its tags. -/
inductive FrameBody
  /-- EtherType and the bytes after it. -/
  | raw (etherType : Nat) (data : List Byte)
  /-- A UDP datagram: fragment, IPv4 options or IPv6 extension headers, checksum verdict, checksum zero, addresses, ports,
  UDP Length field and the bytes after the UDP header. -/
  | udp (v6 fragment options checksumOk checksumZero : Bool) (destIp srcIp : List Byte)
      (srcPort dstPort udpLen : Nat) (data : List Byte)
deriving DecidableEq, Repr, Inhabited

/-- A received Ethernet frame (10 R302, R303). -/
structure Frame where
  port : Nat
  fcsOk : Bool
  dest : List Byte
  src : List Byte
  /-- 802.1Q tags before the EtherType, and the VLAN ID of the first. -/
  qTags : Nat
  vid : Nat
  /-- Sequence numbers of the 802.1CB R-TAGs before the EtherType. -/
  rTags : List Nat
  /-- Frame length in bytes, FCS included. -/
  length : Nat
  body : FrameBody
  /-- The frame falls in the entry window of a sleep state (15 R459). -/
  inWindow : Bool
deriving DecidableEq, Repr, Inhabited

/-- A Leash message, or a run of its flits that arrives without a gap in SEQ (12 R373, R374): the VL, the header of its HEAD flit, and
the data that these flits carry. The run begins with flit `first` of the message, HEAD being flit 0, whose SEQ is `seq`; flits of
other virtual lanes may come between two runs of one message (R375). -/
structure LeashMsg where
  port : Nat
  seq : Nat
  vl : Nat
  kind : Nat
  segment : Nat
  length : Nat
  srcMember : Nat
  destMember : Nat
  tag : Word
  addr : Nat
  data : List Byte
  first : Nat
deriving DecidableEq, Repr, Inhabited

/-- A CTRL flit (12 R380). -/
structure CtrlFlit where
  /-- CRC correct and outside every uncorrectable FEC codeword. -/
  ok : Bool
  ackValid : Bool
  ackSeq : Nat
  nak : Bool
  nakSeq : Nat
  freed : List Nat
  notice : Nat
  /-- Every reserved byte is 0. -/
  reservedZero : Bool
deriving DecidableEq, Repr, Inhabited

/-- Why a received flit is discarded (12 R381, R398). -/
inductive FlitError
  | crc | ctrlCrc | fec | type3 | ctrlReserved | unexpectedSeq | seqWindow
deriving DecidableEq, Repr, Inhabited

/-- The parameters a partner sends in training step 5 (12 R385). -/
structure LinkParams where
  systemId : Word
  selfIndex : Nat
  topology : Nat
  port : Nat
deriving DecidableEq, Repr, Inhabited

/-- What a completed training measured on one lane (18 R539). -/
structure LaneWord where
  eye : Nat
  precode : Bool
  invert : Bool
deriving DecidableEq, Repr, Inhabited

/-- One variable of one replica. -/
structure Slot where
  var : Nat
  rep : Nat
deriving DecidableEq, Repr, Inhabited

/-- The class of a code word that is not clean (13 R410). -/
inductive WordClass
  | correctable | uncorrectable | poisoned | sealed
deriving DecidableEq, Repr, Inhabited

/-- A memory unit (13 R420): one HBM stack, one core's scratchpad, or another memory: number `mem` of core `owner`, or of the
always-on domain for owner 18 (log 74 numbers them). -/
inductive MemUnit
  | hbm (stack : Nat) | spad (core : Nat) | other (owner mem : Nat)
deriving DecidableEq, Repr, Inhabited

/-- An error that a read meets (13 R410, R411): bit errors that have struck the stored word, and the class of the syndrome they
leave; or, with `decoder`, the class of a read for which the decoder delivered a word of another address. -/
structure Upset where
  addr : Nat
  cls : WordClass
  decoder : Bool
deriving DecidableEq, Repr, Inhabited

/-- The work item that receives a mesh flit (14 R430): a TENSOR_OP tile, a colour of a context on a core, a context's sweeps on
a core, or a move of a context's share. -/
inductive Receiver
  | tile (prog : Req) | colour (core ctx : Nat) | sweeps (core ctx : Nat) | ctxMove (ctx : Nat)
deriving DecidableEq, Repr, Inhabited

/-- What a check of R428 found (14 R430). Cores are physical; `ctx` is a context table index; `link` a mesh link of R441. -/
inductive Detection
  /-- Residue mismatch in a TENSOR_OP tile. -/
  | tileResidue (core : Nat) (prog : Req)
  /-- Residue (engine 0 Field, in a dense pass; 1 Gather) or duplicate comparator (engine 2) in a colour of a context; `spec` for
  its speculative work. -/
  | colour (core engine ctx : Nat) (spec : Bool)
  /-- Residue of a hardware generator. -/
  | generator (core : Nat)
  /-- Residue of the Reduce Unit in a context's sweep. -/
  | reduce (core ctx : Nat)
  /-- Mesh flits failed their CRC on a link, in a direction; `work` is the work item that receives them, if one does. -/
  | meshCrc (link direction flits : Nat) (work : Option Receiver)
  /-- An uncorrectable word of a core's scratchpad, in a context or a model share, met by a run. -/
  | badWord (core ctx addr : Nat)
  /-- Full energy and incremental energy differ (04 R133). -/
  | energyCheck (core ctx replica : Nat)
  /-- A word that is not clean, read by an engine or the Handler in a scratchpad or another memory (13 R415, R420, 14 R431). -/
  | memoryWord (unit : MemUnit) (addr : Nat) (cls : WordClass)
deriving DecidableEq, Repr, Inhabited

/-- Which of R321, R379 and R420 a coalescing interval belongs to. -/
inductive IntervalKey
  | auth (src : Option Source) | link (port : Nat) | memory (unit : MemUnit)
deriving DecidableEq, Repr, Inhabited

/-- The commands. The docstring of each constructor is its row's summary and rule. -/
inductive Instr
  /-- R339. The Handler takes a PING and echoes its payload unchanged. -/
  | ping (r : Req) (payload : List Byte)
  /-- R340. The Handler takes an INFO and returns the 64-byte identity and state reply. -/
  | info (r : Req) (payload : List Byte)
  /-- R313. The Handler verifies HOST_SIG, draws entropy, runs ECDH and HKDF, and opens the lowest free session. -/
  | sessionOpen (r : Req) (payload : List Byte)
  /-- R314. The session closes in SEQ order after every earlier command has replied, and its keys are erased. -/
  | sessionClose (r : Req) (payload : List Byte)
  /-- R342. Reads COUNT register words from ADDR upward under each register's rules. -/
  | regRead (r : Req) (payload : List Byte)
  /-- R343. Writes COUNT register words into the write buffer, stops at the first failing word, and applies command-boundary writes at its own end. -/
  | regWrite (r : Req) (payload : List Byte)
  /-- R515. Loads IND_ADDR and reads IND_DATA COUNT times through the indirect window. -/
  | regReadInd (r : Req) (payload : List Byte)
  /-- R515. Loads IND_ADDR and writes IND_DATA COUNT times through the indirect window. -/
  | regWriteInd (r : Req) (payload : List Byte)
  /-- R83. Reads and digests the image in one pass, runs the ordered checks, then codes the model and places its shares and slots. -/
  | modelLoad (r : Req) (payload : List Byte)
  /-- R345. Reads every word of a coded model and optionally compares its digest with an image header. -/
  | modelVerify (r : Req) (payload : List Byte)
  /-- R346. Releases a model's slots, schedules and HBM space unless a context of the model lives. -/
  | modelFree (r : Req) (payload : List Byte)
  /-- R264. Writes the class, seeds the generators, writes evidence and state, evaluates the neural factors, and computes energies and the best record. -/
  | ctxCreate (r : Req) (payload : List Byte)
  /-- R265. Applies the items to an Idle context whole, re-evaluates the affected neural factors and energies, and increments EVIDENCE_VERSION. -/
  | ctxUpdate (r : Req) (payload : List Byte)
  /-- R277. Writes a context image with its digest, at once for an Idle or Paused context or at the next boundary for a Running one. -/
  | ctxSave (r : Req) (payload : List Byte)
  /-- R279. Reads and checks a saved image in order and creates a context from it. -/
  | ctxRestore (r : Req) (payload : List Byte)
  /-- R349. Frees a context's table entry and its pool space without rewriting them. -/
  | ctxDestroy (r : Req) (payload : List Byte)
  /-- R349. Returns the fields of a context's table entry as they stood at the last boundary. -/
  | ctxQuery (r : Req) (payload : List Byte)
  /-- R121. Checks the parameters and starts a constant-beta sampling run that counts every replica. -/
  | runSample (r : Req) (payload : List Byte)
  /-- R121. Checks the parameters and starts an annealing run over a beta schedule without counting marginals. -/
  | runAnneal (r : Req) (payload : List Byte)
  /-- R121. Checks the parameters and ladder and starts a replica-exchange run. -/
  | runTemper (r : Req) (payload : List Byte)
  /-- R128. Requests that a Running context pause at its next sweep boundary. -/
  | runPause (r : Req) (payload : List Byte)
  /-- R353. Readmits a Paused context as a new run continuing from its stored run state. -/
  | runResume (r : Req) (payload : List Byte)
  /-- R128. Abandons the current sweep and returns the context to its last boundary as Idle. -/
  | runAbort (r : Req) (payload : List Byte)
  /-- R355. Returns the selected marginal, best, state or exchange data of a context, inline or into HBM. -/
  | statsRead (r : Req) (payload : List Byte)
  /-- R170. Checks a tensor program and runs its steps in order on the Field Engines. -/
  | tensorOp (r : Req) (payload : List Byte)
  /-- R209. Places a fence in the program order of the named cores, or fences and then combines partial tensors. -/
  | accDrain (r : Req) (payload : List Byte)
  /-- R209. The fence completes once every included product has left the adder tree and its work has been written, committed or stored. The drain of command `r`. -/
  | accDrainComplete (r : Req)
  /-- R359. Moves bytes between local HBM, the payload, the reply, a joined member or host memory, by KIND. -/
  | move (r : Req) (payload : List Byte)
  /-- R360. Writes a pattern or seeded random values over a region in whole code words. -/
  | fill (r : Req) (payload : List Byte)
  /-- R244. Queues a request for DRBG bytes at consumer order 4, or refuses it at once. -/
  | entropyGet (r : Req) (payload : List Byte)
  /-- R458. Checks the request and begins entry into the requested power state. -/
  | powerSet (r : Req) (payload : List Byte)
  /-- R362. Arms or disarms the RTC alarm and thermal wake sources and returns the RTC count. -/
  | wakeArm (r : Req) (payload : List Byte)
  /-- R444. Freezes the Trail for the whole module once the record in progress is complete. -/
  | trailFreeze (r : Req) (payload : List Byte)
  /-- R364. Returns COUNT Trail records of a frozen Trail from the ring or the spill region. -/
  | trailRead (r : Req) (payload : List Byte)
  /-- R444. Resumes recording and writes one TRAIL_MISSED record carrying the count. -/
  | trailThaw (r : Req) (payload : List Byte)
  /-- R452. Returns part of the Fetch dump. -/
  | dumpRead (r : Req) (payload : List Byte)
  /-- R365. Reads the fence map or applies volatile fences to the masked cores. -/
  | faultMap (r : Req) (payload : List Byte)
  /-- R393. Reads the join state, sets a join and enters JOINING, or leaves the join. -/
  | joinConfig (r : Req) (payload : List Byte)
  /-- R389. Enters the member into a barrier over its scope and sends its first round. -/
  | barrier (r : Req) (payload : List Byte)
  /-- R483. Verifies a tokened image and writes it to the slot that did not boot. -/
  | fwStage (r : Req) (payload : List Byte)
  /-- R483. Makes the staged slot preferred, at the next reset or at once by warm reset. -/
  | fwActivate (r : Req) (payload : List Byte)
  /-- R489. Writes a tokened OTP field into a new setting generation or blows DEBUG_DISABLE. -/
  | otpProgram (r : Req) (payload : List Byte)
  /-- R494. Blows a DEBUG_UNLOCKS fuse and enables the requested debug features until reset. -/
  | debugUnlock (r : Req) (payload : List Byte)
  /-- R491. Signs an attestation report with the identity key and the next HSS leaf. -/
  | attest (r : Req) (payload : List Byte)
  /-- R319. The front end checks a received Valaz packet in order, then refuses, holds, drops, replays a cached reply for, or admits the command. -/
  | frameReceived (f : Frame)
  /-- R461. A Whistle frame is dropped and counted, and wakes a sleeping module when it names that module's SERIAL. -/
  | ethernetWhistleFrame (f : Frame)
  /-- R303. The front end answers an ARP request for the module's IPv4 address. -/
  | arpRequest (port : Nat) (senderMac senderIp targetIp : List Byte)
  /-- R303. The front end answers an IPv6 Neighbor Solicitation for the module's own address. -/
  | neighborSolicitation (port : Nat) (senderMac senderIp targetIp : List Byte)
  /-- R534. An 802.1AS message updates the disciplined time of a time-aware end station. -/
  | gptpMessage (port domain timeNs : Nat)
  /-- R316. The front end declares the missing SEQs lost and lets the held commands proceed in order. -/
  | reorderWaitExpiry (session : Nat)
  /-- R314. A session with no commands and no outstanding replies for VALAZ_IDLE.SECONDS closes. -/
  | sessionIdleTimeout (session : Nat)
  /-- R533. A control Ethernet port completes training, and replies waiting in the cache are sent. Speed, FEC, 802.1AS port role and eye margin that training and 802.1AS settled. -/
  | ethLinkUp (port : Nat) (speed25 : Bool) (fec : BitVec 2) (gptp : BitVec 2) (eye : Nat)
  /-- R304. A control Ethernet link goes down, and replies are routed to the other port or held. -/
  | ethLinkDown (port : Nat)
  /-- R535. An 802.1Qbv cycle of a port begins and applies any pending gate control list values. -/
  | gateCycleStart (port : Nat)
  /-- R380. A received CTRL flit returns credit and carries ACK, NAK and SLEEP or LEAVE notices. -/
  | leashCtrlFlit (port : Nat) (flit : CtrlFlit)
  /-- R381. The receiver sends a CTRL flit after 64 accepted flits or 1 microsecond. -/
  | ctrlFlitDue (port : Nat)
  /-- R381. With nothing acknowledged for 10 microseconds, the transmitter sends again from the oldest unacknowledged flit. -/
  | leashReplayTimeout (port : Nat)
  /-- R382. With no valid CTRL flit for 100 microseconds, the port retrains. -/
  | leashCtrlTimeout (port : Nat)
  /-- R375. A received WRITE message writes its data to ADDR or forwards it by dimension order, and answers with WRITE_ACK. -/
  | write (m : LeashMsg)
  /-- R375. A received WRITE_ACK completes the WRITE with the same TAG and advances its MOVE. -/
  | writeAck (m : LeashMsg)
  /-- R375. A READ_REQ message requests host memory from a bridge. -/
  | readReq (m : LeashMsg)
  /-- R375. A received READ_DATA message delivers host data for a MOVE kind 5. -/
  | readData (m : LeashMsg)
  /-- R399. A received VALAZ segment is joined into a Valaz packet that is then handled as a command packet. -/
  | valaz (m : LeashMsg)
  /-- R389. A received barrier arrival notice completes a round or is held for an ID not yet entered, and the last round releases the barrier. -/
  | barrierMessage (m : LeashMsg)
  /-- R389. A received TIME message updates link delay and the time followed from member 0. -/
  | time (m : LeashMsg)
  /-- R389. Every 1 ms a member sends its 802.1AS time in a TIME message. -/
  | timeSend
  /-- R395. A received LOST message is forwarded once, JOIN_STATE becomes INCOMPLETE, and the work affected by the loss ends. -/
  | lost (m : LeashMsg)
  /-- R393. A received SELFTEST message carries a pattern of the joined self-test. -/
  | selftest (m : LeashMsg)
  /-- R382. Loss of signal on a lane of the trained width starts a retrain. -/
  | laneSignalLoss (port lane : Nat)
  /-- R383. A port completes training, chooses its width, exchanges parameters and becomes ACTIVE. `lanes`: the lanes on which both directions passed step 3; `partner`: the parameters the other end sends; none for a bridge. -/
  | leashTrainingDone (port : Nat) (lanes : BitVec 8) (partner : Option LinkParams) (words : List LaneWord)
  /-- R383. Training not finished within 50 ms returns the port to step 1. -/
  | leashTrainingTimeout (port : Nat)
  /-- R387. A partner repeats the Whistle every 200 microseconds until a sleeping member starts training. -/
  | whistleRepeat (port : Nat)
  /-- R387. A sleeping member that does not start training within 100 ms of the first Whistle is lost. -/
  | whistleTimeout (port : Nat)
  /-- R394. A joined port not ACTIVE again within LOSS_MS declares its member lost and sends LOST. -/
  | lossTimeout (port : Nat)
  /-- R368. A barrier whose TIMEOUT_US elapses completes with JOIN_INCOMPLETE. -/
  | barrierTimeout (barrier : Word)
  /-- R393. After 1 s of JOINING the joined self-test runs or the join becomes INCOMPLETE. -/
  | joinWaitTimeout
  /-- R393. The joined self-test completes, and SET replies and enters COMPLETE or INCOMPLETE. -/
  | joinSelftestDone (passed : Bool)
  /-- R98. A batch's field vectors complete once their Gather Unit terms and Field Engine contributions have all arrived. Cores are logical; `ctx` is a context table index. -/
  | fieldVectorComplete (core ctx : Nat) (batch : List Slot)
  /-- R85. The stochastic units turn a batch of field vectors into samples in the pending or speculative plane. -/
  | sampleBatch (core ctx : Nat) (batch : List Slot)
  /-- R91. A generator instance advances by 4 outputs to form the pass key of a colour pass. -/
  | passKeyDraw (ctx stream replica : Nat)
  /-- R104. The Gather Unit walks the lists of changed variables and corrects speculative fields, marking their variables invalid. -/
  | flipWalk (core ctx : Nat)
  /-- R105. Valid speculative samples move to the pending plane, and invalid ones are discarded and resampled. -/
  | validation (core ctx : Nat)
  /-- R99. A remote core's colour commit arrives and updates the imported slots. -/
  | remoteCommitArrival (core fromCore ctx : Nat)
  /-- R100. A colour's samples move from the pending to the committed plane and to scratchpad, and the energy is updated. -/
  | colourCommit (core ctx : Nat)
  /-- R137. The sweep or round ends, with energies finalised, the best record updated, stop tests, exchange, run state written, and deferred commands served. -/
  | sweepBoundary (ctx : Nat)
  /-- R226. The hardware generators finish seeding a context's instances before the first sweep. -/
  | generatorSeedingDone (ctx : Nat)
  /-- R183. A tile drains, its residue and overflow are decided, and it is replayed at a raised exponent or saturated. The next tile of the program that command `prog` started. -/
  | tileDrain (prog : Req)
  /-- R207. The output stage scales, biases, activates and converts a drained tile and writes it. -/
  | tileOutputWritten (prog : Req)
  /-- R430. The affected work is retried from its commit point with the same operands and words after a detected fault. -/
  | faultRetry (d : Detection)
  /-- R429. Every 2^20 cycles a core runs its known-answer program and compares the signature. -/
  | knownAnswerWindow (core : Nat) (pass : Bool) (engine : Nat)
  /-- R432. A fenced core is stopped and a reserve substituted, or logical 15 lapses, then slots are rebuilt and work resumes. `reservesOk`: the physical cores that pass step 3 if they are chosen. -/
  | fenceSequence (reservesOk : List Nat)
  /-- R436. The Handler writes the next OTP setting generation with the current disabled-unit map. -/
  | fenceOtpWrite (interrupted : Bool)
  /-- R447. Every core stops, FAULT_STATUS and ALERT_N are set, and the Fetch dump is begun. -/
  | fatalError (cause unit : Nat)
  /-- R450. The Fetch dump is complete with its digest and VALID, and KEPT is set. -/
  | fetchDumpDone
  /-- R272. A placement seats the context at the head of its run list for up to RESIDENCY_MAX sweeps. -/
  | seating (model placement : Nat)
  /-- R272. A context finishes its residency, is written back, and goes to the tail of its list or ends its run. -/
  | contextWriteBack (ctx : Nat)
  /-- R275. A placement with an empty list takes the last waiting context from the longest list of the same model. -/
  | dynamicLoadBalance (model placement : Nat)
  /-- R273. The least recently used idle model share is evicted and the absent share loaded. The model whose absent share is loaded and the placement it waits for. -/
  | shareEviction (model placement : Nat)
  /-- R415. A corrected word is written back in its memory's next service cycle or reserved position. -/
  | memWriteBack (unit : MemUnit) (addr : Nat)
  /-- R424. A Groomer walker reads and classifies the next burst or line, correcting or counting as needed. `upsets`: bit errors that have struck words of the unit since its last read. -/
  | groomerRead (unit : MemUnit) (upsets : List Upset)
  /-- R30. An HBM controller issues refresh in a calendar position it has reserved. -/
  | hbmRefresh (stack : Nat)
  /-- R443. The Trail writes one waiting event as a record per AON_CLK cycle. -/
  | trailRecordWrite
  /-- R439. The Handler copies waiting Trail records into the spill region at 2,048 waiting or every 1 ms. -/
  | trailSpill
  /-- R442. A coalescing interval ends and its record with COUNT is written. -/
  | trailIntervalEnd (key : IntervalKey)
  /-- R247. A source fails a health test, the DRBG stops and is zeroised, pending requests fail, and the block becomes HALTED. `test`: 0 repetition count, 1 adaptive proportion,
  2 known answer; `samples`, none unless given, end with the one that fails. -/
  | healthTestFail (source test : Nat) (samples : List Bool := [])
  /-- R239. A failed source restarts its start-up test 1 ms after the failure. -/
  | sourceRestart (source : Nat)
  /-- R239. A source passes its start-up test, over `samples`, and becomes healthy. -/
  | sourceStartupPass (source : Nat) (samples : List Bool := [])
  /-- R240. A 1,024-bit input block completes conditioning into 384 bits of full entropy; its samples in the order taken. -/
  | conditionedBlock (samples : List Bool := [])
  /-- R242. The DRBG runs its known-answer tests and is instantiated, and the block becomes READY. -/
  | drbgInstantiate
  /-- R242. The DRBG is reseeded after 65,536 generate calls or 10 s. -/
  | drbgReseed
  /-- R244. A generate call completes, and the next call serves the highest waiting consumer. -/
  | drbgGenerate
  /-- R245. An ENTROPY_GET not served within HOST_WAIT completes with BUSY. -/
  | hostWaitExpiry (r : Req)
  /-- R458. Entry into Doze, Nap or Den completes and the POWER_SET reply is sent. -/
  | sleepEntryComplete
  /-- R461. WAKE_N asserted wakes a sleeping module. -/
  | wakeNAssert
  /-- R461. The RTC count reaching ALARM wakes the module. -/
  | rtcAlarm
  /-- R461. A junction sensor at or above THERM_WAKE wakes the module. Temperatures are in 1/16 degree C. -/
  | thermalWake (sensor : Nat) (temp : Int)
  /-- R461. Signal, the Whistle included, detected on a receive lane wakes a sleeping module. -/
  | leashActivity (port lane : Nat) (inWindow : Bool)
  /-- R464. The exit sequence completes, and the Handler takes commands in Run; the cores and the stacks whose checkers have failed
  their self-test (R421), none unless given. -/
  | sleepExitComplete (failedCores failedStacks : List Nat := [])
  /-- R465. A half with no work for 1 ms has its CORE_CLK gated. Half 0 is north, 1 south. -/
  | coreClkGate (half : Nat)
  /-- R467. A half's hottest sensor reaching THROTTLE_TEMP raises its thermal step. -/
  | throttleTempReached (sensor : Nat) (temp : Int)
  /-- R467. The thermal step rises after each further 1 ms above threshold or falls after each 10 ms below the hysteresis. -/
  | throttleStepTimer (half : Nat)
  /-- R467. A sensor at ALERT_TEMP sets the half to step 5 and asserts ALERT_N. -/
  | alertTemp (sensor : Nat) (temp : Int)
  /-- R466. A half's PLL relock completes and its clocks run at the new step. -/
  | relockDone
  /-- R468. At 115 degrees C, THERMTRIP_N is asserted and the main regulators turn off. -/
  | thermtrip (sensor : Nat) (temp : Int)
  /-- R473. PWR_OK asserted with RST_N deasserted starts a cold start. -/
  | pwrOkAssert
  /-- R469. PWR_OK deasserted clamps the gloved outputs and powers the module down. -/
  | pwrOkDeassert
  /-- R529. Input below 44 V or above 59 V for 10 microseconds is treated as PWR_OK deasserted. -/
  | inputUndervoltage (mv : Nat)
  /-- R472. RST_N assertion puts HBM into self-refresh and stops the Leash transmitters ahead of a warm reset. -/
  | rstNAssert
  /-- R471. A warm reset takes effect: sessions close, the context table empties, and logic resets. -/
  | warmReset
  /-- R473. RST_N deassertion starts the warm-reset start-up, or the cold start when PWR_OK was asserted during reset. -/
  | rstNDeassert
  /-- R495. A glitch detector clears the keys and causes a warm reset by glitch. `kind`: 0 voltage, 1 clock; `unit`: rail or PLL. -/
  | glitchDetected (kind unit : Nat)
  /-- R473. Start-up completes, the Handler takes commands, and the rollback counter advances. `failed`: the physical cores that fail the start-up self-test. -/
  | startDone (failed : List Nat)
  /-- R480. The boot ROM verifies the preferred slot, then the other, and runs the first that passes. -/
  | boot
  /-- R481. Writing GO makes the boot ROM verify the recovery image and, if it passes, install it in slot A and boot it. A write to SEC_RECOVER. -/
  | secRecover (path : Nat) (value : Word)
  /-- R514. Writing the key arms the guard for one guarded write on the path; any other value disarms it. A write to MUZZLE. -/
  | muzzle (path : Nat) (value : Word)
  /-- R514. A MUZZLE arm ends 100 ms after arming. -/
  | muzzleArmExpiry (path : Nat)
  /-- R515. A read or write of IND_DATA reaches the indirect word at IND_ADDR and auto-increments it. A read (none) or a write of IND_DATA. -/
  | indData (path : Nat) (value : Option Word)
  /-- R509. Reading the low word of a 64-bit pair latches its high word into the path's shadow. -/
  | loWordRead (path addr : Nat)
  /-- R510. Reading word 0 latches the whole challenge into the path's shadow and draws the first challenge after reset. A read of SEC_CHALLENGE0. -/
  | secChallenge0 (path : Nat)
  /-- R451. Writing 1 to KEPT clears KEPT in the register and in the dump header. A write to FETCH_STATUS. -/
  | fetchStatusKept (path : Nat) (value : Word)
  /-- R505. A write to a register with no row of its own takes effect or is held as a pending value under its access code. `hw`: what hardware updates in the same cycle: the bits it sets in a status field, or the count it adds to a counter (R517). -/
  | registerWrite (path addr : Nat) (value hw : Word)
  /-- R504. At a command boundary, including one made every 10 microseconds when idle, pending register values take effect. -/
  | commandBoundary
  /-- R538. A sideband REG_READ transaction reads one register word. The bytes after the command code. -/
  | sidebandRegRead (bytes : List Byte) (pecOk : Bool)
  /-- R538. A sideband REG_WRITE transaction writes one register word. -/
  | sidebandRegWrite (bytes : List Byte) (pecOk : Bool)
  /-- R538. A sideband transaction reads one indirect word. -/
  | indRead (bytes : List Byte) (pecOk : Bool)
  /-- R538. A sideband transaction writes one indirect word. -/
  | indWrite (bytes : List Byte) (pecOk : Bool)
  /-- R538. The sideband returns input power, state, sensor and fault telemetry in every power state. -/
  | telemetry (bytes : List Byte) (pecOk : Bool)
  /-- R537. The target answers the SMBus Alert Response Address with its static address. -/
  | alertResponse
  /-- R537. Assigns a dynamic address from the static one and makes the target an I3C Basic target. -/
  | setdasa (addr : BitVec 7)
  /-- R537. Dynamic address assignment makes the target an I3C Basic target. -/
  | entdaa (addr : BitVec 7)
  /-- R537. Resets the dynamic address and returns the target to SMBus operation. -/
  | rstdaa
  /-- R537. Returns the I3C provisioned ID. -/
  | getpid
  /-- R537. Returns the I3C bus characteristics register. -/
  | getbcr
  /-- R537. Returns the I3C device characteristics register. -/
  | getdcr
  /-- R537. Returns the I3C target status. -/
  | getstatus
  /-- R537. Enables in-band interrupts raised with ALERT_N. -/
  | enec
  /-- R537. Disables in-band interrupts. -/
  | disec
  /-- R540. Drives the boundary cells while RST_N is asserted, and otherwise acts as BYPASS. -/
  | extest
  /-- R540. Samples and preloads the boundary cells. The values shifted into the boundary cells. -/
  | samplePreload (cells : List Bool)
  /-- R540. Selects the IDCODE register. -/
  | idcode
  /-- R540. Clamps the pins while RST_N is asserted, and otherwise acts as BYPASS. -/
  | clamp
  /-- R540. Floats the pins while RST_N is asserted, and otherwise acts as BYPASS. -/
  | highz
  /-- R540. Selects the bypass register. -/
  | bypass
  /-- R400. At the end of each run of 256 flit times, pending LK_CTRL values of the port take effect. -/
  | leashFrameBoundary (port : Nat)
  /-- R467. A sensor falling below ALERT_TEMP minus HYST deasserts ALERT_N. -/
  | alertTempRelease (sensor : Nat) (temp : Int)
  /-- R462. The filtered WAKE_N level returns to deasserted. -/
  | wakeNDeassert
  /-- R525. A change on the JOIN_ID straps changes the filtered level that JOIN_STATUS.JOIN_ID reads and the next JOIN_CONFIG SET uses. -/
  | joinIdChange (level : BitVec 3)
  /-- R381. A sequenced flit with a bad CRC, an uncorrectable FEC codeword or an unexpected SEQ is discarded, and the first discard sends a NAK. -/
  | flitCrcError (port seq vl : Nat) (why : FlitError)
  /-- R359. A local MOVE finishes its last byte and replies with BYTES_MOVED. -/
  | moveComplete (r : Req)
  /-- R360. A FILL finishes writing its region and replies with BYTES_FILLED. -/
  | fillComplete (r : Req)
  /-- R82. MODEL_LOAD finishes reading and coding the image and replies, after which the image region is no longer used. -/
  | modelLoadComplete (r : Req)
  /-- R281. The image of a CTX_SAVE has been written, its reply is sent, and a waiting CTX_DESTROY proceeds. -/
  | ctxSaveComplete (r : Req)
deriving DecidableEq, Repr

end Sys2Proof
end

