-- ==== Sys2Proof/Config.lean ====
section
/-!
DEFINITION. What an implementation fixes, and the free values: constants without a body. Nothing in Lean can evaluate them,
so a statement holds whatever they are. Log entries 5, 10 to 12, 15, 20 to 22, 24 and 40 name them.
-/

namespace Sys2Proof.Config

/-- The bits of a code word that errors of more than two bits have left in the class of correctable words (13 R410; log 74). -/
opaque struckWord : Nat → BitVec 64

/-- A byte of the recovery buffer that the boot ROM has opened and nobody has written (13 R414, 16 R481; log 75). -/
opaque recoveryByte : Nat → Byte

/-- The x-coordinate, reduced mod n, that ECDSA P-384 verification computes from a public key, a digest and the s half of a
signature; the signature verifies when it equals the r half (10 R312, 16 R479, R485; log 10). -/
opaque ecdsaV (publicKey digest s : List Byte) : BitVec 384

/-- The tree root an LMS verifier computes from the public key's type codes and identifier, a message and a signature; the
signature verifies when it equals the root in the public key (16 R479; log 10). -/
opaque lmsRoot (keyId message signature : List Byte) : BitVec 192

/-- The same for the top tree of an HSS signature (16 R485; log 10). -/
opaque hssRoot (keyId message signature : List Byte) : BitVec 192

/-- The ECDSA P-384 signature (r, then s) by a private key over a digest; the `n` is the nonce drawn (10 R313, 16 R493;
log 10). -/
opaque ecdsaSign (privateKey digest : List Byte) (n : Nat) : BitVec 768

/-- The P-384 public key, uncompressed SEC1 form, of the ephemeral key derived from 56 secret bytes (10 R313; log 10). -/
opaque ephemeralPub (secret : List Byte) : BitVec 776

/-- The x-coordinate of the ECDH shared point of an ephemeral key and a peer's public key (10 R313; log 10). -/
opaque ecdhZ (secret peer : List Byte) : BitVec 384

/-- The HSS signature of a message with top leaf and bottom leaf: byte `k` (16 R491, R493; log 10). -/
opaque hssSigByte (seed message : List Byte) (leaf bottom k : Nat) : Byte

/-- Bytes of the model region, in the internal form of a share (08 R541; log 15): the byte at an address after the `n`th
load. -/
opaque shareByte (n addr : Nat) : Byte

/-- The delay that TIME messages measure on a Leash port, in nanoseconds (12 R389; log 81). -/
opaque linkDelay (port : Nat) : Nat

/-- Bytes of the Fetch dump whose layout the manual does not give (14 R449; log 22): byte `o` of the `n`th dump. -/
opaque dumpByte (n o : Nat) : Byte

/-- RETRY_AFTER estimates of the Handler in microseconds, less 1 (10 R328, 07 R245; log 20). -/
opaque retryEstimate : Nat → Nat

/-- The I3C provisioned ID, bus and device characteristics (18 R537 names them and gives no value; log 24). -/
opaque i3cPid : BitVec 48
opaque i3cBcr : Byte
opaque i3cDcr : Byte
/-- The I3C GETSTATUS format 1 word for a count of pending interrupts (18 R537; log 24). -/
opaque i3cStatus : Nat → BitVec 16

/-- Boundary-cell values sampled from the pins (18 R540; log 24). -/
opaque pinSample : Nat → Bool

/-- The microseconds until the earlier of two SESSION_OPENs replies, less 1 (10 R328; log 20). -/
opaque openEstimate : Nat → Nat

/-- Samples of the power input: 0 voltage in mV, 1 current in mA, 2 power in mW (18 R539; log 24). -/
opaque inputSample (n which : Nat) : Nat

/-- Status fields that change from cycle to cycle inside a core that is at work (05 R176, 06 R216, 07 R237; log 21): the `n`th
reading of field `which` on a physical core. -/
opaque cycleStatus (n core which : Nat) : Nat

/-- Whether a core that failed its start-up self-test failed the generators' part of it (07 R235; log 21). -/
opaque generatorFailed (n core : Nat) : Bool

/-- The bits of a NaN that an FP32 operation forms (06 R213; log 12). -/
opaque nanBits : Word

/-- Result of a reduction that the manual leaves open (05 R168, 06 R196; log 40). -/
opaque openResult : Nat → Nat

end Sys2Proof.Config
end

