-- ==== Sys2Proof/Machine/State.lean ====
section
/-!
DEFINITION. The state of the module as plain data: everything the spec gives it, and the queue of commands that wait.
Reset values are the structures' defaults; those the spec does not give carry DESIGN CHOICE and a log entry.
-/

namespace Sys2Proof.Machine

/-- Sparse data by key, keys strictly rising, each key once. -/
abbrev Map (α : Type) := List (Nat × α)

/-! ### Outcomes -/

/-- Why the machine stops with a fault. -/
inductive Fault
  /-- Raised by no meaning: the module has no stop of its own (a fatal error is a state, 14 R447). Safe. -/
  | stopped
deriving DecidableEq, Repr

/-- Why a command has no meaning here. -/
inductive Refusal
  /-- Raised by an arm of `exec` whose command has no meaning yet. Safe: nothing can be proved of what it does. -/
  | notModelled (mnemonic : String)
deriving DecidableEq, Repr

/-! ### Replies and the front end (10) -/

/-- The status of a reply (11 R333). -/
inductive Status
  | ok | busy | badPacket | badOpcode | badParam | notReady | staleSeq | authFailed | accessDenied | busError
  | dataError | noContext | contextBusy | colourConflict | overflowSaturated | entropyNotReady | entropyFailed
  | wakeSourceActive | joinIncomplete | attestPqExhausted | lengthLimit | fatal
deriving DecidableEq, Repr, Inhabited

/-- ACC_MODE and REPRO_EN as they stood when a command was accepted (17 R507, 06 R214, 09 R298). -/
structure Modes where
  tree : Bool
  gn5 : Bool
  repro : Bool
deriving DecidableEq, Repr, Inhabited

/-- A command packet that passed its framing checks (10 R307), with the modes in effect when it was accepted. -/
structure Packet where
  session : Option Nat
  opcode : Nat
  seq : Word
  payload : List Byte
  src : Source
  modes : Modes
deriving DecidableEq, Repr, Inhabited

/-- A reply packet (10 R308), its tag included. -/
structure Reply where
  session : Nat
  opcode : Nat
  seq : Word
  status : Status
  detail : Nat
  info : Byte
  credits : Nat
  retryAfter : Nat
  tagged : Bool
  payload : List Byte
  tag : List Byte
  dest : Source
deriving DecidableEq, Repr, Inhabited

/-- The source addresses of a reply's frame, those of the port that sends it, and its UDP Length (10 R304, R310): MAC and IP
addresses, the latter empty on the raw carrier. -/
structure Sender where
  mac : List Byte
  ip : List Byte
  udpLen : Option Nat
deriving DecidableEq, Repr, Inhabited

/-- What leaves the module. -/
inductive Out
  /-- A reply's frame on an Ethernet port. -/
  | reply (port : Nat) (rTag : Bool) (sender : Sender) (r : Reply)
  | arp (port : Nat) (mac ip : List Byte)
  | neighborAdv (port : Nat) (mac ip : List Byte)
  /-- A sequenced Leash flit on a port: its 64 bytes (12 R373). -/
  | flit (port : Nat) (bytes : List Byte)
  | ctrl (port : Nat) (f : CtrlFlit)
  | whistle (port : Nat)
  | training (port : Nat) (p : LinkParams)
  | sideband (bytes : List Byte)
  | inBand (b : Byte)
deriving DecidableEq, Repr

/-- A command taken and not yet replied (10 R324): what it names. -/
structure Taken where
  r : Req
  opcode : Nat
  ctx : Option Nat
  model : Option Nat
  modes : Modes
deriving DecidableEq, Repr, Inhabited

/-- One Valaz session (10 R313 to R318). -/
structure Session where
  isOpen : Bool := false
  kH : List Byte := []
  kM : List Byte := []
  nextSeq : Word := 0
  /-- SEQs declared lost (R316), newest first. -/
  lost : List Word := []
  reorder : List Packet := []
  queue : List Packet := []
  /-- The most recent 32 tagged replies, newest first (R318). -/
  cache : List Reply := []
  /-- RTC count at the last command or reply (R314). -/
  lastUse : Nat := 0
deriving DecidableEq, Repr, Inhabited

/-- One AUTH_FAILED interval of a source, or of the shared allowance (10 R321). -/
structure AuthInterval where
  src : Option Source
  opened : Nat
deriving DecidableEq, Repr, Inhabited

/-- One control Ethernet port (18 R536 ETH_PORT_STATUS, R539). -/
structure EthPort where
  link : Bool := false
  speed25 : Bool := false
  fec : BitVec 2 := 0
  gptp : BitVec 2 := 0
  eye : Nat := 0
deriving DecidableEq, Repr, Inhabited

/-- Tokens of a flow meter, in bits x 32,768, and when they were counted (18 R534, R536). -/
structure Meter where
  tokens : Nat
  atRtc : Nat
deriving DecidableEq, Repr, Inhabited

/-- One register access path (17 R500): its high-word shadows, challenge shadow, MUZZLE arm and indirect registers. -/
structure Path where
  shadows : Map Word := []
  challenge : List Word := []
  armed : Bool := false
  indAddr : Nat := 0
  indInc : Bool := true
deriving DecidableEq, Repr, Inhabited

/-! ### Models (02) -/

/-- An exact number n x 2^e. -/
structure Dyadic where
  n : Int
  e : Int
deriving DecidableEq, Repr, Inhabited

/-- A coded value: code x 2^(exp - 127) (02 R69). -/
structure Coded where
  code : Int
  exp : Nat
deriving DecidableEq, Repr, Inhabited

/-- A variable (02 R53, R54). -/
structure Var where
  k : Nat
  clamped : Bool
  colour : Nat
deriving DecidableEq, Repr, Inhabited

/-- A pair (02 R56). -/
structure Pair where
  i : Nat
  j : Nat
  kind : Nat
  table : Nat
  w : Coded
deriving DecidableEq, Repr, Inhabited

/-- A coded table, row-major (02 R57). -/
structure CTable where
  rows : Nat
  cols : Nat
  entries : List Coded
deriving DecidableEq, Repr, Inhabited

/-- A dense factor (02 R60, R78); the weights stay as encoded (R62). -/
structure Dense where
  aFirst : Nat
  aCount : Nat
  bFirst : Nat
  bCount : Nat
  fmt : Nat
  rows : Nat
  cols : Nat
  data : List Byte
deriving DecidableEq, Repr, Inhabited

/-- A neural layer (02 R65, R79); `bias` is empty for none. -/
structure Layer where
  inWidth : Nat
  outWidth : Nat
  fmt : Nat
  act : Nat
  data : List Byte
  bias : List Word
deriving DecidableEq, Repr, Inhabited

/-- A neural factor (02 R64, R79). -/
structure Neural where
  inFirst : Nat
  inCount : Nat
  features : Nat
  outFirst : Nat
  outCount : Nat
  layers : List Layer
deriving DecidableEq, Repr, Inhabited

/-- A block of variables, the core its record names, the home stack chosen and where its share lies (02 R76, R80; 08 R541). -/
structure Block where
  first : Nat
  count : Nat
  core : Nat
  stack : Nat
  addr : Nat
  size : Nat
deriving DecidableEq, Repr, Inhabited

/-- A loaded model (02, 08 R267, R271). -/
structure Model where
  gen : Nat
  digest : List Byte
  modelId : List Byte
  /-- The METADATA section: stored and not interpreted (02 R75). -/
  metadata : List Byte
  relaxed : Bool
  code8 : Bool
  maxReplicas : Nat
  colours : Nat
  vars : List Var
  /-- Bias codes, variable after variable and state after state. -/
  biases : List Coded
  pairs : List Pair
  tables : List CTable
  dense : List Dense
  neural : List Neural
  blocks : List Block
  descAddr : Nat
  codedSize : Nat
  /-- A word of the coded model has been found uncorrectable: its runs fail (11 R346). -/
  bad : Bool
  /-- Placement p gives block b the logical core `placements[p][b]` (08 R267). -/
  placements : List (List Nat)
  /-- Number of the next admitted run (08 R271). -/
  nextRun : Nat
  /-- The run list of each placement: context indices, head first. -/
  lists : List (List Nat)
deriving DecidableEq, Repr, Inhabited

/-! ### Contexts (08) -/

/-- A generator instance (07 R220, R221). -/
structure Gen where
  stream : Nat
  replica : Nat
  passes : Nat
  pos : Nat
  ring : List Word
deriving DecidableEq, Repr, Inhabited

/-- What a context holds, section by section (08 R260, R261), as it stands at a boundary. Energies count units of 2^-136
(04 R130). -/
structure CtxData where
  evidence : List Nat
  features : List Byte
  fields : List Coded
  /-- Latent values of each replica, ascending variables. -/
  latent : List (List Nat)
  energy : List Int
  nMarg : Nat
  mc : List (List Nat)
  bestState : List Nat
  bestEnergy : Int
  bestSweep : Nat
  bestReplica : Nat
  runKind : Nat
  params : List Byte
  sweep : Nat
  schedPos : Nat
  schedLeft : Nat
  exchEvents : Nat
  patience : Nat
  betaCur : Word
  rungMap : List Nat
  exchAttempt : List Nat
  exchAccept : List Nat
  schedule : List Byte
  gens : List Gen
  runSeed : DWord
  evidenceVersion : Nat
  sweepsTotal : Nat
deriving DecidableEq, Repr, Inhabited

/-- A sample in the pending or speculative plane. -/
structure Upd where
  var : Nat
  rep : Nat
  val : Nat
deriving DecidableEq, Repr, Inhabited

/-- A complete field vector: `vals[s]` x 2^`exp` (03 R84, R98); `sat` when an element has saturated (06 R185), `spec` for
speculative work, `invalid` after R104. -/
structure Vec where
  var : Nat
  rep : Nat
  exp : Int
  vals : List Int
  sat : Bool
  spec : Bool
  invalid : Bool
deriving DecidableEq, Repr, Inhabited

/-- A pass key in the key buffer (07 R227, R230). -/
structure PassKey where
  stream : Nat
  rep : Nat
  colour : Nat
  lo : DWord
  hi : DWord
deriving DecidableEq, Repr, Inhabited

/-- The part of a sweep that one core runs: its block's state planes and field vectors (03 R99 to R105). -/
structure Share where
  block : Nat
  core : Nat
  /-- Oldest colour not yet committed on the core (R118). -/
  colour : Nat
  /-- Committed plane: the value of every variable, replica after replica. -/
  plane : List (List Nat)
  /-- The committed plane as it stood when speculative work of the next colour began (R103). -/
  base : Option (List (List Nat))
  pend : List Upd
  spec : List Upd
  vecs : List Vec
  /-- Changes that the flip walk has not carried yet: the new value, and the old one (R104). -/
  unwalked : List (Upd × Nat)
  /-- Remote commits that have arrived in this sweep: block and colour. -/
  arrived : List (Nat × Nat)
  /-- A failed check bars this colour from speculation (R108). -/
  barred : Option Nat
deriving DecidableEq, Repr, Inhabited

/-- A remote commit under way to a core (03 R99, R36). -/
structure Remote where
  fromBlock : Nat
  toBlock : Nat
  colour : Nat
  upds : List Upd
deriving DecidableEq, Repr, Inhabited

/-- A tile of a dense pass for a colour and a replica that has been computed in a sweep, and so counted: its factor, its side (A
for true), its first row or column, and whether the pass was speculative (06 R184, R217). -/
structure DensePass where
  colour : Nat
  factor : Nat
  aSide : Bool
  base : Nat
  rep : Nat
  spec : Bool
deriving DecidableEq, Repr, Inhabited

/-- A sweep in progress: the subset and turn of a rotated run (04 R145), the working copy, each core's part. -/
structure Sweep where
  subset : Nat
  turn : Nat
  work : CtxData
  shares : List Share
  keys : List PassKey
  remote : List Remote
  /-- A field accumulation of the sweep was replayed (04 R133). -/
  replayed : Bool
  /-- Pass keys drawn in this sweep: stream, replica, colour (R91). -/
  drawn : List (Nat × Nat × Nat)
  /-- Saturated field vectors committed in this sweep or round. -/
  sat : Nat
  /-- The sweep has had its first issue (R118). -/
  issued : Bool
  passes : List DensePass
deriving DecidableEq, Repr, Inhabited

/-- A seated context: the placement, sweeps or rounds left in the residency, the content at the last boundary and the sweep
in progress (08 R269 to R272). -/
structure Seat where
  placement : Nat
  left : Nat
  data : CtxData
  sweep : Option Sweep
  /-- Saturated field vectors since the last write-back. -/
  sat : Nat
  /-- Where the seat lies in each core's scratchpad: block, physical core, address and size (13 R405). -/
  places : List (Nat × Nat × Nat × Nat)
deriving DecidableEq, Repr, Inhabited

/-- A CTX_SAVE that waits or writes (08 R277, R281): `image` once it has been taken. -/
structure Save where
  r : Req
  ctx : Nat
  addr : Nat
  image : Option (List Byte)
  deferred : Bool
  repaired : Bool
deriving DecidableEq, Repr, Inhabited

/-- A run under way (04 R128, 08 R271): the command that replies, its placement and what its reply will carry. -/
structure Run where
  r : Req
  opcode : Nat
  placement : Nat
  number : Nat
  satVars : Nat
  repaired : Bool
  replayed : Bool
  /-- RUN_PAUSEs that wait for the boundary. -/
  pauses : List Req
  /-- The generators are seeded (07 R226). -/
  seeded : Bool
  /-- STOP_REASON once a stop test has ended the run (04 R136): the context is written back next. -/
  stop : Option Nat
  /-- The content before the run command (11 R354), and SWEEP when it was admitted. -/
  before : Option CtxData
  first : Nat
  /-- REPRO_EN when the run's command was accepted (09 R298). -/
  repro : Bool
deriving DecidableEq, Repr, Inhabited

/-- Idle, Running or Paused (04 R128). -/
inductive RunState
  | idle | running | paused
deriving DecidableEq, Repr, Inhabited

/-- A live entry of the context table (08 R255). `data` is the HBM copy, as at the last write-back (R270). -/
structure Ctx where
  gen : Nat
  model : Nat
  sizeClass : Nat
  span : Nat
  home : Nat
  addr : Nat
  used : Nat
  replicas : Nat
  tableCap : Nat
  st : RunState
  placement : Nat
  data : CtxData
  seat : Option Seat
  run : Option Run
  /-- Field vectors saturated in the part of a Paused run that is over: its reply at the end counts them (06 R185, R352). -/
  sat : Nat
deriving DecidableEq, Repr, Inhabited

/-! ### Work in progress (05, 06, 11) -/

/-- A MOVE under way (11 R359): its data, bytes acknowledged, and the WRITEs or READ_REQs outstanding: TAG, offset and length.
`bad` once a source word has yielded DATA_ERROR. -/
structure Move where
  r : Req
  kind : Nat
  member : Nat
  src : Nat
  dst : Nat
  len : Nat
  data : List Byte
  done : Nat
  bad : Bool
  tags : List (Word × Nat × Nat)
deriving DecidableEq, Repr, Inhabited

/-- A FILL under way (11 R360). -/
structure Fill where
  r : Req
  kind : Nat
  dst : Nat
  len : Nat
  seed : DWord
  pattern : DWord
deriving DecidableEq, Repr, Inhabited

/-- A tensor descriptor (05 R166). -/
structure Tensor where
  addr : Nat
  kLen : Nat
  vectors : Nat
  fmt : Nat
  id : Nat
  stride : Nat
deriving DecidableEq, Repr, Inhabited

/-- A step descriptor (05 R167). -/
structure TStep where
  op : Nat
  acc : Nat
  round : Nat
  a : Nat
  b : Nat
  c : Nat
  cShadow : Nat
  aShadow : Nat
  bShadow : Nat
  preload : Nat
  outStage : Nat
  outScale : Word
  sentN : Nat
  sentPhase : Nat
  tileN : Nat
  coreMask : Nat
  roundSeed : DWord
deriving DecidableEq, Repr, Inhabited

/-- A drained element: an ACC48 value x 2^exp, or FP32 bits (06 R179). -/
inductive Elem
  | acc (v : Int)
  | fp (w : Word)
deriving DecidableEq, Repr, Inhabited

/-- A drained tile: its exponent, replays, saturation and elements, column after column (06 R183 to R185, R199). -/
structure Tile where
  exp : Int
  replays : Nat
  saturated : Nat
  elems : List (List Elem)
deriving DecidableEq, Repr, Inhabited

/-- What the reply says of one step (11 R356), and the running FP64 sums of its sentinel (05 R173). -/
structure StepReport where
  saturated : Nat
  sentTiles : Nat
  sentWorst : Nat
  replays : Nat
  sumD : Dyadic
  sumR : Dyadic
  maxD : Dyadic
  /-- A narrow value that GN5 mode left non-finite has met the sentinel: its figures are open (log 40). -/
  sentOpen : Bool
deriving DecidableEq, Repr, Inhabited

/-- A TENSOR_OP program in progress (05 R165 to R171), with ACC_MODE and REPRO_EN as accepted and, by logical core, the
SENT_ALLOW that held when the program was taken (17 R507, R174). -/
structure Prog where
  r : Req
  tensors : List Tensor
  steps : List TStep
  tree : Bool
  gn5 : Bool
  repro : Bool
  sentAllow : List Bool
  cur : Nat
  tile : Nat
  drained : Option Tile
  reports : List StepReport
  /-- Lowest tile named by the status, and tiles not written, of the step in progress. -/
  firstTile : Option Nat
  notWritten : Nat
  satTile : Option Nat
  replayed : Bool
  repaired : Bool
deriving DecidableEq, Repr, Inhabited

/-- An ACC_DRAIN under way (06 R209, R200): GN5_MODE when it was accepted, the logical cores named, and the context that
limits it. The work it includes is that of the commands of its session that stand before it among the taken ones. -/
structure Drain where
  r : Req
  combine : Bool
  payload : List Byte
  gn5 : Bool
  repro : Bool
  cores : List Nat
  ctx : Option Nat
deriving DecidableEq, Repr, Inhabited

/-- A MODEL_LOAD whose reply waits (02 R82). -/
structure Load where
  r : Req
  status : Status
  detail : Nat
  payload : List Byte
deriving DecidableEq, Repr, Inhabited

/-! ### The mesh (01 R24, R25) -/

/-- Who holds slots of the slot table, and the schedules loaded into cores: a model, by table index, a program, or the join, which
forwards between Leash ports (12 R391). -/
inductive Owner
  | model (i : Nat) | prog (r : Req) | join
deriving DecidableEq, Repr, Inhabited

/-- A slot of a link direction in the frame and the transfer that it carries: its owner, its first and its last node, each a
column and a row. -/
structure MeshSlot where
  link : Nat
  dir : Nat
  slot : Nat
  owner : Owner
  src : Nat × Nat
  dst : Nat × Nat
deriving DecidableEq, Repr, Inhabited

/-- One entry of a core's schedule: in a cycle of the schedule's frame of 64, an engine uses scratchpad bank ports, bit b for bank
b (01 R32). -/
structure Issue where
  cycle : Nat
  banks : Nat
  engine : Nat
deriving DecidableEq, Repr, Inhabited

/-! ### Cores, faults, Trail, dump (14) -/

/-- A work item that a detected fault makes a core try again (14 R430): a tile of a step, a colour, a dense pass for a colour, a
pass key, a context's sweeps, or a move of a context's share, of the context's run `number` in a sweep. -/
inductive WorkItem
  | tile (prog : Req) (step tile : Nat)
  | colour (ctx number sweep colour : Nat)
  | dense (ctx number sweep colour : Nat)
  | key (ctx number sweep colour : Nat)
  | sweeps (ctx number sweep : Nat)
  | ctxMove (ctx number : Nat)
deriving DecidableEq, Repr, Inhabited

/-- A model share resident in a core's scratchpad: place, size and, in the order of use on the core, its last use (08 R273,
13 R405). -/
structure ResShare where
  model : Nat
  block : Nat
  addr : Nat
  size : Nat
  used : Nat
deriving DecidableEq, Repr, Inhabited

/-- A model share that retained banks hold through Den: the digest of its model's image, its block, place and size (15 R460). -/
structure KeptShare where
  digest : List Byte
  block : Nat
  addr : Nat
  size : Nat
deriving DecidableEq, Repr, Inhabited

/-- A physical core (14 R431, 17 R522). -/
structure Core where
  faults : Nat := 0
  times : List Nat := []
  windowFails : Nat := 0
  katFail : Bool := false
  /-- The core's fence is volatile (R437). -/
  volatile : Bool := false
  /-- Work items in hand that have failed, each with its attempts that have failed (R430). -/
  failed : List (WorkItem × Nat) := []
  /-- The schedules that the schedule memory holds, by owner (01 R31, R32). -/
  schedules : List (Owner × List Issue) := []
  /-- The generator instance that each of the 64 hardware generators was bound to last, by generator: context, stream and
  replica (01 R31, 07 R222), and the generator bound next. -/
  bound : Map (Nat × Nat × Nat) := []
  nextGen : Nat := 0
  shares : List ResShare := []
  kept : List KeptShare := []
  walker : Nat := 0
deriving DecidableEq, Repr, Inhabited

/-- A Trail record (14 R440). -/
structure Rec where
  seq : Nat
  time : Nat
  code : Nat
  severity : Nat
  unit : Nat
  flags : Nat
  context : Word
  count : Nat
  detail : List Byte
deriving DecidableEq, Repr, Inhabited

/-- An open coalescing interval (14 R442). -/
structure Interval where
  key : IntervalKey
  opened : Nat
  first : Rec
  count : Nat
deriving DecidableEq, Repr, Inhabited

/-- The RESET record of a cold start (15 R476), waiting to be written at time 0. -/
def coldResetRec : Rec :=
  { seq := 0, time := 0, code := 0x0905, severity := 0, unit := 0x400, flags := 0, context := 0, count := 1,
    detail := List.replicate 31 0 }

/-- The Trail (14 R439 to R445); the ring and the waiting events are newest first. -/
structure Trail where
  /-- SEQ of the newest record; 0 for none. -/
  head : Nat := 0
  /-- SEQ of the last record copied into the spill region, and of the first one still held there. -/
  spilled : Nat := 0
  spillFirst : Nat := 1
  ring : List Rec := []
  waiting : List Rec := []
  intervals : List Interval := []
  frozen : Bool := false
  missed : Nat := 0
deriving DecidableEq, Repr, Inhabited

/-- The Fetch dump (14 R448 to R451): `number` counts the dumps begun; the fields of the header are fixed when one begins. -/
structure Dump where
  number : Nat := 0
  valid : Bool := false
  writing : Bool := false
  kept : Bool := false
  cause : Nat := 0
  unit : Nat := 0
  time : Nat := 0
  trailSeq : Nat := 0
  later : Nat := 0
  handlerFw : Nat := 0
  coreFw : Nat := 0
  size : Nat := 0
deriving DecidableEq, Repr, Inhabited

/-- Fault state of the module (14). -/
structure Faults where
  fatal : Option (Nat × Nat) := none
  /-- Fences decided and not yet carried out: physical core and reason code of CORE_FENCED; the first is in its sequence. -/
  due : List (Nat × Nat) := []
  /-- An OTP generation is being written: the core whose fence started it (R436). -/
  otpPending : Option Nat := none
  /-- CRC failure times of mesh links. -/
  links : Map (List Nat) := []
  dump : Dump := {}
deriving DecidableEq, Repr, Inhabited

/-! ### Power, clocks, pins (15) -/

/-- Power states (15 R456). -/
inductive PState
  | run | doze | nap | den
deriving DecidableEq, Repr, Inhabited

/-- How far the module is: unpowered, held in reset, starting (before boot), booted (before START_DONE), running, in recovery
(16 R481), shut down by THERMTRIP (15 R468). -/
inductive Phase
  | off | reset | starting | booted | running | recovery | tripped
deriving DecidableEq, Repr, Inhabited

/-- One die half: its throttle step, the step being entered during a relock, the thermal step, the CORE_CLK gate. -/
structure Half where
  step : Nat := 0
  relock : Option Nat := none
  thermal : Nat := 0
  gated : Bool := false
deriving DecidableEq, Repr, Inhabited

/-- A temperature sensor (18 R539), in 1/16 degree C. -/
structure Sensor where
  temp : Int := 0
  valid : Bool := false
deriving DecidableEq, Repr, Inhabited

/-- An entry to a sleep state under way (15 R458): its target, RETAIN and the command that replies. -/
structure Entry where
  target : PState
  r : Req
  /-- An edge source occurred before the window (R463). -/
  edge : Option Nat
deriving DecidableEq, Repr, Inhabited

/-- Power, clocks, pins and reset (15). Pin fields are true while the signal is asserted, after the filter of R462. -/
structure Power where
  st : PState := .run
  entering : Option Entry := none
  /-- The exit sequence is under way (R463, R464). -/
  exiting : Bool := false
  edgeLost : Bool := false
  lastWake : Nat := 0
  /-- The wake source of the exit under way, and the state being left. -/
  wake : Nat := 0
  retain : DWord := 0
  alarm : DWord := 0
  thermWake : Nat := 0
  phase : Phase := .starting
  resetKind : Nat := 0
  /-- RTC count at the last reset (16 R495). -/
  resetAt : Nat := 0
  /-- A warm reset that will take effect, by kind (R471). -/
  resetDue : Option Nat := none
  rstN : Bool := false
  pwrOk : Bool := true
  wakeN : Bool := false
  joinId : BitVec 3 := 0
  /-- PWR_OK was asserted while RST_N was asserted, or fell: a cold start is due at RST_N deassertion (R471, R529). -/
  coldDue : Bool := false
  /-- Input out of range, until PWR_OK is deasserted (R529). -/
  inputBad : Bool := false
  north : Half := {}
  south : Half := {}
  sensors : Map Sensor := []
  /-- The ALERT_TEMP condition of R467, by sensor. -/
  alertTemps : List Nat := []
  thermtrip : Bool := false
deriving DecidableEq, Repr, Inhabited

/-! ### Security (16) -/

/-- A setting generation (16 R488): used once written to; valid with its mark. -/
structure Generation where
  used : Bool := false
  valid : Bool := false
  map : List Byte := []
  settings : Word := 0
  operatorKeys : List (List Byte) := []
  tokenEcdsaHash : List Byte := []
  tokenLmsHash : List Byte := []
deriving DecidableEq, Repr, Inhabited

/-- The OTP array (16 R487). Factory contents differ from module to module; the reset values are DESIGN CHOICE (log 6). -/
structure Otp where
  serial : List Byte := List.replicate 16 0
  mac0 : List Byte := [0, 0, 0, 0, 0, 1]
  mac1 : List Byte := [0, 0, 0, 0, 0, 2]
  factoryMap : List Byte := [0, 1, 2, 3, 4, 5, 6, 7, 8, 9, 10, 11, 12, 13, 14, 15, 0xFE, 0xFE]
  vendorEcdsaHash : List Byte := List.replicate 48 0
  vendorLmsHash : List Byte := List.replicate 48 0
  factoryOperatorKey : List Byte := List.replicate 96 0
  rollback : Nat := 0
  debugUnlocks : Nat := 0
  /-- Blown failure fuses of each entropy source. -/
  entropyFails : List Nat := [0, 0, 0, 0, 0, 0, 0]
  debugDisable : Bool := false
  /-- Top leaves used, in the order they were used: fuses 0 to leavesUsed - 1 are blown (R491 takes the lowest unused). -/
  leavesUsed : Nat := 0
  identityKey : List Byte := List.replicate 48 0
  hssSeed : List Byte := List.replicate 64 0
  identityCert : List Byte := []
  gens : List Generation := [{}, {}, {}, {}]
deriving DecidableEq, Repr, Inhabited

/-- The security block (16). -/
structure Security where
  otp : Otp := {}
  slotA : List Byte := []
  slotB : List Byte := []
  /-- The preferred slot and the slot booted are A (false) or B (true). -/
  preferB : Bool := false
  bootB : Bool := false
  staged : Bool := false
  /-- FW_ACTIVATE has made the staged slot preferred at the next reset (R483). -/
  activate : Bool := false
  /-- The image in slot A came through recovery (R493 RECOVERED). -/
  recovered : Bool := false
  recoverBuffer : List Host.Cell := []
  challenge : Option (List Byte) := none
  debug : BitVec 4 := 0
  debugUnlocked : Bool := false
  /-- Bottom tree of this reset: its top leaf and the next bottom leaf (R491). -/
  hss : Option (Nat × Nat) := none
  glitchTimes : List Nat := []
deriving DecidableEq, Repr, Inhabited

/-! ### Entropy block (07) -/

/-- State of a noise source (07 R239, R250). -/
inductive SourceState
  | startup | healthy | restarting | fenced
deriving DecidableEq, Repr, Inhabited

/-- State of the block (07 R241). -/
inductive EntState
  | startup | ready | halted | failed
deriving DecidableEq, Repr, Inhabited

/-- What a request for DRBG bytes is for (07 R244), in consumer order. -/
inductive Draw
  | session (r : Req) (payload : List Byte)
  | attest (r : Req) (payload : List Byte)
  | challenge
  /-- A run in ENTROPY mode: its command, whose context stays Idle until the seed is drawn (R244), and its schedule table, which is
  read once (04 R124). -/
  | seed (r : Req) (opcode : Nat) (payload table : List Byte)
  | host (r : Req)
deriving DecidableEq, Repr, Inhabited

/-- A waiting request: bytes needed in all, bytes drawn so far. -/
structure EntReq where
  what : Draw
  need : Nat
  got : List Byte
deriving DecidableEq, Repr, Inhabited

/-- The health tests of a source (07 R238): its last sample and how often it has come in a row, 0 before the first; in the proportion
window, the first sample, the samples taken, 0 for none, and how many equal the first. -/
structure SourceTests where
  last : Bool := false
  run : Nat := 0
  first : Bool := false
  pos : Nat := 0
  count : Nat := 0
deriving DecidableEq, Repr, Inhabited

/-- The working state of the CTR_DRBG (07 R242): Key of 32 bytes and V of 16, zero before it is instantiated. -/
structure DrbgState where
  key : List Byte := List.replicate 32 0
  v : List Byte := List.replicate 16 0
deriving DecidableEq, Repr, Inhabited

/-- The entropy block (07 R238 to R250). -/
structure Entropy where
  st : EntState := .startup
  sources : List SourceState := [.startup, .startup, .startup, .startup, .startup, .startup, .startup]
  tests : List SourceTests := [{}, {}, {}, {}, {}, {}, {}]
  /-- Conditioned 384-bit outputs gathered towards the instantiation or the next reseed (07 R240). -/
  outputs : List (List Byte) := []
  instantiated : Bool := false
  drbg : DrbgState := {}
  /-- A known-answer test failed: HALTED until the next reset (R242). -/
  katFailed : Bool := false
  calls : Nat := 0
  seededAt : Nat := 0
  queue : List EntReq := []
deriving DecidableEq, Repr, Inhabited

/-! ### Leash and joining (12) -/

/-- LK_STATUS.STATE (12 R401). -/
inductive LinkState
  | down | training | active | asleep | lost
deriving DecidableEq, Repr, Inhabited

/-- A flit in the replay buffer (12 R381): its SEQ, and which flit of which message it is; `msg.seq` is that of the HEAD. -/
structure Sent where
  seq : Nat
  index : Nat
  msg : LeashMsg
deriving DecidableEq, Repr, Inhabited

/-- A message that a port has still to send, from flit `next` on. A forwarded one names the port it came from, and how many flits of
that port's receive buffer it still holds (12 R378, R391). -/
structure Outgoing where
  msg : LeashMsg
  next : Nat
  origin : Option Nat
  held : Nat
deriving DecidableEq, Repr, Inhabited

/-- A Leash port (12). -/
structure Port where
  st : LinkState := .down
  /-- Trained width code (R401) and lanes of the trained group. -/
  width : Nat := 0
  lanes : BitVec 8 := 0
  partnerJoined : Bool := false
  everActive : Bool := false
  /-- SEQs, credit and replay buffer carry over the next training: it is a retrain (R382). -/
  carry : Bool := false
  txSeq : Nat := 0
  rxSeq : Nat := 0
  lastAck : Nat := 0
  replay : List Sent := []
  /-- Messages that wait for credit or for the link, oldest first, and the turn of the weighted round robin, in flits (R377). -/
  waiting : List Outgoing := []
  /-- Messages of which the HEAD but not yet the last flit has arrived, by virtual lane (R375). -/
  partials : Map LeashMsg := []
  turn : Nat := 0
  /-- Flits sent since training per VL, and the partner's freed-flit counters (R378). -/
  sentFlits : List Nat := [0, 0, 0, 0]
  freedByPartner : List Nat := [0, 0, 0, 0]
  /-- Flits of this receiver freed since training, per VL. -/
  freed : List Nat := [0, 0, 0, 0]
  /-- A flit has been accepted since training (ACK_SEQ.VALID). -/
  accepted : Bool := false
  nakSent : Bool := false
  naks : Nat := 0
  nakSeq : Nat := 0
  sinceCtrl : Nat := 0
  overruns : List Nat := []
  partial? : Option (Word × Nat × List Byte) := none
  barrierMsgs : List LeashMsg := []
  whistling : Bool := false
  sleepNotice : Bool := false
  laneWords : List LaneWord := []
  /-- What the other end sent in step 5 of the last training; none for a bridge (R385). -/
  partner : Option LinkParams := none
deriving DecidableEq, Repr, Inhabited

/-- JOIN_STATE (12 R393). -/
inductive JoinState
  | single | joining | complete | incomplete
deriving DecidableEq, Repr, Inhabited

/-- A barrier this member takes part in (12 R389): the rounds done and the arrivals seen. -/
structure Barrier where
  id : Word
  scope : Nat
  /-- The BARRIER that replies; none for the joined self-test (R393). -/
  r : Option Req
  round : Nat
  seen : List Nat
deriving DecidableEq, Repr, Inhabited

/-- The join (12 R390 to R396). -/
structure Join where
  st : JoinState := .single
  topology : Nat := 0
  systemId : Word := 0
  count : Nat := 1
  self : Nat := 0
  lostFirst : Option Nat := none
  lost : List Nat := []
  /-- Members that a SET which failed did not find (R393). -/
  missing : Nat := 0
  barriers : List Barrier := []
  setReq : Option Req := none
  selfTest : Bool := false
  selfBytes : Nat := 0
  nextTag : Word := 0
  linkDelay : Map Nat := []
deriving DecidableEq, Repr, Inhabited

/-! ### Sideband and TAP (18) -/

/-- The sideband target (18 R537, R538). -/
structure Sideband where
  dynamic : Option (BitVec 7) := none
  ibi : Bool := false
  reply : List Byte := []
deriving DecidableEq, Repr, Inhabited

/-- What the TAP has selected (18 R540). -/
inductive TapInstr
  | extest | samplePreload | idcode | clamp | highz | bypass
deriving DecidableEq, Repr, Inhabited

/-- The TAP: the instruction selected, the boundary cells. -/
structure Tap where
  instr : TapInstr := .idcode
  cells : List Bool := []
deriving DecidableEq, Repr, Inhabited

/-! ### The module -/

/-- The module's state. -/
structure State where
  /-- Commands that wait, first in first out: the model's own. -/
  pending : List Instr := []
  /-- RTC periods of 1 / 32,768 s since cold start (15 R478). -/
  rtc : Nat := 0
  /-- 802.1AS time in ns at an RTC count, once synchronised (14 R440). -/
  gptp : Option (Nat × Nat) := none
  /-- Storage registers whose value in effect is not their reset value, by address (17 R519). -/
  regs : Map Word := []
  /-- Pending values (17 R505). -/
  heldRegs : Map Word := []
  paths : Map Path := []
  sessions : Map Session := []
  openQueue : List Packet := []
  /-- The queue that the Handler looks at next: a session's, or 8 for the sessionless one (10 R324). -/
  turn : Nat := 0
  taken : List Taken := []
  nonces : List (List Byte × Nat) := []
  auths : List AuthInterval := []
  cbSeen : List (List Byte × Nat × Nat) := []
  meters : Map Meter := []
  eth : Map EthPort := []
  /-- Replies that completed while no link was up (10 R304), oldest first. -/
  unsent : List Reply := []
  models : Map Model := []
  modelGens : Map Nat := []
  ctxs : Map Ctx := []
  ctxGens : Map Nat := []
  /-- HBM bytes of the readable code words; an unlisted byte lies in a sealed word (13 R412; log 13). -/
  hbm : List Host.Cell := []
  /-- Code words of HBM that are not clean, by word address. -/
  marks : Map WordClass := []
  /-- Scratchpad bytes of the readable code words, by core x 2^26 + address; an unlisted byte lies in a sealed word (13 R403,
  R412). -/
  spad : List Host.Cell := []
  /-- The code words that are not clean of scratchpads, by the same key, and of other memories, by (owner x 8 + memory) x 2^26 +
  8 x code-word index (13 R410). -/
  spadMarks : Map WordClass := []
  otherMarks : Map WordClass := []
  /-- Corrected words whose write-back is due (13 R415), with their unit. -/
  writeBacks : List (MemUnit × Nat) := []
  walkers : Map Nat := []
  moves : List Move := []
  fills : List Fill := []
  loads : List Load := []
  saves : List Save := []
  /-- CTX_DESTROYs that wait, each with its handle (08 R281). -/
  destroys : List (Req × Nat) := []
  progs : List Prog := []
  drains : List Drain := []
  /-- The disabled-unit map in force, one byte per physical core (14 R436). -/
  map : List Byte := [0, 1, 2, 3, 4, 5, 6, 7, 8, 9, 10, 11, 12, 13, 14, 15, 0xFE, 0xFE]
  cores : Map Core := []
  /-- The slot table of the mesh (01 R24). -/
  slots : List MeshSlot := []
  faults : Faults := {}
  trail : Trail := {}
  power : Power := {}
  sec : Security := {}
  ent : Entropy := {}
  ports : Map Port := []
  join : Join := {}
  side : Sideband := {}
  tap : Tap := {}
  /-- What left the module, newest first: the model's own. -/
  out : List Out := []
  /-- Picks the next free value: the model's own (log 5). -/
  free : Nat := 0
deriving DecidableEq, Repr, Inhabited

/-- The module right after the reset of a cold start (15 R473, 2 ms): the always-on domain leaves reset, every register holds
its reset value, every memory is sealed, no session is open and no table entry is live (log 6, 7, 8). -/
def State.reset : State := { trail := { waiting := [coldResetRec] } }

end Sys2Proof.Machine
end

