-- ==== Sys2Proof/Machine/Map.lean ====
section
/-!
DEFINITION. Operations over sparse data by key (`Map`) and over lists: keys strictly rising, each once.
-/

namespace Sys2Proof.Machine

/-- The value at a key. -/
def lookup {α : Type} (m : Map α) (k : Nat) : Option α :=
  match m with
  | [] => none
  | (j, v) :: rest => if j = k then some v else lookup rest k

/-- The value at a key, or `d`. -/
def lookupD {α : Type} (m : Map α) (k : Nat) (d : α) : α := (lookup m k).getD d

/-- Sets the value at a key, keeping the keys in rising order. -/
def put {α : Type} (m : Map α) (k : Nat) (v : α) : Map α :=
  match m with
  | [] => [(k, v)]
  | (j, w) :: rest =>
    if j < k then (j, w) :: put rest k v else if j = k then (k, v) :: rest else (k, v) :: (j, w) :: rest

/-- Removes a key. -/
def del {α : Type} (m : Map α) (k : Nat) : Map α := m.filter (fun e => e.1 != k)

/-- Changes the value at a key that is present. -/
def adjust {α : Type} (m : Map α) (k : Nat) (f : α → α) : Map α :=
  m.map (fun e => if e.1 = k then (e.1, f e.2) else e)

/-- Keys strictly rising. -/
def rising {α : Type} : Map α → Bool
  | [] => true
  | [_] => true
  | a :: b :: rest => a.1 < b.1 && rising (b :: rest)

/-- The lowest number below `bound` that is no key, counting up from `from`. -/
def lowestFree {α : Type} (m : Map α) : Nat → Nat → Option Nat
  | 0, _ => none
  | fuel + 1, n => if (lookup m n).isSome then lowestFree m fuel (n + 1) else some n

/-- Element `i` of a list replaced, when it is there. -/
def setAt {α : Type} (l : List α) (i : Nat) (v : α) : List α := l.set i v

/-- Element `i` changed, when it is there. -/
def modAt {α : Type} (l : List α) (i : Nat) (f : α → α) : List α := l.modify i f

/-- The first element that passes, removed. -/
def eraseFirst {α : Type} (p : α → Bool) : List α → List α
  | [] => []
  | a :: rest => if p a then rest else a :: eraseFirst p rest

/-- The first element that passes, replaced. -/
def replaceFirst {α : Type} (p : α → Bool) (b : α) : List α → List α
  | [] => []
  | a :: rest => if p a then b :: rest else a :: replaceFirst p b rest

/-- Every element in turn into a state, left to right. -/
def each {α σ : Type} (l : List α) (s : σ) (f : σ → α → σ) : σ := l.foldl f s

/-- Insertion into a list sorted by `key`, after its equals. -/
def insertBy {α : Type} (key : α → Nat) (a : α) : List α → List α
  | [] => [a]
  | b :: rest => if key a < key b then a :: b :: rest else b :: insertBy key a rest

/-- A list sorted by `key`, equals in their order. -/
def sortBy {α : Type} (key : α → Nat) (l : List α) : List α := l.foldl (fun acc a => insertBy key a acc) []

/-- The numbers `lo` to `lo + n - 1`. -/
def span (lo n : Nat) : List Nat := (List.range n).map (lo + ·)

end Sys2Proof.Machine
end

