-- ==== Sys2Proof/Machine/Bytes.lean ====
section
/-!
DEFINITION. Bytes and the fields of payloads and memory: little-endian throughout (00 R9), big-endian where a published
format asks for it.
-/

namespace Sys2Proof.Machine

/-- The number that little-endian bytes spell (R9). -/
def leNat : List Byte → Nat
  | [] => 0
  | b :: rest => b.toNat + 256 * leNat rest

/-- The low `n` bytes of a number, little-endian. -/
def leBytes : Nat → Nat → List Byte
  | 0, _ => []
  | n + 1, v => BitVec.ofNat 8 v :: leBytes n (v / 256)

/-- The low `n` bytes of a number, big-endian. -/
def beBytes (n v : Nat) : List Byte := (leBytes n v).reverse

/-- The number that big-endian bytes spell. -/
def beNat (bs : List Byte) : Nat := leNat bs.reverse

/-- An integer of `bits` bits in two's complement, as an unsigned number. -/
def twos (bits : Nat) (v : Int) : Nat := (v % (2 ^ bits : Nat)).toNat

/-- An unsigned number of `bits` bits read in two's complement. -/
def signed (bits v : Nat) : Int :=
  let w := v % 2 ^ bits
  if 2 * w < 2 ^ bits then (w : Int) else (w : Int) - (2 ^ bits : Nat)

/-- Bytes `off` to `off + len - 1`. -/
def slice (bs : List Byte) (off len : Nat) : List Byte := (bs.drop off).take len

def u8 (bs : List Byte) (off : Nat) : Nat := leNat (slice bs off 1)
def u16 (bs : List Byte) (off : Nat) : Nat := leNat (slice bs off 2)
def u32 (bs : List Byte) (off : Nat) : Nat := leNat (slice bs off 4)
def u64 (bs : List Byte) (off : Nat) : Nat := leNat (slice bs off 8)

/-- The 32-bit word at an offset. -/
def w32 (bs : List Byte) (off : Nat) : Word := BitVec.ofNat 32 (u32 bs off)

/-- The 64-bit value at an offset. -/
def w64 (bs : List Byte) (off : Nat) : DWord := BitVec.ofNat 64 (u64 bs off)

/-- All bytes are 0. -/
def allZero (bs : List Byte) : Bool := bs.all (· == 0)

/-- `n` zero bytes. -/
def zeros (n : Nat) : List Byte := List.replicate n 0

/-- `bs` cut or filled with zeros to `n` bytes. -/
def fit (n : Nat) (bs : List Byte) : List Byte := bs.take n ++ zeros (n - bs.length)

/-- `new` written over `bs` at an offset, inside its length. -/
def overlay (bs : List Byte) (off : Nat) (new : List Byte) : List Byte :=
  bs.take off ++ new.take (bs.length - off) ++ bs.drop (off + new.length)

/-- The bytes of an ASCII text. -/
def ascii (t : String) : List Byte := t.toList.map (fun c => BitVec.ofNat 8 c.toNat)

/-- The first `k` sections of `n` elements of a list, one after the other. -/
def chunksLoop {α : Type} (n : Nat) : Nat → List α → List (List α)
  | 0, _ => []
  | k + 1, l => l.take n :: chunksLoop n k (l.drop n)

/-- The sections of `n` elements of a list; the last may be shorter. -/
def chunks {α : Type} (n : Nat) (l : List α) : List (List α) := chunksLoop n ((l.length + n - 1) / n) l

/-- A bit of a number. -/
def bitOf (v i : Nat) : Nat := v / 2 ^ i % 2

/-- Bits `lo` to `lo + n - 1` of a number. -/
def bitsOf (v lo n : Nat) : Nat := v / 2 ^ lo % 2 ^ n

/-- 1 for true. -/
def ofBool (b : Bool) : Nat := if b then 1 else 0

/-- The number whose bit `i` is set when `p i`, for `i` below `n`. -/
def maskOf (n : Nat) (p : Nat → Bool) : Nat := (List.range n).foldl (fun a i => a + ofBool (p i) * 2 ^ i) 0

/-- The number rounded up to a multiple of `m`. -/
def roundUp (v m : Nat) : Nat := (v + m - 1) / m * m

end Sys2Proof.Machine
end

