-- ==== Sys2Proof/Machine/Num.lean ====
section
/-!
DEFINITION. Exact numbers and IEEE 754 binary32 and binary64 in round half to even: conversions, single operations, the
functions of which the manual takes the nearest value (03 R85, R86, 04 R141, 07 R231, R232).
-/

namespace Sys2Proof.Machine

/-! ### Exact numbers n x 2^e -/

def Dyadic.zero : Dyadic := ⟨0, 0⟩

def Dyadic.ofInt (n : Int) : Dyadic := ⟨n, 0⟩

/-- The integer n x 2^(e - t), for t at most e. -/
def Dyadic.scaled (d : Dyadic) (t : Int) : Int := d.n * (2 ^ (d.e - t).toNat : Nat)

def Dyadic.add (a b : Dyadic) : Dyadic :=
  let t := min a.e b.e
  ⟨a.scaled t + b.scaled t, t⟩

def Dyadic.neg (a : Dyadic) : Dyadic := ⟨-a.n, a.e⟩

def Dyadic.sub (a b : Dyadic) : Dyadic := a.add b.neg

def Dyadic.mul (a b : Dyadic) : Dyadic := ⟨a.n * b.n, a.e + b.e⟩

def Dyadic.abs (a : Dyadic) : Dyadic := ⟨a.n.natAbs, a.e⟩

def Dyadic.lt (a b : Dyadic) : Bool :=
  let t := min a.e b.e
  decide (a.scaled t < b.scaled t)

def Dyadic.le (a b : Dyadic) : Bool := !(b.lt a)

/-- The larger of two. -/
def Dyadic.maxOf (a b : Dyadic) : Dyadic := if a.lt b then b else a

/-! ### Rounding half to even -/

/-- The integer nearest to a / b, ties to even. -/
def roundDiv (a b : Nat) : Nat :=
  let q := a / b
  let r := a % b
  if 2 * r < b then q else if b < 2 * r then q + 1 else if q % 2 = 0 then q else q + 1

/-- The same for a negative or positive numerator. -/
def roundDivInt (a : Int) (b : Nat) : Int :=
  if a < 0 then -(roundDiv a.natAbs b : Int) else roundDiv a.natAbs b

/-- floor(log2 (a / b)) for positive a and b. -/
def log2Ratio (a b : Nat) : Int :=
  let k : Int := (a.log2 : Int) - b.log2
  let lt := if 0 ≤ k then decide (a < b * 2 ^ k.toNat) else decide (a * 2 ^ (-k).toNat < b)
  if lt then k - 1 else k

/-- The bits of the magnitude nearest to a / b in a binary format of `p` significant bits whose smallest step is 2^emin; a
result beyond the largest exponent continues the count. -/
def magBits (p : Nat) (emin : Int) (a b : Nat) : Nat :=
  if a = 0 then 0
  else
    let q := max (log2Ratio a b - (p - 1)) emin
    let m := if 0 ≤ q then roundDiv a (b * 2 ^ q.toNat) else roundDiv (a * 2 ^ (-q).toNat) b
    (q - emin).toNat * 2 ^ (p - 1) + m

/-! ### FP32 -/

def fpInf : Nat := 0x7F800000
def fpMaxFinite : Nat := 0x7F7FFFFF

def fpSign (w : Word) : Bool := w.getLsbD 31

/-- The magnitude bits. -/
def fpMag (w : Word) : Nat := w.toNat % 2 ^ 31

def fpIsNan (w : Word) : Bool := decide (fpInf < fpMag w)
def fpIsInf (w : Word) : Bool := fpMag w == fpInf
def fpIsFinite (w : Word) : Bool := decide (fpMag w < fpInf)

/-- The exact value of a finite FP32 word. -/
def fpVal (w : Word) : Dyadic :=
  let m := fpMag w
  let x := m / 2 ^ 23
  let n : Nat := if x = 0 then m else m % 2 ^ 23 + 2 ^ 23
  ⟨if fpSign w then -(n : Int) else n, (max x 1 : Nat) - 150⟩

def fpOf (neg : Bool) (mag : Nat) : Word := BitVec.ofNat 32 (mag + 2 ^ 31 * ofBool neg)

/-- A NaN that an operation forms (log 12). -/
def fpNan : Word := if fpIsNan Config.nanBits then Config.nanBits else fpOf false 0x7FC00000

/-- The FP32 value nearest to a ratio; beyond the finite range an infinity. `neg` gives the sign, of a zero too. -/
def fpRatio (neg : Bool) (a b : Nat) : Word := fpOf neg (min (magBits 24 (-149) a b) fpInf)

/-- The FP32 value nearest to an exact number, ties to even; `neg0` is the sign of a zero. -/
def fpRoundSigned (d : Dyadic) (neg0 : Bool) : Word :=
  let neg := if d.n = 0 then neg0 else decide (d.n < 0)
  if 0 ≤ d.e then fpRatio neg (d.n.natAbs * 2 ^ d.e.toNat) 1 else fpRatio neg d.n.natAbs (2 ^ (-d.e).toNat)

def fpRound (d : Dyadic) : Word := fpRoundSigned d false

/-- A magnitude beyond the finite range becomes the largest finite value of its sign (03 R85, 04 R141, 06 R189). -/
def fpClamp (w : Word) : Word := if fpIsInf w then fpOf (fpSign w) fpMaxFinite else w

def fpNeg (w : Word) : Word := w ^^^ 0x80000000

/-- One FP32 addition (06 R187, R213). -/
def fpAdd (a b : Word) : Word :=
  if fpIsNan a ∨ fpIsNan b then fpNan
  else if fpIsInf a then (if fpIsInf b ∧ fpSign a ≠ fpSign b then fpNan else a)
  else if fpIsInf b then b
  else fpRoundSigned ((fpVal a).add (fpVal b)) (fpSign a && fpSign b)

def fpSub (a b : Word) : Word := fpAdd a (fpNeg b)

/-- One FP32 multiplication. -/
def fpMul (a b : Word) : Word :=
  let neg := fpSign a != fpSign b
  if fpIsNan a ∨ fpIsNan b then fpNan
  else if fpIsInf a ∨ fpIsInf b then
    if fpMag a = 0 ∨ fpMag b = 0 then fpNan else fpOf neg fpInf
  else fpRoundSigned ((fpVal a).mul (fpVal b)) neg

/-- a < b, infinities included; a NaN compares with nothing. -/
def fpLt (a b : Word) : Bool :=
  if fpIsNan a || fpIsNan b then false
  else
    let key := fun (w : Word) => if fpSign w then -(fpMag w : Int) else fpMag w
    decide (key a < key b)

/-! ### FP64 -/

/-- The bits of the FP64 value nearest to an exact number (04 R130). -/
def fp64Bits (d : Dyadic) : Nat :=
  let m := if 0 ≤ d.e then magBits 53 (-1074) (d.n.natAbs * 2 ^ d.e.toNat) 1 else magBits 53 (-1074) d.n.natAbs (2 ^ (-d.e).toNat)
  min m 0x7FF0000000000000 + 2 ^ 63 * ofBool (decide (d.n < 0))

/-- The exact value of finite FP64 bits. -/
def fp64Val (b : Nat) : Dyadic :=
  let m := b % 2 ^ 63
  let x := m / 2 ^ 52
  let n : Nat := if x = 0 then m else m % 2 ^ 52 + 2 ^ 52
  ⟨if bitOf b 63 = 1 then -(n : Int) else n, (max x 1 : Nat) - 1075⟩

/-- FP64 bits that are finite. -/
def fp64Finite (b : Nat) : Bool := decide (b % 2 ^ 63 < 0x7FF0000000000000)

/-- The FP64 value of a ratio, as an exact number. -/
def fp64Ratio (a b : Nat) : Dyadic := fp64Val (magBits 53 (-1074) a b)

/-- One FP64 rounding. -/
def fp64Round (d : Dyadic) : Dyadic := fp64Val (fp64Bits d)

/-! ### Integer square root -/

/-- floor(sqrt n), bit by bit: `k` bits are still to be decided. -/
def isqrtLoop : Nat → Nat → Nat → Nat
  | 0, _, r => r
  | k + 1, n, r => if (r + 2 ^ k) * (r + 2 ^ k) ≤ n then isqrtLoop k n (r + 2 ^ k) else isqrtLoop k n r

def isqrt (n : Nat) : Nat := isqrtLoop (n.log2 / 2 + 1) n 0

/-- The ratio, as numerator over a power of two, that lies within 2^-200 of sqrt(a / b). -/
def sqrtRatio (a b : Nat) : Nat × Nat := (isqrt (a * 2 ^ 400 / b), 2 ^ 200)

/-- The FP64 square root of a ratio, as an exact number. -/
def fp64Sqrt (a b : Nat) : Dyadic := let r := sqrtRatio a b; fp64Ratio r.1 r.2

/-! ### Fixed point: values count units of 2^-200 (log 12) -/

def fixBits : Nat := 200
def fixOne : Nat := 2 ^ fixBits

/-- Sum of z^(2k+1) / (2k+1) from a term on: the series of atanh, or with alternating signs of atan. -/
def atanhLoop (alt : Bool) (z2 : Nat) : Nat → Nat → Int → Int
  | 0, _, _ => 0
  | k + 1, i, t => t / (2 * i + 1 : Nat) +
      atanhLoop alt z2 k (i + 1) (if alt then -(t * z2 / fixOne) else t * z2 / fixOne)

/-- atanh(a / b), |a / b| at most 1/3. -/
def fixAtanh (a b : Nat) : Int :=
  let z := a * fixOne / b
  atanhLoop false (z * z / fixOne) 70 0 z

def fixLn2 : Int := 2 * fixAtanh 1 3

/-- ln(a / b) for positive a and b. -/
def fixLn (a b : Nat) : Int :=
  let k := log2Ratio a b
  let a' := if 0 ≤ k then a else a * 2 ^ (-k).toNat
  let b' := if 0 ≤ k then b * 2 ^ k.toNat else b
  k * fixLn2 + 2 * fixAtanh (a' - b') (a' + b')

/-- Terms of exp from the one in hand on. -/
def expLoop (x : Int) : Nat → Nat → Int → Int
  | 0, _, _ => 0
  | k + 1, i, t => t + expLoop x k (i + 1) (t * x / (fixOne * (i + 1) : Nat))

/-- exp of a fixed-point number from -16 to 16. -/
def fixExp (x : Int) : Int := expLoop x 160 0 fixOne

/-- atan(1 / n). -/
def fixAtanInv (n : Nat) : Int :=
  let z := fixOne / n
  atanhLoop true (z * z / fixOne) 100 0 z

/-- pi. -/
def fixPi : Int := 16 * fixAtanInv 5 - 4 * fixAtanInv 239

/-- Terms of sine or cosine. -/
def trigLoop (x2 : Int) : Nat → Nat → Int → Int
  | 0, _, _ => 0
  | k + 1, i, t => t + trigLoop x2 k (i + 2) (-(t * x2 / fixOne / ((i + 1) * (i + 2) : Nat)))

def fixCos (x : Int) : Int := trigLoop (x * x / fixOne) 40 0 fixOne
def fixSin (x : Int) : Int := trigLoop (x * x / fixOne) 40 1 x

/-- cos(2 pi a / b): the quadrant is taken off first. -/
def fixCosTurn (a b : Nat) : Int :=
  let q := 4 * (a % b) / b
  let x := 2 * fixPi * (4 * (a % b) - q * b : Nat) / (4 * b : Nat)
  match q with
  | 0 => fixCos x
  | 1 => -fixSin x
  | 2 => -fixCos x
  | _ => fixSin x

/-- The FP32 value nearest to a fixed-point number. -/
def fpFix (x : Int) : Word := fpRound ⟨x, -200⟩

/-! ### The functions of random words: U = (r + 0.5) / 2^32 -/

/-- Numerator of U over 2^33. -/
def uNum (r : Nat) : Nat := 2 * r + 1

/-- L(r): the FP32 value nearest to ln(U / (1 - U)) (03 R85). -/
def logit (r : Nat) : Word := fpFix (fixLn (uNum r) (2 ^ 33 - uNum r))

/-- G(r): the FP32 value nearest to -ln(-ln U) (03 R86). -/
def gumbel (r : Nat) : Word := fpFix (-fixLn (-(fixLn (uNum r) (2 ^ 33))).toNat fixOne)

/-- The FP32 value nearest to ln U (04 R141). -/
def lnU (r : Nat) : Word := fpFix (fixLn (uNum r) (2 ^ 33))

end Sys2Proof.Machine
end

