-- ==== Sys2Proof/Machine/Formats.lean ====
section
/-!
DEFINITION. The narrow formats: groups of 32 elements behind a scale byte, and the conversion of exact values to them
(02 R62, R63, 05 R152 to R155, R159, R160).
-/

namespace Sys2Proof.Machine

/-- A format of the MAC operands (R152). -/
def isNarrow (f : Nat) : Bool := decide (1 ≤ f ∧ f ≤ 6)

/-- Bits of an element. -/
def fmtBits (f : Nat) : Nat :=
  match f with
  | 1 => 4
  | 2 => 4
  | 3 => 2
  | 4 => 2
  | _ => 8

/-- Bytes of a group: the scale byte and 32 elements (R62). -/
def groupBytes (f : Nat) : Nat := 1 + 4 * fmtBits f

/-- Bytes of `n` elements, in groups. -/
def narrowBytes (f n : Nat) : Nat := (n + 31) / 32 * groupBytes f

/-- The offset f of R155: element integers count units of 2^f. -/
def fmtOffset (f : Nat) : Int :=
  match f with
  | 2 => -1
  | 6 => -9
  | _ => 0

/-- Magnitudes of MXFP4 in halves. -/
def fp4Mag (c : Nat) : Nat := [0, 1, 2, 3, 4, 6, 8, 12].getD (c % 8) 0

/-- Magnitude of an FP8 E4M3 element in units of 2^-9. -/
def fp8Mag (c : Nat) : Nat :=
  let x := c / 8 % 16
  let m := c % 8
  if x = 0 then m else (8 + m) * 2 ^ (x - 1)

/-- The integer of an element code (R152, R155). -/
def elemInt (f c : Nat) : Int :=
  match f with
  | 2 => if c / 8 % 2 = 1 then -(fp4Mag c : Int) else fp4Mag c
  | 6 => if c / 128 % 2 = 1 then -(fp8Mag c : Int) else fp8Mag c
  | _ => signed (fmtBits f) c

/-- Invalid element codes (R154). -/
def elemBad (f c : Nat) : Bool :=
  match f with
  | 4 => c % 4 == 2
  | 6 => c % 128 == 127
  | _ => false

/-- vmax as an integer in units of 2^f. -/
def fmtMax (f : Nat) : Nat :=
  match f with
  | 1 => 7
  | 2 => 12
  | 3 => 1
  | 4 => 1
  | 5 => 127
  | _ => 448 * 512

/-- A decoded group: its scale byte, its 32 integers, and whether it holds an invalid encoding. -/
structure Group where
  e : Nat
  xs : List Int
  bad : Bool
deriving DecidableEq, Repr, Inhabited

/-- Element code `i` of packed elements (R62: from the least significant bits upward). -/
def elemCode (f : Nat) (bs : List Byte) (i : Nat) : Nat :=
  bitsOf (u8 bs (i * fmtBits f / 8)) (i * fmtBits f % 8) (fmtBits f)

/-- One stored group. -/
def decodeGroup (f : Nat) (bs : List Byte) : Group :=
  let e := u8 bs 0
  let cs := (List.range 32).map (elemCode f (bs.drop 1))
  { e := e, xs := cs.map (elemInt f), bad := e == 0xFF || cs.any (elemBad f) }

/-- The groups of a stored vector. -/
def decodeGroups (f : Nat) (bs : List Byte) : List Group := (chunks (groupBytes f) bs).map (decodeGroup f)

/-- The exponent of a group's integers. -/
def groupExp (f : Nat) (g : Group) : Int := (g.e : Int) - 127 + fmtOffset f

/-- The group dot product G x 2^g (R155). -/
def groupDot (fa fb : Nat) (a b : Group) : Dyadic :=
  ⟨(List.zipWith (fun x y => x * y) a.xs b.xs).sum, groupExp fa a + groupExp fb b⟩

/-! ### Conversion (R159, R160) -/

/-- A value to convert. Infinities and NaNs arise in GN5 mode only (06 R213). -/
inductive Src
  | num (d : Dyadic)
  | inf (neg : Bool)
  | nan
deriving DecidableEq, Repr, Inhabited

def Src.ofFp (w : Word) : Src := if fpIsNan w then .nan else if fpIsInf w then .inf (fpSign w) else .num (fpVal w)

/-- Values of a format in ascending order with their codes: neither MXINT4 -8, INT2 -2 nor -0 (R153). -/
def fmtValues (f : Nat) : List (Int × Nat) :=
  let half : Nat := 2 ^ (fmtBits f - 1)
  match f with
  | 4 => [(-1, 3), (0, 0), (1, 1)]
  | 2 => ((List.range 7).map (fun k => (-(fp4Mag (7 - k) : Int), 15 - k))) ++ (List.range 8).map (fun c => ((fp4Mag c : Int), c))
  | 6 => ((List.range 126).map (fun k => (-(fp8Mag (126 - k) : Int), 254 - k))) ++
      (List.range 127).map (fun c => ((fp8Mag c : Int), c))
  | _ => ((List.range (half - 1)).map (fun k => (-((half - 1 - k : Nat) : Int), half + 1 + k))) ++
      (List.range half).map (fun (c : Nat) => ((c : Int), c))

/-- The greatest entry at most a / b, and the next one. -/
def bracket (a : Int) (b : Nat) : List (Int × Nat) → (Int × Nat) × (Int × Nat)
  | [] => ((0, 0), (0, 0))
  | [x] => (x, x)
  | x :: y :: rest => if (b : Int) * y.1 ≤ a then bracket a b (y :: rest) else (x, y)

/-- The code of a / b, in units of 2^f: exact, to the nearer neighbour with ties to the even code, or by the word `r`. -/
def roundCode (f : Nat) (a : Int) (b : Nat) (r : Option Nat) : Nat :=
  let q := bracket a b (fmtValues f)
  let lo := q.1
  let hi := q.2
  let up := a - b * lo.1
  let gap := b * (hi.1 - lo.1)
  if up = 0 then lo.2
  else match r with
  | some w => if (w : Int) < up * 2 ^ 32 / gap then hi.2 else lo.2
  | none => if 2 * up < gap then lo.2 else if gap < 2 * up then hi.2 else if lo.2 % 2 = 0 then lo.2 else hi.2

/-- The largest magnitude is at most v x 2^(e - 127). -/
def fitsScale (m : Dyadic) (v : Dyadic) (e : Nat) : Bool := m.le ⟨v.n, v.e + e - 127⟩

/-- The smallest scale from 0 to 254 that covers the magnitude; 254 beyond all of them (02 R71, 05 R159). -/
def scaleFor (m v : Dyadic) : Nat := if m.n = 0 then 0 else ((List.range 255).find? (fitsScale m v)).getD 254

/-- One element at scale e: its code, and whether it saturated. -/
def convertElem (f e : Nat) (r : Option Nat) (x : Src) : Nat × Bool :=
  let top := fun (neg : Bool) => (((fmtValues f).find? (fun v => v.1 == (if neg then -(fmtMax f : Int) else fmtMax f))).map (·.2)).getD 0
  match x with
  | .nan => (0, true)
  | .inf neg => (top neg, true)
  | .num d =>
    let k := d.e - ((e : Int) - 127) - fmtOffset f
    let a := if 0 ≤ k then d.n * (2 ^ k.toNat : Nat) else d.n
    let b := if 0 ≤ k then 1 else 2 ^ (-k).toNat
    if (b * fmtMax f : Nat) < a.natAbs then (top (decide (a < 0)), true) else (roundCode f a b r, false)

/-- The largest magnitude of a group: of an infinity, beyond every scale. -/
def srcMag (x : Src) : Dyadic :=
  match x with
  | .num d => d.abs
  | .inf _ => ⟨1, 4096⟩
  | .nan => .zero

/-- Packs element codes from the least significant bits of each byte upward. -/
def packCodes (f : Nat) (cs : List Nat) : List Byte :=
  leBytes (4 * fmtBits f) (cs.foldr (fun c acc => c % 2 ^ fmtBits f + 2 ^ fmtBits f * acc) 0)

/-- A group of at most 32 values: its stored bytes, and how many elements saturated. `word i` is the rounding word of the
group's element `i`, none for RNE. -/
def convertGroup (f : Nat) (word : Nat → Option Nat) (xs : List Src) : List Byte × Nat :=
  let m := xs.foldl (fun a x => a.maxOf (srcMag x)) .zero
  let e := scaleFor m ⟨fmtMax f, fmtOffset f⟩
  let cs := (List.range xs.length).zipWith (fun i x => convertElem f e (word i) x) xs
  (BitVec.ofNat 8 e :: packCodes f (cs.map (·.1)), cs.countP (·.2))

/-- A stored vector of values, and how many saturated. -/
def convertVector (f : Nat) (word : Nat → Option Nat) (xs : List Src) : List Byte × Nat :=
  (List.zipWith (fun k g => convertGroup f (fun i => word (32 * k + i)) g) (List.range ((xs.length + 31) / 32)) (chunks 32 xs)).foldl
    (fun acc g => (acc.1 ++ g.1, acc.2 + g.2)) ([], 0)

end Sys2Proof.Machine
end

