-- ==== Sys2Proof/Machine/Accumulate.lean ====
section
/-!
DEFINITION. Accumulators: ACC48 with replay and saturation, FP32 in its three orders, the output stage (06 R179 to R192, R196,
R200, R206, R207, R212, R213).
-/

namespace Sys2Proof.Machine

/-! ### ACC48 (R180 to R185) -/

/-- An accumulated tile: its final exponent, its replays and, for each element, whether it saturated and its integer. -/
structure Acc where
  exp : Int
  replays : Nat
  sats : List Bool
  vals : List Int
deriving DecidableEq, Repr, Inhabited

/-- An addend at exponent t: exact, or rounded to the nearest integer, ties to even (R182). -/
def alignTo (t : Int) (d : Dyadic) : Int :=
  if t ≤ d.e then d.scaled t else roundDivInt d.n (2 ^ (t - d.e).toNat)

/-- Inside the 48-bit range. -/
def in48 (v : Int) : Bool := decide (-(2 ^ 47 : Int) ≤ v ∧ v < 2 ^ 47)

/-- Some addend or some true value lies outside the range (R183). -/
def overflows (t : Int) (elems : List (List Dyadic)) : Bool :=
  elems.any (fun as => as.any (fun d => !in48 (alignTo t d)) || !in48 ((as.map (alignTo t)).sum))

/-- Elements saturated: ACC_SATURATED counts each (R185). -/
def Acc.saturated (a : Acc) : Nat := a.sats.countP id

/-- The limits of R185. -/
def saturate48 (v : Int) : Int := if v < -(2 ^ 47 : Int) then -(2 ^ 47 : Int) else if 2 ^ 47 ≤ v then 2 ^ 47 - 1 else v

/-- The values of a tile at exponent t. -/
def sumsAt (t : Int) (elems : List (List Dyadic)) : List Int := elems.map (fun as => (as.map (alignTo t)).sum)

/-- A tile of elements, each a list of addends, from exponent t0: replays at + 8, + 16 and + 24, then saturation. -/
def acc48 (t0 : Int) (elems : List (List Dyadic)) : Acc :=
  match [0, 1, 2, 3].find? (fun r => !overflows (t0 + 8 * (r : Nat)) elems) with
  | some r => { exp := t0 + 8 * (r : Nat), replays := r, sats := elems.map (fun _ => false), vals := sumsAt (t0 + 8 * (r : Nat)) elems }
  | none =>
    let vs := sumsAt (t0 + 24) elems
    { exp := t0 + 24, replays := 3, sats := vs.map (fun v => !in48 v), vals := vs.map saturate48 }

/-- The smallest exponent of a list. -/
def minExp (es : List Int) : Int :=
  match es with
  | [] => 0
  | e :: rest => rest.foldl min e

/-! ### FP32 (R187 to R189, R192, R212, R213) -/

/-- An FP32 value and whether it has saturated on the way. -/
abbrev FpAcc := Word × Bool

/-- Saturates a value beyond the finite range (R189), except in GN5 mode (R213). -/
def fpSettle (gn5 : Bool) (w : Word) (was : Bool) : FpAcc :=
  if !gn5 && fpIsInf w then (fpClamp w, true) else (w, was)

def fpPlus (gn5 : Bool) (a b : FpAcc) : FpAcc := fpSettle gn5 (fpAdd a.1 b.1) (a.2 || b.2)

/-- A group product rounded to FP32 (R187). -/
def fpLeaf (gn5 : Bool) (d : Dyadic) : FpAcc := fpSettle gn5 (fpRound d) false

/-- One level of a pairwise tree; a value without a partner passes unchanged (R187, R192). -/
def pairUp (gn5 : Bool) : List FpAcc → List FpAcc
  | a :: b :: rest => fpPlus gn5 a b :: pairUp gn5 rest
  | l => l

/-- A pairwise tree of at most 2^n values. -/
def fpTree (gn5 : Bool) : Nat → List FpAcc → FpAcc
  | 0, l => l.headD (0, false)
  | n + 1, l => fpTree gn5 n (pairUp gn5 l)

/-- The leaf sums of an element: trees over `S` group products, padding +0 (R187). -/
def leafSums (sBlocks : Nat) (ps : List Dyadic) : List FpAcc :=
  (chunks sBlocks (ps.map (fpLeaf false))).map (fun l =>
    fpTree false 6 (l ++ List.replicate (sBlocks - l.length) (0, false)))

/-- Sequential order (R188). -/
def fpSequential (sBlocks : Nat) (pre : Word) (ps : List Dyadic) : FpAcc :=
  (leafSums sBlocks ps).foldl (fpPlus false) (pre, false)

/-- Canonical-tree order with run length L (R192). -/
def fpCanonical (sBlocks runLen : Nat) (pre : Option Word) (ps : List Dyadic) : FpAcc :=
  let runs := (chunks runLen ps).map (fun r =>
    match leafSums sBlocks r with
    | [] => (0, false)
    | a :: rest => rest.foldl (fpPlus false) a)
  let root := fpTree false 20 runs
  match pre with
  | some w => fpPlus false (w, false) root
  | none => root

/-- GN5 compatibility mode: every group product is added on its own (R212). -/
def fpGn5 (pre : Word) (ps : List Dyadic) : FpAcc := (ps.map (fpLeaf true)).foldl (fpPlus true) (pre, false)

/-- L, the blocks of a run (R190). -/
def runLength (tileN : Nat) : Nat :=
  match tileN with
  | 64 => 32
  | 128 => 64
  | _ => 128

/-! ### The output stage (R206, R207) -/

/-- OUT_SCALE: 0 means 1.0. -/
def scaleWord (w : Word) : Word := if w = 0 then 0x3F800000 else w

/-- The activation of exact values: 1 ReLU, 2 the interval from -8 to +8 (02 R65, R206). -/
def actExact (act : Nat) (d : Dyadic) : Dyadic :=
  match act with
  | 1 => if d.n < 0 then .zero else d
  | 2 => if Dyadic.lt ⟨8, 0⟩ d then ⟨8, 0⟩ else if Dyadic.lt d ⟨-8, 0⟩ then ⟨-8, 0⟩ else d
  | _ => d

/-- The activation of FP32 values; a NaN of GN5 mode passes unchanged. -/
def actFp (act : Nat) (w : Word) : Word :=
  match act with
  | 1 => if fpLt w 0 then 0 else w
  | 2 => if fpLt 0x41000000 w then 0x41000000 else if fpLt w 0xC1000000 then 0xC1000000 else w
  | _ => w

/-- Steps 1 to 3 of R207 for one element: scaling, the late bias, the activation; saturation as R189. -/
def outputStage (gn5 : Bool) (exp : Int) (act : Nat) (scale : Word) (late : Option Word) (x : Elem) : FpAcc :=
  let v := match x with
    | .acc a => fpRoundSigned (Dyadic.mul ⟨a, exp⟩ (fpVal (scaleWord scale))) (fpSign scale)
    | .fp w => fpMul w (scaleWord scale)
  let a := fpSettle gn5 v false
  let b := match late with
    | some w => fpPlus gn5 a (w, false)
    | none => a
  (actFp act b.1, b.2)

end Sys2Proof.Machine
end

