-- ==== Sys2Proof/Machine/Coding.lean ====
section
/-!
DEFINITION. Coupling scaling: FP32 source values to signed codes with a shared scale per block of 32, and the scale error
(02 R69 to R73).
-/

namespace Sys2Proof.Machine

/-- The exact value of a code (R69). -/
def Coded.val (c : Coded) : Dyadic := ⟨c.code, (c.exp : Int) - 127⟩

/-- cmax: 7, or 127 with CODE8; biases and evidence fields take 127 (R69). -/
def codeMax (code8 : Bool) : Nat := if code8 then 127 else 7

/-- One value coded at scale e: rounded half to even, limited to -cmax to +cmax (R71). -/
def codeAt (cmax e : Nat) (d : Dyadic) : Coded :=
  let c := if 0 ≤ d.e - ((e : Int) - 127) then d.scaled ((e : Int) - 127)
    else roundDivInt d.n (2 ^ ((e : Int) - 127 - d.e).toNat)
  ⟨max (-(cmax : Int)) (min cmax c), e⟩

/-- A block of at most 32 values (R71). -/
def codeBlock (cmax : Nat) (ds : List Dyadic) : List Coded :=
  let e := scaleFor (ds.foldl (fun a d => a.maxOf d.abs) .zero) ⟨cmax, 0⟩
  ds.map (codeAt cmax e)

/-- Consecutive blocks of 32 (R70). -/
def codeAll (cmax : Nat) (ds : List Dyadic) : List Coded := (chunks 32 ds).flatMap (codeBlock cmax)

/-- What MODEL_LOAD reports of one kind of value: MAX_ABS, REL and ZEROS (R73). -/
structure ScaleError where
  maxAbs : Word
  rel : Word
  zeros : Nat
deriving DecidableEq, Repr, Inhabited

/-- A sum of squares in FP64, term by term (R73). -/
def fp64SumSq (ds : List Dyadic) : Dyadic :=
  ds.foldl (fun acc d => fp64Round (acc.add (fp64Round ((fp64Round d).mul (fp64Round d))))) .zero

/-- The FP64 square root of a quotient of sums, rounded to FP32; 0 for a divisor 0 (R73, 05 R173). -/
def relOf (num den : Dyadic) : Word :=
  if den.n = 0 ∨ num.n = 0 then 0
  else
    let t := min num.e den.e
    let q := fp64Ratio (num.scaled t).toNat (den.scaled t).toNat
    fpRound (if 0 ≤ q.e then fp64Sqrt (q.n.toNat * 2 ^ q.e.toNat) 1 else fp64Sqrt q.n.toNat (2 ^ (-q.e).toNat))

/-- The scale error of source values and their codes (R73). -/
def scaleError (ds : List Dyadic) (cs : List Coded) : ScaleError :=
  let errs := List.zipWith (fun d c => c.val.sub d) ds cs
  { maxAbs := fpRound (errs.foldl (fun a d => a.maxOf d.abs) .zero)
    rel := relOf (fp64SumSq errs) (fp64SumSq ds)
    zeros := ((List.zipWith (fun (d : Dyadic) (c : Coded) => d.n != 0 && c.code == 0) ds cs).filter id).length }

/-- The 16 bytes of the report (11 R344). -/
def ScaleError.bytes (e : ScaleError) : List Byte := leBytes 4 e.maxAbs.toNat ++ leBytes 4 e.rel.toNat ++ leBytes 8 e.zeros

end Sys2Proof.Machine
end

