-- ==== Sys2Proof/Machine/Random.lean ====
section
/-!
DEFINITION. Seeded randomness: the derivation function, generator instances, the words expanded from them, random fills
(07 R219 to R232).
-/

namespace Sys2Proof.Machine

/-! ### Derivation (R224, R227) -/

def mix64 (z : DWord) : DWord :=
  let z := (z ^^^ (z >>> 30)) * 0xBF58476D1CE4E5B9
  let z := (z ^^^ (z >>> 27)) * 0x94D049BB133111EB
  z ^^^ (z >>> 31)

/-- H(k, d, a, b). -/
def derive (k : DWord) (d : Nat) (a b : DWord) : DWord :=
  mix64 (mix64 (mix64 (k + BitVec.ofNat 64 d * 0x9E3779B97F4A7C15) + a) + b)

/-- low32 of H. -/
def derive32 (k : DWord) (d a b : Nat) : Word := (derive k d (BitVec.ofNat 64 a) (BitVec.ofNat 64 b)).setWidth 32

/-- Update word k of a variable under a pass key (R90, R227). -/
def updateWord (lo hi : DWord) (var k : Nat) : Word :=
  (derive lo 2 hi (BitVec.ofNat 64 (16 * (var % 4096) + k))).setWidth 32

/-- Exchange word of event m and pair k (R141, R227). -/
def exchangeWord (seed : DWord) (m k : Nat) : Word := derive32 seed 3 m k

/-- Rounding word of an element in row r and column c of a tensor (R160, R227, R228). -/
def roundingWord (seed : DWord) (tensorId r c : Nat) : Word := derive32 seed 4 (2 ^ 32 * tensorId + c) r

/-- Fill word j of element e (R227, R228). -/
def fillWord (seed : DWord) (e j : Nat) : Word := derive32 seed 5 e j

/-! ### Generator instances (R220, R221, R225) -/

def ringSize : Nat := 1279

/-- Instance (s, rep) seeded from S (R225). -/
def seedGen (seed : DWord) (s rep : Nat) : Gen :=
  let ring := (List.range ringSize).map (fun w => derive32 seed 1 (64 * s + rep) w)
  { stream := s, replica := rep, passes := 0, pos := 0, ring := ring.modify 0 (fun w => w ||| 1) }

/-- One output: x(n) = x(n - 1279) + x(n - 418) replaces the oldest word (R220). -/
def Gen.next (g : Gen) : Word × Gen :=
  let x := g.ring.getD g.pos 0 + g.ring.getD ((g.pos + ringSize - 418) % ringSize) 0
  (x, { g with ring := g.ring.set g.pos x, pos := (g.pos + 1) % ringSize })

/-- The four outputs of a pass key, and the instance after (R91, R227). -/
def Gen.pass (g : Gen) : (DWord × DWord) × Gen :=
  let a := g.next
  let b := a.2.next
  let c := b.2.next
  let d := c.2.next
  ((b.1 ++ a.1, d.1 ++ c.1), { d.2 with passes := g.passes + 1 })

/-- The stored record (R221). -/
def Gen.bytes (g : Gen) : List Byte :=
  leBytes 8 g.passes ++ leBytes 2 g.stream ++ leBytes 1 g.replica ++ zeros 1 ++ leBytes 2 g.pos ++ zeros 2 ++
  (List.range ringSize).flatMap (fun w => leBytes 4 (g.ring.getD w 0).toNat) ++ zeros 52

/-- Bytes of a record. -/
def genSize : Nat := 5184

/-- A record read back. -/
def Gen.ofBytes (bs : List Byte) : Gen :=
  { stream := u16 bs 8, replica := u8 bs 10, passes := u64 bs 0, pos := u16 bs 12,
    ring := (chunks 4 (slice bs 16 5116)).map (fun b => w32 b 0) }

/-! ### Random fills (R231, R232) -/

/-- UNIFORM_FP32: nearest to U_0. -/
def uniformFp (w0 : Word) : Word := fpRatio false (uNum w0.toNat) (2 ^ 33)

/-- NORMAL_BM: nearest to sqrt(-2 ln U_0) cos(2 pi U_1). -/
def normalBm (w0 w1 : Word) : Word :=
  let r := isqrt ((-2 * fixLn (uNum w0.toNat) (2 ^ 33)).toNat * fixOne)
  fpFix ((r : Int) * fixCosTurn (uNum w1.toNat) (2 ^ 33) / fixOne)

/-- The FP64 value nearest to a fixed-point number that is not negative. -/
def fp64Fix (x : Int) : Dyadic := fp64Ratio x.toNat fixOne

/-- A positive exact number as a fixed-point number. -/
def toFix (d : Dyadic) : Int := if 0 ≤ d.e + 200 then d.n * (2 ^ (d.e + 200).toNat : Nat) else d.n / (2 ^ (-(d.e + 200)).toNat : Nat)

/-- The quotient of two positive exact numbers in FP64. -/
def fp64Div (a b : Dyadic) : Dyadic :=
  let t := min a.e b.e
  fp64Ratio (a.scaled t).toNat (b.scaled t).toNat

/-- f(x) = exp(-x x / 2) in FP64 operations (R232; log 12). -/
def zigF (x : Dyadic) : Dyadic := fp64Fix (fixExp (-(toFix (fp64Round (x.mul x))) / 2))

/-- t[1] and v of R232. -/
def zigT1 : Dyadic := fp64Ratio 3442619855899 1000000000000
def zigV : Dyadic := fp64Ratio 991256303526217 100000000000000000

/-- t[i + 1] from t[i]. -/
def zigNext (t : Dyadic) : Dyadic :=
  let y := fp64Round ((fp64Div zigV t).add (zigF t))
  let l := fp64Round (fp64Fix (-fixLn (toFix y).toNat fixOne))
  let q := (toFix (fp64Round (l.mul ⟨2, 0⟩))).toNat
  fp64Sqrt q fixOne

/-- t[1] to t[n]. -/
def zigList : Nat → Dyadic → List Dyadic
  | 0, _ => []
  | n + 1, t => t :: zigList n (zigNext t)

/-- The table t[0] to t[128], in FP64. -/
def zigT : List Dyadic := fp64Div zigV (zigF zigT1) :: zigList 127 zigT1 ++ [.zero]

/-- t[i] and ft[i] rounded to FP32. -/
def zigTFp : List Word := zigT.map fpRound
def zigFFp : List Word := zigT.map (fun t => fpRound (zigF t))

/-- The FP32 value nearest to -ln(u(w)) / 1. -/
def negLnU (w : Word) : Word := fpNeg (lnU w.toNat)

/-- fp32(-ln(u(w)) / t): one rounding of the quotient of two FP32 values. -/
def fpQuot (a b : Word) : Word :=
  let x := fpVal a
  let y := fpVal b
  let t := min x.e y.e
  fpRatio (fpSign a != fpSign b) (x.scaled t).natAbs (y.scaled t).natAbs

/-- NORMAL_ZIG (R232): the loop of one element from fill word j on. -/
def zigLoop (t ft : List Word) (word : Nat → Word) : Nat → Nat → Word
  | 0, _ => 0
  | fuel + 1, j =>
    let w := (word j).toNat
    let i := w % 128
    let out := fun (x : Word) => if bitOf w 7 = 1 then fpNeg x else x
    let x := fpRound (Dyadic.mul ⟨(w / 256 : Nat), -24⟩ (fpVal (t.getD i 0)))
    if fpLt x (t.getD (i + 1) 0) then out x
    else if i = 0 then
      let a := fpQuot (negLnU (word (j + 1))) (t.getD 1 0)
      let b := negLnU (word (j + 2))
      if fpLt (fpMul a a) (fpAdd b b) then out (fpAdd (t.getD 1 0) a) else zigLoop t ft word fuel (j + 3)
    else
      let d := fpSub (ft.getD i 0) (ft.getD (i + 1) 0)
      let y := fpAdd (ft.getD (i + 1) 0) (fpRound (Dyadic.mul ⟨(uNum (word (j + 1)).toNat : Nat), -33⟩ (fpVal d)))
      let q := fpMul x x
      let fx := fpFix (fixExp (-(toFix (fpVal q)) / 2))
      if fpLt y fx then out x else zigLoop t ft word fuel (j + 2)

/-- Value of a random fill element: kind 1 UNIFORM32, 2 UNIFORM_FP32, 3 NORMAL_BM, 4 NORMAL_ZIG. -/
def fillElem (kind : Nat) (t ft : List Word) (seed : DWord) (e : Nat) : Word :=
  let w := fillWord seed e
  match kind with
  | 1 => w 0
  | 2 => uniformFp (w 0)
  | 3 => normalBm (w 0) (w 1)
  | _ => zigLoop t ft w 4096 0

end Sys2Proof.Machine
end

