-- ==== Sys2Proof/Machine/ModelShape.lean ====
section
/-!
DEFINITION. The shape of a model: its variables, lists, streams, blocks and the sizes that follow from its image alone
(02 R53 to R58, R93, R97, 08 R261, R268, R541).
-/

namespace Sys2Proof.Machine

def varAt (m : Model) (i : Nat) : Var := m.vars.getD i default

/-- A variable that runs update (R53). -/
def isLatent (m : Model) (i : Nat) : Bool := decide (i < m.vars.length) && !(varAt m i).clamped

def stateCount (m : Model) (i : Nat) : Nat := (varAt m i).k

/-- Indices of the variables that pass a test, ascending. -/
def varsWhere (m : Model) (p : Nat → Bool) : List Nat := (List.range m.vars.length).filter p

def latents (m : Model) : List Nat := varsWhere m (isLatent m)
def clampeds (m : Model) : List Nat := varsWhere m (fun i => !isLatent m i)

/-- The position of variable `i` in ascending variable and state order (R70). -/
def stateBase (m : Model) (i : Nat) : Nat := ((m.vars.take i).map (·.k)).sum

def biasAt (m : Model) (i s : Nat) : Coded := m.biases.getD (stateBase m i + s) default

/-- The variables of a range. -/
def inRange (first count i : Nat) : Bool := decide (first ≤ i ∧ i < first + count)

/-- The block that holds a variable (R77). -/
def blockOf (m : Model) (i : Nat) : Nat := (m.blocks.findIdx? (fun b => inRange b.first b.count i)).getD 0

def blockAt (m : Model) (b : Nat) : Block := m.blocks.getD b default

def blockVars (m : Model) (b : Nat) : List Nat := span (blockAt m b).first (blockAt m b).count

def blockLatents (m : Model) (b : Nat) : List Nat := (blockVars m b).filter (isLatent m)

/-- The pairs of a variable, in ascending order. -/
def pairsOf (m : Model) (i : Nat) : List Pair := m.pairs.filter (fun p => p.i == i || p.j == i)

/-- The other end of a pair. -/
def otherEnd (p : Pair) (i : Nat) : Nat := if p.i = i then p.j else p.i

/-- Entries of a latent variable's list: each of its pairs (R58); a clamped variable has none. -/
def entriesOf (m : Model) (i : Nat) : List Pair := if isLatent m i then pairsOf m i else []

/-- Variables of other blocks with a pair into the block (R93). -/
def imported (m : Model) (b : Nat) : List Nat :=
  let here := fun i => inRange (blockAt m b).first (blockAt m b).count i
  varsWhere m (fun i => !here i && (pairsOf m i).any (fun p => here (otherEnd p i)))

/-- The lists of a block: its latent variables, then the imported ones with their entries into the block (R93); the list of
an imported clamped variable is empty (R58). The order of the entries of one list is ascending by neighbour (log 18). -/
def blockLists (m : Model) (b : Nat) : List (List Pair) :=
  let here := fun i => inRange (blockAt m b).first (blockAt m b).count i
  (blockLatents m b).map (entriesOf m) ++
  (imported m b).map (fun i => (entriesOf m i).filter (fun p => here (otherEnd p i)))

/-- Lines of 16 plain entries: a new one before a fifth distinct scale byte (R93). `n` and `seen` are the line being filled. -/
def lineCount : List Nat → Nat → List Nat → Nat
  | [], n, _ => if n = 0 then 0 else 1
  | e :: rest, n, seen =>
    if n = 16 ∨ (seen.length = 4 ∧ !seen.contains e) then 1 + lineCount rest 1 [e]
    else lineCount rest (n + 1) (if seen.contains e then seen else e :: seen)

/-- Bytes of a dense factor's weights and of a neural factor's layers. -/
def neuralBytes (f : Neural) : Nat := (f.layers.map (fun l => l.data.length + 4 * l.bias.length)).sum

/-- The size of a block's model share (R541). -/
def shareSize (m : Model) (b : Nat) : Nat :=
  let lists := blockLists m b
  let plain := lists.flatMap (fun l => (l.filter (fun p => p.kind != 3)).map (fun p => p.w.exp))
  let tab := lists.flatMap (fun l => (l.filter (fun p => p.kind == 3)).map (·.table))
  let blk := blockAt m b
  let lo := stateBase m blk.first
  let hi := stateBase m (blk.first + blk.count)
  let here := fun i => inRange blk.first blk.count i
  let parts := [68 * lineCount plain 0 [], 8 * tab.length, 8 * lists.length,
    (tab.eraseDups.map (fun t => let c := m.tables.getD t default; 32 * (c.rows + c.cols))).sum,
    33 * ((hi + 31) / 32 - lo / 32),
    ((m.dense.filter (fun d => here d.aFirst)).map (fun d => d.data.length)).sum,
    ((m.neural.filter (fun f => here f.outFirst)).map neuralBytes).sum]
  (parts.map (fun n => roundUp n 64)).sum

/-! ### Streams (07 R219) -/

/-- The stream of a variable (R55). -/
def streamOf (i : Nat) : Nat := i / 4096

/-- Streams that hold a latent variable, ascending. -/
def streams (m : Model) : List Nat := (List.range ((m.vars.length + 4095) / 4096)).filter (fun t =>
  (latents m).any (fun i => streamOf i == t))

/-! ### Evidence fields (R65, R261) -/

/-- Latent variables that neural factors output to, ascending. -/
def fieldVars (m : Model) : List Nat :=
  varsWhere m (fun i => isLatent m i && m.neural.any (fun f => inRange f.outFirst f.outCount i))

/-- n_g, and F, the largest FEATURES. -/
def fieldCodes (m : Model) : Nat := ((fieldVars m).map (stateCount m)).sum
def featureWords (m : Model) : Nat := m.neural.foldl (fun a f => max a f.features) 0

/-- The evidence field of a state; none for a variable without one (R50). -/
def fieldAt (m : Model) (fields : List Coded) (i s : Nat) : Option Coded :=
  if (fieldVars m).contains i then
    some (fields.getD ((((fieldVars m).takeWhile (· != i)).map (stateCount m)).sum + s) default)
  else none

/-! ### Sizes (R268) -/

/-- Bytes of a context's share of a block at a replica count and table capacity (R268; log 18). -/
def contextShare (m : Model) (b replicas cap : Nat) : Nat :=
  let vs := blockVars m b
  let lat := blockLatents m b
  let half := (lat.length + 1) / 2
  let codes := ((lat.filter (fun i => (fieldVars m).contains i)).map (stateCount m)).sum
  (vs.length - lat.length + 1) / 2 + 33 * ((codes + 31) / 32) + replicas * half + 4 * (lat.map (stateCount m)).sum + half +
  genSize * (lat.map streamOf).eraseDups.length * replicas +
  (if b = 0 then 256 + featureWords m + 48 * replicas + 64 + 768 + 8 * cap + 4 else 0)

/-- The working size of a block (R80, R268). -/
def workingSize (m : Model) (b : Nat) : Nat := shareSize m b + 3 * contextShare m b m.maxReplicas 4096

/-- State-file slots of a block (R97). -/
def stateSlots (m : Model) (b : Nat) : Nat := ((blockAt m b).count + (imported m b).length) * m.maxReplicas

/-! ### Colours (R54, R61, R67) -/

def colourOf (m : Model) (i : Nat) : Nat := (varAt m i).colour

/-- A latent-latent pair within one colour. -/
def pairConflict (m : Model) (p : Pair) : Bool := isLatent m p.i && isLatent m p.j && colourOf m p.i == colourOf m p.j

def groupA (d : Dense) : List Nat := span d.aFirst d.aCount
def groupB (d : Dense) : List Nat := span d.bFirst d.bCount

/-- A dense factor whose groups break R61. -/
def denseConflict (m : Model) (d : Dense) : Bool :=
  let a := ((groupA d).filter (isLatent m)).map (colourOf m)
  let b := ((groupB d).filter (isLatent m)).map (colourOf m)
  (groupA d).any (fun i => !isLatent m i) || decide (1 < a.eraseDups.length) || decide (1 < b.eraseDups.length) ||
  a.any (fun c => b.contains c)

/-- Conflicting pairs and dense factors (R68). -/
def conflicts (m : Model) : Nat := m.pairs.countP (pairConflict m) + m.dense.countP (denseConflict m)

/-! ### Dense weights (R60, R62) -/

/-- Groups of a row of a dense factor. -/
def denseRow (d : Dense) (r : Nat) : List Group :=
  let n := narrowBytes d.fmt d.cols
  decodeGroups d.fmt (slice d.data (r * n) n)

/-- One weight. -/
def weightAt (f : Nat) (row : List Group) (c : Nat) : Dyadic :=
  let g := row.getD (c / 32) default
  ⟨g.xs.getD (c % 32) 0, groupExp f g⟩

end Sys2Proof.Machine
end

