-- ==== Sys2Proof/Machine/Energy.lean ====
section
/-!
DEFINITION. Energies, field vectors and neural factors: the terms of E(x), the local field of a variable with its dense
contributions, and the evidence fields that neural factors write (02 R50, R51, R56, R60, R64 to R66, 03 R84, R95, 04 R130,
05 R162 to R164, 06 R179 to R185).
-/

namespace Sys2Proof.Machine

/-! ### Values -/

/-- The value of every variable from those of the clamped and of the latent ones, each in ascending order (R262). -/
def mergeVals : List Var → List Nat → List Nat → List Nat
  | [], _, _ => []
  | v :: rest, e, l =>
    if v.clamped then e.headD 0 :: mergeVals rest (e.drop 1) l else l.headD 0 :: mergeVals rest e (l.drop 1)

/-- The values of the latent variables. -/
def latentVals (m : Model) (xs : List Nat) : List Nat := (latents m).map (fun i => xs.getD i 0)

/-! ### Terms (R50, R56) -/

/-- The factor of a pair's weight for the states of its ends, by kind. -/
def pairFactor (kind s t : Nat) : Int :=
  match kind with
  | 0 => (2 * (s : Int) - 1) * (2 * t - 1)
  | 1 => if s = t then 1 else 0
  | _ => (s : Int) * t

/-- J_ij(s, t). -/
def pairTerm (m : Model) (p : Pair) (s t : Nat) : Dyadic :=
  if p.kind = 3 then
    let c := m.tables.getD p.table default
    (c.entries.getD (s * c.cols + t) default).val
  else Dyadic.mul ⟨pairFactor p.kind s t, 0⟩ p.w.val

/-- The smallest exponent of a pair's entry (R181). -/
def pairExp (m : Model) (p : Pair) : Int :=
  if p.kind = 3 then minExp (((m.tables.getD p.table default).entries).map (fun c => (c.exp : Int) - 127))
  else (p.w.exp : Int) - 127

/-- g_i(s). -/
def fieldTerm (m : Model) (fields : List Coded) (i s : Nat) : Dyadic := ((fieldAt m fields i s).map Coded.val).getD .zero

/-- The row or column of a variable of a group in a state (R60). -/
def denseIndex (m : Model) (first i s : Nat) : Nat := (i - first) * stateCount m i + s

/-- The dense term of one factor: every pair of its groups. -/
def denseTerm (m : Model) (d : Dense) (xs : List Nat) : Dyadic :=
  (groupA d).foldl (fun a v =>
    let row := denseRow d (denseIndex m d.aFirst v (xs.getD v 0))
    (groupB d).foldl (fun a u => a.add (weightAt d.fmt row (denseIndex m d.bFirst u (xs.getD u 0)))) a) .zero

/-! ### Energy (R130, R131) -/

/-- An exact number in units of 2^-136. -/
def units (d : Dyadic) : Int := d.scaled (-136)

/-- E(x). -/
def energyOf (m : Model) (fields : List Coded) (xs : List Nat) : Int :=
  ((List.range m.vars.length).map (fun i =>
    units (biasAt m i (xs.getD i 0)).val + units (fieldTerm m fields i (xs.getD i 0)))).sum +
  (m.pairs.map (fun p => units (pairTerm m p (xs.getD p.i 0) (xs.getD p.j 0)))).sum +
  (m.dense.map (fun d => units (denseTerm m d xs))).sum

/-- The 48 bytes of an energy (R130), and its FP64 value. -/
def energyBytes (e : Int) : List Byte := leBytes 48 (twos 384 e)
def energyFp64 (e : Int) : Nat := fp64Bits ⟨e, -136⟩

/-! ### Dense passes (R162, R163, R181) -/

/-- The rows of the 128-row tile that holds a row. -/
def tileRows (d : Dense) (r : Nat) : List Nat := span (r / 128 * 128) (min 128 (d.rows - r / 128 * 128))

/-- T0 of a tile of the A side: the smallest g over its groups. -/
def denseExpA (d : Dense) (r : Nat) : Int :=
  minExp ((tileRows d r).flatMap (fun q => (denseRow d q).map (groupExp d.fmt)))

/-- T0 of a tile of the B side: 128 columns of every row. -/
def denseExpB (d : Dense) (c : Nat) : Int :=
  minExp ((List.range d.rows).flatMap (fun q => (((denseRow d q).drop (c / 128 * 4)).take 4).map (groupExp d.fmt)))

/-- The one-hot column of group B as groups of INT2 with scale byte 127. -/
def oneHotB (m : Model) (d : Dense) (xs : List Nat) : List Group :=
  let ones := (groupB d).map (fun u => denseIndex m d.bFirst u (xs.getD u 0))
  (List.range (d.cols / 32)).map (fun g => ⟨127, (span (32 * g) 32).map (fun c => if ones.contains c then 1 else 0), false⟩)

/-- The accumulated A-side tile for one column: the row's tile, row after row (log 41). -/
def densePassA (m : Model) (d : Dense) (xs : List Nat) (r : Nat) : Acc :=
  let x := oneHotB m d xs
  acc48 (denseExpA d r) ((tileRows d r).map (fun q => List.zipWith (groupDot d.fmt 3) (denseRow d q) x))

/-- The accumulated B-side tile for one column: 128 columns of W, single products (R163). -/
def densePassB (m : Model) (d : Dense) (xs : List Nat) (c : Nat) : Acc :=
  let rows := (groupA d).map (fun v => denseRow d (denseIndex m d.aFirst v (xs.getD v 0)))
  let lo := c / 128 * 128
  acc48 (denseExpB d c) ((span lo (min 128 (d.cols - lo))).map (fun q => rows.map (fun row => weightAt d.fmt row q)))

/-- A tile of a dense pass as the counters see it: the first row or column of the tile, its replays, its elements saturated. -/
structure PassTile where
  base : Nat
  replays : Nat
  saturated : Nat
deriving DecidableEq, Repr, Inhabited

/-- What a dense factor contributes to a variable: T0, the exponent and, state by state, the integer; whether an element of its
own has saturated; and the tiles it comes from. -/
structure Contrib where
  t0 : Int
  vals : List Dyadic
  sat : Bool
  tiles : List PassTile
deriving DecidableEq, Repr, Inhabited

/-- The contribution of a factor to variable i of one of its groups. A variable's rows can lie in two tiles. -/
def denseContrib (m : Model) (d : Dense) (xs : List Nat) (i : Nat) : Contrib :=
  let a := inRange d.aFirst d.aCount i
  let at_ := fun s => denseIndex m (if a then d.aFirst else d.bFirst) i s
  let pass := fun n => if a then densePassA m d xs n else densePassB m d xs n
  let ss := List.range (stateCount m i)
  let tiles := (ss.map (fun s => at_ s / 128 * 128)).eraseDups.map (fun n => (n, pass n))
  let tile := fun s => ((tiles.find? (fun t => t.1 == at_ s / 128 * 128)).map (·.2)).getD default
  { t0 := minExp (tiles.map (fun t => if a then denseExpA d t.1 else denseExpB d t.1))
    vals := ss.map (fun s => ⟨(tile s).vals.getD (at_ s % 128) 0, (tile s).exp⟩)
    sat := ss.any (fun s => (tile s).sats.getD (at_ s % 128) false)
    tiles := tiles.map (fun t => ⟨t.1, t.2.replays, t.2.saturated⟩) }

/-- A variable stands in one of the groups of a dense factor. -/
def inDense (d : Dense) (i : Nat) : Bool := inRange d.aFirst d.aCount i || inRange d.bFirst d.bCount i

/-- The dense factors with a variable in one of their groups. -/
def denseOf (m : Model) (i : Nat) : List Dense := m.dense.filter (fun d => inDense d i)

/-- Their indices in the model. -/
def denseIndices (m : Model) (i : Nat) : List Nat :=
  (List.range m.dense.length).filter (fun f => inDense (m.dense.getD f default) i)

/-- Contributions of every dense factor of a variable. -/
def contribs (m : Model) (xs : List Nat) (i : Nat) : List Contrib := (denseOf m i).map (fun d => denseContrib m d xs i)

/-! ### Field vectors (R51, R84, R95, R181) -/

/-- Addends of u_i(s). -/
def fieldAddends (m : Model) (fields : List Coded) (xs : List Nat) (cs : List Contrib) (i s : Nat) : List Dyadic :=
  (biasAt m i s).val :: ((fieldAt m fields i s).map Coded.val).toList ++
  (pairsOf m i).map (fun p => if p.i = i then pairTerm m p s (xs.getD p.j 0) else pairTerm m p (xs.getD p.i 0) s) ++
  cs.map (fun c => c.vals.getD s .zero)

/-- T0 of a variable's field vector (R181; log 42). -/
def fieldExp (m : Model) (fields : List Coded) (cs : List Contrib) (i : Nat) : Int :=
  minExp ((List.range (stateCount m i)).flatMap (fun s =>
    (((biasAt m i s).exp : Int) - 127) :: ((fieldAt m fields i s).map (fun c => (c.exp : Int) - 127)).toList) ++
    (pairsOf m i).map (pairExp m) ++ cs.map (·.t0))

/-- The field vector of a variable over the values `xs`, with its own replays and saturated elements. -/
def fieldVector (m : Model) (fields : List Coded) (xs : List Nat) (cs : List Contrib) (i : Nat) : Acc :=
  acc48 (fieldExp m fields cs i) ((List.range (stateCount m i)).map (fieldAddends m fields xs cs i))

/-- A field vector was replayed, or a tile of a dense pass that it takes up; and an element of its own has saturated, in either
(R185). -/
def fieldReplayed (a : Acc) (cs : List Contrib) : Bool := a.replays != 0 || cs.any (fun c => c.tiles.any (fun t => t.replays != 0))
def fieldSaturated (a : Acc) (cs : List Contrib) : Bool := a.saturated != 0 || cs.any (·.sat)

/-- Products of the dense passes that a variable's field takes: the columns or rows of the other group for each state (R178). -/
def densePairs (m : Model) (i : Nat) : Nat :=
  ((denseOf m i).map (fun d => stateCount m i *
    (if inRange d.aFirst d.aCount i then d.bCount * stateCount m d.bFirst else d.aCount * stateCount m d.aFirst))).sum

/-! ### Neural factors (R64 to R66, R164) -/

/-- A column of a layer: INT8 groups, stored or formed. -/
abbrev Column := List Group

/-- The input vector: one-hot values of the clamped inputs, then the feature words, as INT8 with scale byte 127 (log 43). -/
def neuralInput (m : Model) (f : Neural) (xs : List Nat) (features : List Byte) : Column :=
  let hot := (span f.inFirst f.inCount).flatMap (fun i =>
    (List.range (stateCount m i)).map (fun s => if xs.getD i 0 = s then (1 : Int) else 0))
  let fs := (features.take f.features).map (fun b => b.toInt)
  (chunks 32 (hot ++ fs)).map (fun g => ⟨127, g ++ List.replicate (32 - g.length) 0, false⟩)

/-- Row r of a layer's weights. -/
def layerRow (l : Layer) (r : Nat) : List Group :=
  let n := narrowBytes l.fmt l.inWidth
  decodeGroups l.fmt (slice l.data (r * n) n)

/-- One 128-row tile of a layer: exact values, replays and elements saturated; the bias is the preload. -/
def layerTile (l : Layer) (x : Column) (k : Nat) : List Dyadic × Nat × Nat :=
  let rows := span (128 * k) (min 128 (l.outWidth - 128 * k))
  let ws := rows.map (layerRow l)
  let t0 := minExp (ws.flatMap (fun w => List.zipWith (fun a b => groupExp l.fmt a + groupExp 5 b) w x))
  let pre := fun r => ((l.bias[r]?).map fpVal).toList
  let a := acc48 t0 (List.zipWith (fun r w => List.zipWith (groupDot l.fmt 5) w x ++ pre r) rows ws)
  (a.vals.map (fun v => actExact l.act ⟨v, a.exp⟩), a.replays, a.saturated)

/-- A layer: its outputs, replays and saturated elements. -/
def layerOut (l : Layer) (x : Column) : List Dyadic × Nat × Nat :=
  ((List.range ((l.outWidth + 127) / 128)).map (layerTile l x)).foldl (fun acc t =>
    (acc.1 ++ t.1, acc.2.1 + t.2.1, acc.2.2 + t.2.2)) ([], 0, 0)

/-- The layers in turn: outputs of a layer that feed another are converted to INT8 with RNE (R164); the output vector, the
replays, and the elements saturated in accumulation or conversion. -/
def runLayers : List Layer → Column → Nat → Nat → Nat → List Dyadic × Nat × Nat × Nat
  | [], _, r, s, c => ([], r, s, c)
  | [l], x, r, s, c =>
    let o := layerOut l x
    (o.1, r + o.2.1, s + o.2.2, c)
  | l :: next :: rest, x, r, s, c =>
    let o := layerOut l x
    let b := convertVector 5 (fun _ => none) (o.1.map Src.num)
    runLayers (next :: rest) (decodeGroups 5 b.1) (r + o.2.1) (s + o.2.2) (c + b.2)

/-- What a neural factor yields. -/
structure NeuralOut where
  vals : List Dyadic
  replays : Nat
  saturated : Nat
  clipped : Nat
deriving DecidableEq, Repr, Inhabited

def neuralOut (m : Model) (f : Neural) (xs : List Nat) (features : List Byte) : NeuralOut :=
  let o := runLayers f.layers (neuralInput m f xs features) 0 0 0
  { vals := o.1, replays := o.2.1, saturated := o.2.2.1, clipped := o.2.2.2 }

/-- A factor's outputs at their places among the evidence-field codes, zero elsewhere. -/
def fieldPlaces (m : Model) (f : Neural) (o : NeuralOut) : List Dyadic :=
  let at_ := fun i s => (((span f.outFirst (i - f.outFirst)).map (stateCount m)).sum) + s
  (fieldVars m).flatMap (fun i => (List.range (stateCount m i)).map (fun s =>
    if inRange f.outFirst f.outCount i then o.vals.getD (at_ i s) .zero else .zero))

/-- The evidence fields: each factor's outputs coded by the rule of biases in the groups of R261, the coded outputs of the
factors added and the sums coded again by the same rule (R65, R66; log 43). -/
def codeFields (m : Model) (outs : List (Neural × NeuralOut)) : List Coded :=
  codeAll 127 (outs.foldl (fun acc o =>
    List.zipWith (fun (a : Dyadic) (c : Coded) => a.add c.val) acc (codeAll 127 (fieldPlaces m o.1 o.2)))
    (List.replicate (fieldCodes m) .zero))

/-- Evaluates every neural factor of a model. -/
def neuralOuts (m : Model) (xs : List Nat) (features : List Byte) : List (Neural × NeuralOut) :=
  m.neural.map (fun f => (f, neuralOut m f xs features))

/-- A layer has saturated (11 R350). -/
def outsSaturated (outs : List (Neural × NeuralOut)) : Bool := outs.any (fun o => o.2.saturated != 0 || o.2.clipped != 0)

end Sys2Proof.Machine
end

