-- ==== Sys2Proof/Machine/RegMap.lean ====
section
/-!
DEFINITION. The register map (17 R519 and the register tables of every chapter): for each implemented address its reset value,
its writable bits, when a write takes effect, and the miss flag of its counter.
-/

namespace Sys2Proof.Machine

/-- When a write of an RW or M field takes effect (17 R504). -/
inductive Bound
  | now | command | sweep | seating | frame | gate
deriving DecidableEq, Repr

/-- What the register tables say of one register. -/
structure RegInfo where
  reset : Nat := 0
  /-- Bits of RW fields. -/
  rw : Nat := 0
  /-- Bits of W1C fields. -/
  w1c : Nat := 0
  /-- Access code M (17 R512). -/
  masked : Bool := false
  bound : Bound := .now
  /-- A guarded target (17 R513). -/
  guarded : Bool := false
  /-- A counter: the address of its block's miss register, and its miss bit. -/
  miss : Option (Nat × Nat) := none
deriving DecidableEq, Repr

def roReg (reset : Nat := 0) : Option RegInfo := some { reset := reset }
def rwReg (reset rw : Nat) (b : Bound) (guarded : Bool := false) : Option RegInfo :=
  some { reset := reset, rw := rw, bound := b, guarded := guarded }
def w1cReg (bits : Nat) (reset : Nat := 0) : Option RegInfo := some { reset := reset, w1c := bits }
def cntReg (missAddr bit : Nat) : Option RegInfo := some { rw := 0xFFFFFFFF, miss := some (missAddr, bit) }

/-- CHIP block (17 R520, 06 R214, 09 R299, 08 R282, 12 R402). -/
def chipInfo (a : Nat) : Option RegInfo :=
  match a with
  | 0x000 => roReg 0x03840007 | 0x004 => roReg
  | 0x010 => roReg | 0x014 => roReg | 0x018 => roReg | 0x01C => roReg | 0x020 => roReg | 0x024 => roReg
  | 0x028 => some { masked := true }
  | 0x02C => roReg | 0x030 => cntReg 0x034 0 | 0x034 => w1cReg 1
  | 0x080 => rwReg 0 3 .command
  | 0x084 => rwReg 1 1 .command true
  | 0x088 => w1cReg 0x3F
  | 0x100 => rwReg 0x4000 0xFF01 .seating
  | 0x104 => roReg | 0x108 => roReg | 0x10C => roReg
  | 0x110 => cntReg 0x11C 0 | 0x114 => cntReg 0x11C 0 | 0x118 => cntReg 0x11C 1 | 0x11C => w1cReg 3
  | 0x200 => roReg | 0x204 => rwReg 0x0A 0xFF .command | 0x208 => roReg
  | _ => none

/-- CLKPWR block (15 R477, R478). -/
def pwrInfo (a : Nat) : Option RegInfo :=
  match a with
  | 0x1000 => roReg | 0x1004 => w1cReg 0x7F | 0x1008 => roReg
  | 0x100C => rwReg 0x300 0x377 .command true
  | 0x1010 => roReg
  | 0x1014 => rwReg 0x00690564 0x00FF0FFF .command true
  | 0x1018 => roReg | 0x101C => roReg | 0x1020 => roReg | 0x1024 => roReg | 0x1028 => roReg
  | 0x102C => cntReg 0x1030 0 | 0x1030 => w1cReg 1
  | _ => none

/-- FAULT block (14 R453, R454). -/
def faultInfo (a : Nat) : Option RegInfo :=
  match a with
  | 0x2000 => rwReg 0x1002 0xFF03 .command true
  | 0x2004 => roReg | 0x2008 => roReg | 0x200C => roReg
  | 0x2010 => cntReg 0x201C 0 | 0x2014 => cntReg 0x201C 1 | 0x2018 => cntReg 0x201C 2 | 0x201C => w1cReg 7
  | 0x2020 => rwReg 1 1 .command | 0x2024 => w1cReg 4
  | _ => none

/-- TRAIL block (14 R455). -/
def trailInfo (a : Nat) : Option RegInfo :=
  match a with
  | 0x3000 => rwReg 1 1 .command
  | 0x3004 => roReg | 0x3008 => roReg | 0x300C => roReg | 0x3010 => roReg | 0x3014 => roReg | 0x3018 => roReg
  | 0x301C => cntReg 0x3020 0 | 0x3020 => w1cReg 1
  | _ => none

/-- ENTROPY block (07 R249, R250). -/
def entInfo (a : Nat) : Option RegInfo :=
  match a with
  | 0x4000 => roReg | 0x4004 => roReg | 0x4008 => w1cReg 0x1F | 0x400C => rwReg 0x0A01 0xFF01 .command
  | _ => none

/-- SECURITY block (16 R498, R499). -/
def secInfo (a : Nat) : Option RegInfo :=
  if 0x5040 ≤ a ∧ a ≤ 0x506C ∨ 0x5400 ≤ a ∧ a ≤ 0x5BFC then roReg
  else match a with
  | 0x5000 => roReg | 0x5004 => rwReg 1 1 .command true | 0x5008 => roReg | 0x500C => roReg
  | 0x5010 => cntReg 0x5014 0 | 0x5014 => w1cReg 1 | 0x5018 => w1cReg 4
  | _ => none

/-- ETH block (18 R535, R536, 10 R331, R332). -/
def ethInfo (a : Nat) : Option RegInfo :=
  if 0x6400 ≤ a ∧ a ≤ 0x65FF then rwReg 0x0186A0FF 0xFFFFFFFF .gate
  else if 0x6600 ≤ a ∧ a ≤ 0x66FF then
    if a % 8 = 0 then rwReg 0x5000 0xFFFFFFFF .command else rwReg 0x01000000 0xFFFFFFFF .command
  else if 0x6818 ≤ a ∧ a ≤ 0x6834 then cntReg 0x6838 ((a - 0x6814) / 4)
  else match a with
  | 0x6000 => rwReg 0xF 0xF .command | 0x6010 => rwReg 0xF 0xF .command
  | 0x6004 => roReg | 0x6014 => roReg | 0x6020 => roReg | 0x6024 => roReg | 0x6028 => roReg | 0x602C => roReg
  | 0x6030 => rwReg 0 0xFFFFFFFF .command
  | 0x6040 => rwReg 0 0xFFFFFFFF .command | 0x6044 => rwReg 0 0xFFFFFFFF .command
  | 0x6048 => rwReg 0 0xFFFFFFFF .command | 0x604C => rwReg 0 0xFFFFFFFF .command
  | 0x6050 => rwReg 0xC5 0xFF .command
  | 0x6054 => rwReg 0x000F4240 0xFFFFFFFF .gate | 0x6058 => rwReg 0x000F4240 0xFFFFFFFF .gate
  | 0x605C => rwReg 0x0101 0x7F7F .gate
  | 0x6800 => rwReg 0x00C80A0F 0xFFFFFF0F .command
  | 0x6804 => rwReg 0xB9FA 0xFFFF .command | 0x6808 => rwReg 0x258 0xFFFF .command | 0x680C => roReg
  | 0x6810 => cntReg 0x6838 0 | 0x6814 => cntReg 0x6838 0 | 0x6838 => w1cReg 0x1FF
  | _ => none

/-- A Leash port's block (12 R400, R401), by offset; `base` is its address. -/
def leashInfo (base o : Nat) : Option RegInfo :=
  match o with
  | 0x00 => rwReg 0x310F 0xFF0F .frame | 0x04 => roReg
  | 0x20 => cntReg (base + 0x34) 0 | 0x24 => cntReg (base + 0x34) 1 | 0x28 => cntReg (base + 0x34) 2
  | 0x2C => cntReg (base + 0x34) 3 | 0x30 => cntReg (base + 0x34) 4 | 0x34 => w1cReg 0x1F
  | _ => none

/-- A physical core's block (17 R522, 05 R175, 06 R215, 03 R116, 07 R236), by offset. -/
def coreInfo (base o : Nat) : Option RegInfo :=
  match o with
  | 0x000 => roReg | 0x004 => roReg
  | 0x200 => rwReg 1 1 .command | 0x204 => roReg
  | 0x210 => cntReg (base + 0x220) 0 | 0x214 => cntReg (base + 0x220) 0 | 0x218 => cntReg (base + 0x220) 1
  | 0x220 => w1cReg 3
  | 0x300 => roReg | 0x310 => cntReg (base + 0x320) 0 | 0x314 => cntReg (base + 0x320) 1 | 0x320 => w1cReg 3
  | 0x400 => rwReg 1 1 .sweep | 0x404 => roReg
  | 0x410 => cntReg (base + 0x420) 0 | 0x414 => cntReg (base + 0x420) 0
  | 0x418 => cntReg (base + 0x420) 1 | 0x41C => cntReg (base + 0x420) 1 | 0x420 => w1cReg 3
  | 0x500 => roReg | 0x510 => cntReg (base + 0x520) 0 | 0x514 => cntReg (base + 0x520) 0
  | 0x518 => cntReg (base + 0x520) 1 | 0x520 => w1cReg 3
  | _ => none

/-- An HBM controller's block, by offset, and the MESH, GROOMER and IND blocks (17 R522, R523, 13 R425). -/
def highInfo (a : Nat) : Option RegInfo :=
  if a < 0x34000 then
    match (a - 0x30000) % 0x800 with
    | 0 => roReg | 8 => roReg | 0xC => roReg | _ => none
  else match a with
  | 0x40000 => roReg | 0x40004 => cntReg 0x4000C 0 | 0x40008 => roReg | 0x4000C => w1cReg 1
  | 0x48000 => rwReg 0x00100803 0x00FF7F03 .command
  | 0x48004 => roReg | 0x48008 => roReg | 0x4800C => roReg
  | 0x48010 => cntReg 0x48028 0 | 0x48014 => cntReg 0x48028 1 | 0x48018 => cntReg 0x48028 2
  | 0x4801C => cntReg 0x48028 3 | 0x48020 => cntReg 0x48028 4 | 0x48028 => w1cReg 0x1F
  | 0x50000 => rwReg 0 0x00FFFFFC .now | 0x50004 => rwReg 0 0xFFFFFFFF .now | 0x50008 => rwReg 1 1 .now
  | _ => none

/-- The register at an address; none where the map has no register (R501, R519). -/
def regInfo (a : Nat) : Option RegInfo :=
  if a % 4 ≠ 0 then none
  else if a < 0x1000 then chipInfo a
  else if a < 0x2000 then pwrInfo a
  else if a < 0x3000 then faultInfo a
  else if a < 0x4000 then trailInfo a
  else if a < 0x5000 then entInfo a
  else if a < 0x6000 then secInfo a
  else if a < 0x8000 then ethInfo a
  else if a < 0x9000 then leashInfo (0x8000 + (a - 0x8000) / 0x400 * 0x400) ((a - 0x8000) % 0x400)
  else if a < 0x10000 then none
  else if a < 0x22000 then coreInfo (a / 0x1000 * 0x1000) (a % 0x1000)
  else if a < 0x30000 then none
  else highInfo a

/-- The block of an address lies in a switched domain (R519). -/
def switchedReg (a : Nat) : Bool :=
  a < 0x1000 || (0x2000 ≤ a && a < 0x3000) || (0x8000 ≤ a && a < 0x50000)

/-- The high word's address when an address is the low word of a pair (R509). -/
def pairHigh (a : Nat) : Option Nat :=
  if a ∈ [0x110, 0x101C, 0x1024, 0x3008, 0x3010, 0x6020, 0x6028, 0x6810, 0x48008] then some (a + 4)
  else if 0x10000 ≤ a ∧ a < 0x22000 ∧ a % 0x1000 ∈ [0x210, 0x410, 0x418, 0x510] then some (a + 4)
  else if 0x30000 ≤ a ∧ a < 0x34000 ∧ a % 0x800 = 8 then some (a + 4)
  else none

/-- An address is the high word of a pair. -/
def isHighWord (a : Nat) : Bool := 4 ≤ a && pairHigh (a - 4) == some a

/-- Every address of the register space in rising order (R449, REGISTERS). -/
def regAddrs : List Nat := (List.range 0x14004).map (4 * ·)

end Sys2Proof.Machine
end

