-- ==== Sys2Proof/Machine/Sha.lean ====
section
/-!
DEFINITION. SHA-384, HMAC-SHA-384 and HKDF-SHA-384, which 10 R310, R313 and 16 R483 to R493 name: FIPS 180-4, FIPS 198-1 and
RFC 5869 (PRESUMED: the manual names the standards and gives none of their text; log 9). The constants are computed from
their definition as fractional parts of roots of primes, and the working variables are one list.
-/

namespace Sys2Proof.Machine

/-- The greatest `r` with `r ^ k ≤ n` among those that agree with `r` above bit `bits`, found bit by bit. -/
def rootFrom (k n : Nat) : Nat → Nat → Nat
  | 0, r => r
  | bits + 1, r => rootFrom k n bits (if (r + 2 ^ bits) ^ k ≤ n then r + 2 ^ bits else r)

/-- The first 64 bits of the fractional part of the `k`th root of a number below 2^12. -/
def rootFraction (k p : Nat) : DWord := BitVec.ofNat 64 (rootFrom k (p * 2 ^ (64 * k)) 72 0)

/-- The prime numbers below 441, in rising order. -/
def smallPrimes : List Nat := (span 2 439).filter (fun p => (span 2 19).all (fun d => p ≤ d || p % d != 0))

/-- The 80 round constants: cube roots of the first 80 primes (FIPS 180-4, 4.2.3). -/
def shaConstants : List DWord := (smallPrimes.take 80).map (rootFraction 3)

/-- The initial hash value: square roots of the ninth to sixteenth primes (FIPS 180-4, 5.3.4). -/
def shaInitial : List DWord := ((smallPrimes.drop 8).take 8).map (rootFraction 2)

/-- The functions that FIPS 180-4, 4.1.3 forms from rotations: all three amounts rotate. -/
def bigSigma (x : DWord) (i j k : Nat) : DWord := x.rotateRight i ^^^ x.rotateRight j ^^^ x.rotateRight k

/-- The same with a shift for the third. -/
def smallSigma (x : DWord) (i j k : Nat) : DWord := x.rotateRight i ^^^ x.rotateRight j ^^^ (x >>> k)

/-- One round on the eight working variables, a first: they move down by one place, and e and a take new values. -/
def shaRound (vars : List DWord) (kw : DWord × DWord) : List DWord :=
  match vars with
  | [a, b, c, d, e, f, g, h] =>
    let add := h + bigSigma e 14 18 41 + (g ^^^ (e &&& (f ^^^ g))) + (kw.1 + kw.2)
    [add + bigSigma a 28 34 39 + ((a &&& (b ||| c)) ||| (b &&& c)), a, b, c, d + add, e, f, g]
  | _ => vars

/-- The message schedule, newest word first: `n` more words after those there are. -/
def shaSchedule : Nat → List DWord → List DWord
  | 0, ws => ws
  | n + 1, ws =>
    let back := fun k => ws.getD (k - 1) 0
    shaSchedule n ((back 16 + smallSigma (back 15) 1 8 7 + back 7 + smallSigma (back 2) 19 61 6) :: ws)

/-- The 64-bit words of a block of big-endian bytes. -/
def bigWords (bytes : List Byte) : List DWord := (chunks 8 bytes).map (fun c => BitVec.ofNat 64 (beNat c))

/-- The hash value after one 128-byte block: each word plus what the 80 rounds made of it. -/
def shaBlock (hash : List DWord) (block : List Byte) : List DWord :=
  List.zipWith (· + ·) hash ((shaConstants.zip (shaSchedule 64 (bigWords block).reverse).reverse).foldl shaRound hash)

/-- The padded message (FIPS 180-4, 5.1.2). -/
def shaPad (m : List Byte) : List Byte :=
  m ++ 0x80 :: zeros ((239 - m.length % 128) % 128) ++ beBytes 16 (8 * m.length)

/-- SHA-384: the first six words of the hash value of the padded message, 48 bytes. -/
@[irreducible] def sha384 (m : List Byte) : List Byte :=
  (((chunks 128 (shaPad m)).foldl shaBlock shaInitial).take 6).flatMap (fun w => beBytes 8 w.toNat)

/-- HMAC-SHA-384 (10 R310). -/
@[irreducible] def hmac384 (key m : List Byte) : List Byte :=
  let k := fit 128 (if key.length > 128 then sha384 key else key)
  sha384 (k.map (· ^^^ 0x5C) ++ sha384 (k.map (· ^^^ 0x36) ++ m))

/-- HKDF-SHA-384 with 96 bytes of output (10 R313, step 4). -/
@[irreducible] def hkdf384 (ikm salt info : List Byte) : List Byte :=
  let prk := hmac384 salt ikm
  let t1 := hmac384 prk (info ++ [1])
  t1 ++ hmac384 prk (t1 ++ info ++ [2])

end Sys2Proof.Machine
end

