-- ==== Sys2Proof/Machine/Ops.lean ====
section
/-!
DEFINITION. The shared operations over registers, counters, the Trail, cores and pins that the meanings are built from.
-/

namespace Sys2Proof.Machine

/-! ### Outcomes -/

/-- A command whose effect is `f`. -/
abbrev Result := Host.Outcome State Fault Refusal

/-- The first failing check, in order, and its status and detail (11 R335). -/
def firstErr : List (Bool × Status × Nat) → Option (Status × Nat)
  | [] => none
  | (true, e) :: _ => some e
  | (false, _) :: rest => firstErr rest

/-- The index of the next free value, and the state that has used it (log 5). -/
def State.useFree (s : State) : Nat × State := (s.free, { s with free := s.free + 1 })

/-! ### Registers (17) -/

/-- The value in effect of a register that holds one (R502, R506). -/
def regVal (s : State) (a : Nat) : Nat :=
  match lookup s.regs a with
  | some w => w.toNat
  | none => ((regInfo a).map (·.reset)).getD 0

/-- Bits `lo` to `lo + n - 1` of the value in effect. -/
def regField (s : State) (a lo n : Nat) : Nat := bitsOf (regVal s a) lo n

/-- A one-bit field. -/
def regBit (s : State) (a i : Nat) : Bool := bitOf (regVal s a) i == 1

/-- Sets the value in effect; a register at its reset value is not listed. -/
def setReg (s : State) (a v : Nat) : State :=
  if v % 2 ^ 32 = ((regInfo a).map (·.reset)).getD 0 then { s with regs := del s.regs a }
  else { s with regs := put s.regs a (BitVec.ofNat 32 v) }

/-- Hardware sets status bits. -/
def orReg (s : State) (a bits : Nat) : State := setReg s a (regVal s a ||| bits)

/-- A 32-bit counter counts up and holds at 0xFFFF_FFFF. -/
def bump (s : State) (a n : Nat) : State := setReg s a (min (regVal s a + n) 0xFFFFFFFF)

/-- A 64-bit counter counts modulo 2^64 (R511); `lo` is its low word. -/
def bump64 (s : State) (lo n : Nat) : State :=
  let v := regVal s lo + 2 ^ 32 * regVal s (lo + 4) + n
  setReg (setReg s lo (v % 2 ^ 32)) (lo + 4) (v / 2 ^ 32 % 2 ^ 32)

/-- The attempts noted for a work item. -/
def lookupItem (l : List (WorkItem × Nat)) (w : WorkItem) : Nat := (l.find? (fun e => e.1 == w)).elim 0 (·.2)

/-- Attempts noted for some work items are forgotten on every core. -/
def forgetItems (s : State) (f : WorkItem → Bool) : State :=
  { s with cores := s.cores.map (fun e => (e.1, { e.2 with failed := e.2.failed.filter (fun x => !f x.1) })) }

/-- A work item of a context's run, or of a program. -/
def itemOfCtx (i : Nat) : WorkItem → Bool
  | .tile _ _ _ => false
  | .colour c _ _ _ | .dense c _ _ _ | .key c _ _ _ | .sweeps c _ _ | .ctxMove c _ => c == i
def itemOfProg (r : Req) : WorkItem → Bool
  | .tile q _ _ => q == r
  | _ => false

/-- The address of a register of a physical core. -/
def coreReg (p off : Nat) : Nat := 0x10000 + 0x1000 * p + off

/-- The address of a register of a Leash port. -/
def portReg (p off : Nat) : Nat := 0x8000 + 0x400 * p + off

/-- An event that voids the timing promise of work: its REPRO_STATUS bit and TIMING_VOID, when the work was accepted in
reproducible mode (09 R291, R298, R300). -/
def workEvent (repro : Bool) (s : State) (bit : Nat) : State := if repro then orReg s 0x88 (2 ^ bit + 1) else s

/-- The same for an event of a half, a core or the mesh: reproducible mode as it is now. -/
def reproEvent (s : State) (bit : Nat) : State := if regBit s 0x84 0 then orReg s 0x88 (2 ^ bit + 1) else s

/-! ### Time -/

/-- `rtc` periods in nanoseconds (14 R440). -/
def rtcNs (periods : Nat) : Nat := periods * 1000000000 / 32768

/-- TIME of a Trail record, and whether it is synchronised (R440). -/
def trailTime (s : State) : Nat × Bool :=
  match s.gptp with
  | some (t, at_) => (t + rtcNs (s.rtc - at_), true)
  | none => (rtcNs s.rtc, false)

/-- An interval of `ms` milliseconds that opened at an RTC count has ended (R442: timed by the RTC). -/
def ended (s : State) (opened ms : Nat) : Bool := decide (32768 * ms ≤ (s.rtc - opened) * 1000)

/-! ### The Trail (14 R439 to R445) -/

/-- The SEQ of the oldest record in the ring. -/
def Trail.ringFirst (t : Trail) : Nat := t.head + 1 - t.ring.length

/-- The first record held in the spill region (R439): it holds 2^20 records. -/
def Trail.spillLow (t : Trail) : Nat := max t.spillFirst (t.spilled + 1 - 2 ^ 20)

/-- The SEQ of the oldest record still held; 0 for none. -/
def Trail.oldest (t : Trail) : Nat :=
  if t.spillLow ≤ t.spilled then min t.ringFirst t.spillLow
  else if t.ring.isEmpty then 0 else t.ringFirst

/-- Records of the ring that wait to be spilled. -/
def Trail.unspilled (t : Trail) : Nat := min t.ring.length (t.head - t.spilled)

/-- Adds to TRAIL_MISSED. -/
def Trail.miss (t : Trail) (n : Nat) : Trail := { t with missed := min (t.missed + n) 0xFFFFFFFF }

/-- A record waits to be written: counted in TRAIL_DROPPED beyond 64 (R443), in TRAIL_MISSED while frozen (R444). -/
def enqueueRec (s : State) (r : Rec) : State :=
  if s.trail.frozen then { s with trail := s.trail.miss r.count }
  else if 64 ≤ s.trail.waiting.length then bump s 0x301C 1
  else { s with trail := { s.trail with waiting := r :: s.trail.waiting } }

/-- A record of an event at this moment; its SEQ is given when it is written. -/
def newRec (s : State) (code severity unit context count : Nat) (coalesced : Bool) (detail : List Byte) : Rec :=
  { seq := 0, time := (trailTime s).1, code := code, severity := severity, unit := unit,
    flags := ofBool (trailTime s).2 + 2 * ofBool coalesced, context := BitVec.ofNat 32 context, count := count,
    detail := fit 31 detail }

/-- An event of the Trail (R442). -/
def event (s : State) (code severity unit context : Nat) (detail : List Byte) : State :=
  enqueueRec s (newRec s code severity unit context 1 false detail)

/-- How long a coalescing interval lasts, in milliseconds (R442). -/
def intervalMs : IntervalKey → Nat
  | .auth _ => 1000
  | _ => 1

/-- The record of an interval that ends (R442). -/
def Interval.record (i : Interval) : Rec := { i.first with count := i.count }

/-- Ends the open interval of a key: its record, or its count in TRAIL_MISSED while frozen (R442, R444). -/
def endInterval (s : State) (key : IntervalKey) : State :=
  match s.trail.intervals.find? (fun i => i.key == key) with
  | none => s
  | some i =>
    enqueueRec { s with trail := { s.trail with intervals := s.trail.intervals.filter (fun j => !(j.key == key)) } } i.record

/-- A coalesced event (R321, R379, R420, R442): the first of its interval opens it, later ones are counted. -/
def coalesce (s : State) (key : IntervalKey) (code severity unit : Nat) (detail : List Byte) : State :=
  if s.trail.frozen then { s with trail := s.trail.miss 1 }
  else
    match s.trail.intervals.find? (fun i => i.key == key && !ended s i.opened (intervalMs key)) with
    | some _ =>
      { s with trail := { s.trail with intervals := s.trail.intervals.map (fun j =>
          if j.key == key then { j with count := j.count + 1 } else j) } }
    | none =>
      let s := endInterval s key
      let first := newRec s code severity unit 0 1 true detail
      { s with trail := { s.trail with intervals := s.trail.intervals ++ [⟨key, s.rtc, first, 1⟩] } }

/-- The waiting event that is written next: the one that waits longest (R443). -/
def nextWaiting (ws : List Rec) : Option Rec := ws.getLast?

/-- Writes a record into the ring (R439): the oldest is overwritten unless, with SPILL_EN, it waits to be spilled. -/
def writeRec (s : State) (r : Rec) : State :=
  let t := s.trail
  if 4096 ≤ t.ring.length ∧ regBit s 0x3000 0 ∧ 4096 ≤ t.unspilled then bump s 0x301C 1
  else { s with trail := { t with head := t.head + 1, ring := ({ r with seq := t.head + 1 } :: t.ring).take 4096 } }

/-- The 64 bytes of a record, VALID last (R440). -/
def Rec.bytes (r : Rec) : List Byte :=
  leBytes 8 r.seq ++ leBytes 8 r.time ++ leBytes 2 r.code ++ leBytes 1 r.severity ++ zeros 1 ++ leBytes 2 r.unit ++
  leBytes 1 r.flags ++ zeros 1 ++ leBytes 4 r.context.toNat ++ leBytes 4 r.count ++ fit 31 r.detail ++ [0x5A]

/-! ### Units of the Trail (R441) -/

def unitHbm (n : Nat) : Nat := 0x100 + n
def unitLeash (p : Nat) : Nat := 0x200 + p
def unitEth (e : Nat) : Nat := 0x300 + e
def unitHandler : Nat := 0x400
def unitEntropy : Nat := 0x401
def unitSecurity : Nat := 0x402
def unitMesh (k : Nat) : Nat := 0x500 + k

/-! ### Cores and the disabled-unit map (01 R37, R38, 14 R436) -/

/-- Map byte of a physical core: its logical number, 0xFE unused reserve, 0xFF fenced. -/
def mapByte (m : List Byte) (p : Nat) : Nat := (m.getD p 0xFF).toNat

/-- The physical core that holds a logical number. -/
def physOfMap (m : List Byte) (l : Nat) : Option Nat := (List.range 18).find? (fun p => mapByte m p == l)

def physOf (s : State) (l : Nat) : Option Nat := physOfMap s.map l

/-- Number of active cores: those that hold a logical number. -/
def activeOf (m : List Byte) : Nat := (List.range 18).countP (fun p => mapByte m p < 16)

def active (s : State) : Nat := activeOf s.map

/-- Unused reserves in ascending order. -/
def reservesOf (m : List Byte) : List Nat := (List.range 18).filter (fun p => mapByte m p == 0xFE)

/-- A physical core's record. -/
def coreState (s : State) (p : Nat) : Core := lookupD s.cores p {}

def modCore (s : State) (p : Nat) (f : Core → Core) : State := { s with cores := put s.cores p (f (coreState s p)) }

/-- Setting generations used, and the newest valid one with its number (14 R436, 16 R488). -/
def gensUsed (o : Otp) : Nat := o.gens.countP (·.used)

def newestGen (o : Otp) : Option (Nat × Generation) :=
  (((List.range 4).map (fun g => (g + 1, o.gens.getD g {}))).filter (·.2.valid)).getLast?

/-- The map that OTP gives: the newest valid generation's, or the factory map (R438). -/
def otpMap (o : Otp) : List Byte := ((newestGen o).map (·.2.map)).getD o.factoryMap

/-- Bit n: physical core n fenced in OTP, and in volatile form (R454). -/
def fenceOtp (s : State) : Nat := maskOf 18 (fun p => mapByte (otpMap s.sec.otp) p == 0xFF)
def fenceVol (s : State) : Nat := maskOf 18 (fun p => (coreState s p).volatile)

/-! ### Pins -/

/-- ALERT_N is asserted (15 R470, 16 R481). -/
def alertN (s : State) : Bool :=
  (s.faults.fatal.isSome || !s.power.alertTemps.isEmpty || s.power.phase == .recovery) &&
  !s.power.rstN && s.power.phase != .off

/-- Raises the in-band interrupt of an assertion of ALERT_N (18 R537). -/
def inBand (s : State) (b : Byte) : State :=
  if s.side.dynamic.isSome && s.side.ibi then { s with out := .inBand b :: s.out } else s

end Sys2Proof.Machine
end

