-- ==== Sys2Proof/Machine/Memory.lean ====
section
/-!
DEFINITION. HBM and scratchpads: the address maps, reads through the decoder, whole-word and narrow writes (13 R403 to R420).
-/

namespace Sys2Proof.Machine

/-! ### The address map (13 R406, R407) -/

/-- Bytes of one stack. -/
def stackSize : Nat := 0x0C00000000

/-- The first address outside the map. -/
def hbmEnd : Nat := 0x6000000000

def stackOf (a : Nat) : Nat := a / stackSize

/-- The model region of a stack: base and size. -/
def modelBase (n : Nat) : Nat := n * stackSize + 0x800000000
def modelSize : Nat := 0x200000000

/-- The context pool of a stack: base and size. -/
def poolBase (n : Nat) : Nat := n * stackSize
def poolSize : Nat := 0x800000000

def spillBase : Nat := 0xBEC000000
def spillSize : Nat := 0x4000000

/-- The HBM address of a dump offset (14 R448). -/
def fetchAddr (o : Nat) : Nat := o / 2 ^ 28 * stackSize + 0xBF0000000 + o % 2 ^ 28

/-- Two ranges overlap. -/
def overlap (a n b m : Nat) : Bool := decide (0 < n ∧ 0 < m ∧ a < b + m ∧ b < a + n)

/-- The range touches the Trail spill region or the Fetch region. -/
def handlerOnly (a n : Nat) : Bool :=
  overlap a n spillBase spillSize || (List.range 8).any (fun k => overlap a n (k * stackSize + 0xBF0000000) 0x10000000)

/-- Bytes that a size class with its span occupies (08 R256): 4 KiB doubled per class, or SPAN MiB. -/
def classBytes (c span : Nat) : Nat := if c ≤ 8 then 4096 * 2 ^ c else span * 2 ^ 20

/-- A loaded model or a live context overlaps the range (11 R336). -/
def occupied (s : State) (a n : Nat) : Bool :=
  s.models.any (fun e =>
    overlap a n e.2.descAddr 4096 || e.2.blocks.any (fun b => overlap a n b.addr b.size)) ||
  s.ctxs.any (fun e => overlap a n e.2.addr (classBytes e.2.sizeClass e.2.span))

/-- The range may not be written (R336). -/
def writeProtected (s : State) (a n : Nat) : Bool := handlerOnly a n || occupied s a n

/-- The range lies inside the map (R336). -/
def inMap (a n : Nat) : Bool := decide (a + n ≤ hbmEnd)

/-! ### Memory events (R420, R427) -/

/-- KIND codes of MEM_LAST_HI (R426). -/
def kindCorrected : Nat := 1
def kindUncorrectable : Nat := 2
def kindPoisoned : Nat := 3
def kindSealed : Nat := 4
def kindPoisonWritten : Nat := 5

/-- MEMORY code, UNIT of MEM_LAST_HI and UNIT of the Trail of a memory unit; the always-on memories are index 0. -/
def memCodes (u : MemUnit) : Nat × Nat × Nat :=
  match u with
  | .hbm n => (0, n, unitHbm n)
  | .spad c => (1, c, c)
  | .other p _ => (2, if p < 18 then p else 0x1F, if p < 18 then p else unitHandler)

/-- MEM_LAST names an event (R426, R427). -/
def recordLast (s : State) (u : MemUnit) (a kind : Nat) : State :=
  let c := memCodes u
  setReg (setReg s 0x48008 (a % 2 ^ 32)) 0x4800C (a / 2 ^ 32 % 128 + c.1 * 2 ^ 8 + kind * 2 ^ 11 + c.2.1 * 2 ^ 14)

/-- The coalesced Trail record of a memory event (R420, R442). -/
def memTrail (s : State) (u : MemUnit) (a kind : Nat) : State :=
  let c := memCodes u
  coalesce s (.memory u) 0x200 (if kind = kindCorrected then 1 else 2) c.2.2 (leBytes 8 a ++ leBytes 1 c.1 ++ leBytes 1 kind)

/-- A memory event of its own cycle: MEM_LAST and the Trail record (R427). -/
def memEvent (s : State) (u : MemUnit) (a kind : Nat) : State := memTrail (recordLast s u a kind) u a kind

/-- The address that an event of a memory names: the code-word index in a memory that is neither HBM nor scratchpad (R426). -/
def eventAddr (u : MemUnit) (a : Nat) : Nat :=
  match u with
  | .other _ _ => a / 8
  | _ => a

/-- A corrected read: MEM_CE and, in scratchpad and HBM, a write-back that is due (R415, R416). A burst of 64 bytes is read in one
cycle: MEM_LAST then keeps its lowest address, `first` for the first corrected word of a burst (R427). -/
def corrected (s : State) (u : MemUnit) (a : Nat) (first : Bool := true) : State :=
  let s := bump s 0x48014 1
  let s := if first then recordLast s u (eventAddr u a) kindCorrected else s
  let s := memTrail s u (eventAddr u a) kindCorrected
  match u with
  | .other _ _ => s
  | _ => if s.writeBacks.contains (u, a) then s else { s with writeBacks := s.writeBacks ++ [(u, a)] }

/-- A read that yields DATA_ERROR (R410, R420); none stands for a word that was never written. -/
def badRead (s : State) (u : MemUnit) (a : Nat) (m : Option WordClass) : State :=
  let s := bump s 0x48020 1
  let a := eventAddr u a
  match m with
  | some .poisoned => memEvent s u a kindPoisoned
  | some .sealed => memEvent s u a kindSealed
  | some _ => memEvent (bump s 0x48018 1) u a kindUncorrectable
  | none => memEvent s u a kindSealed

/-! ### Scratchpads and other memories (R403 to R405, R409 to R412; log 74) -/

/-- Bytes of one core's scratchpad (R403). -/
def spadSize : Nat := 0x2800000

/-- The bank of a scratchpad address, and its line in that bank (R403). -/
def spadBank (a : Nat) : Nat := a / 64 % 64
def spadLine (a : Nat) : Nat := a / 4096

/-- The marks of a unit, and the key of an address among them. -/
def unitMarks (s : State) (u : MemUnit) : Map WordClass :=
  match u with
  | .hbm _ => s.marks
  | .spad _ => s.spadMarks
  | .other _ _ => s.otherMarks

def markKey (u : MemUnit) (a : Nat) : Nat :=
  match u with
  | .spad c => c * 2 ^ 26 + a
  | .other c k => (8 * c + k) * 2 ^ 26 + a
  | .hbm _ => a

def setMarks (s : State) (u : MemUnit) (m : Map WordClass) : State :=
  match u with
  | .hbm _ => { s with marks := m }
  | .spad _ => { s with spadMarks := m }
  | .other _ _ => { s with otherMarks := m }

/-- The mark of a word. -/
def markAt (s : State) (u : MemUnit) (a : Nat) : Option WordClass := lookup (unitMarks s u) (markKey u a)

/-! ### Reads -/

/-- Reads `n` code words from address `w`, in ascending order, up to the first that yields DATA_ERROR: their bytes, whether
every word was read, and the state after. `cells` holds the readable bytes from `w` upward; `last` is the burst of the last
corrected word, plus 1, or 0. -/
def readWords : Nat → Nat → List Host.Cell → Nat → State → List Byte × Bool × State
  | 0, _, _, _, s => ([], true, s)
  | n + 1, w, cells, last, s =>
    let here := cells.takeWhile (fun c => c.1 < w + 8)
    let rest := cells.dropWhile (fun c => c.1 < w + 8)
    let mark := lookup s.marks w
    if here.length = 8 ∧ (mark = none ∨ mark = some .correctable) then
      let s := if mark = none then s else corrected s (.hbm (stackOf w)) w (last != w / 64 + 1)
      let r := readWords n (w + 8) rest (if mark = none then last else w / 64 + 1) s
      (here.map (·.2) ++ r.1, r.2)
    else ([], false, badRead s (.hbm (stackOf w)) w mark)

/-- Reads `len` bytes from address `a`: the bytes before the first bad word, whether all were read, and the state after. -/
def readPart (s : State) (a len : Nat) : List Byte × Bool × State :=
  let w := a / 8 * 8
  let n := (a + len + 7) / 8 - a / 8
  if len = 0 then ([], true, s)
  else
    let r := readWords n w (s.hbm.filter (fun c => w ≤ c.1 && c.1 < w + 8 * n)) 0 s
    ((r.1.drop (a - w)).take len, r.2)

/-- Reads `len` bytes; none when a word yields DATA_ERROR. -/
def readHbm (s : State) (a len : Nat) : Option (List Byte) × State :=
  let r := readPart s a len
  (if r.2.1 then some r.1 else none, r.2.2)

/-- The stored bytes of a range, whatever the class of their words. -/
def rawBytes (s : State) (a n : Nat) : List Byte :=
  let cells := s.hbm.filter (fun c => a ≤ c.1 && c.1 < a + n)
  if cells.length = n then cells.map (·.2) else (List.range n).map (fun k => (lookup cells (a + k)).getD 0)

/-- The value of one byte as a clean or correctable word holds it; none in a sealed, poisoned or uncorrectable word. -/
def peek (s : State) (a : Nat) : Option Byte :=
  match lookup s.marks (a / 8 * 8) with
  | none => lookup s.hbm a
  | some .correctable => lookup s.hbm a
  | some _ => none

/-! ### Writes -/

/-- Bytes with their addresses. -/
def cellsAt (a : Nat) (bs : List Byte) : List Host.Cell := (List.range bs.length).zipWith (fun i b => (a + i, b)) bs

/-- Puts bytes into the list of readable bytes, keeping addresses rising. -/
def putCells (m : List Host.Cell) (a : Nat) (bs : List Byte) : List Host.Cell :=
  m.filter (fun c => c.1 < a) ++ cellsAt a bs ++ m.filter (fun c => a + bs.length ≤ c.1)

/-- A write that covers whole code words opens and heals them, and cancels their write-backs (R414, R416, R419). -/
def writeWords (s : State) (a : Nat) (bs : List Byte) : State :=
  if bs.isEmpty then s
  else { s with
    hbm := putCells s.hbm a bs
    marks := s.marks.filter (fun e => !(a ≤ e.1 && e.1 < a + bs.length))
    writeBacks := s.writeBacks.filter (fun e =>
      match e.1 with
      | .hbm _ => !(a ≤ e.2 && e.2 < a + bs.length)
      | _ => true) }

/-- A narrow write within one code word, by the class of the old word (R418). -/
def narrowWrite (s : State) (a : Nat) (bs : List Byte) : State :=
  let w := a / 8 * 8
  let u := MemUnit.hbm (stackOf w)
  let merged := if (lookup s.hbm w).isSome then putCells s.hbm a bs else s.hbm
  if bs.isEmpty then s
  else match lookup s.marks w with
  | none => { s with hbm := merged }
  | some .correctable =>
    let s := memEvent (bump s 0x48014 1) u w kindCorrected
    { s with hbm := putCells s.hbm a bs, marks := del s.marks w,
             writeBacks := s.writeBacks.filter (fun e => !(e == (u, w))) }
  | some .uncorrectable =>
    let s := memEvent (bump s 0x4801C 1) u w kindPoisonWritten
    { s with hbm := merged, marks := put s.marks w .poisoned }
  | some _ => { s with hbm := merged }

/-- A write of bytes at any address: narrow at the edges, whole words between (R414, R417). -/
def writeHbm (s : State) (a : Nat) (bs : List Byte) : State :=
  let h := if a % 8 = 0 then 0 else min bs.length (8 - a % 8)
  let m := (bs.length - h) / 8 * 8
  let s := narrowWrite s a (bs.take h)
  let s := writeWords s (a + h) ((bs.drop h).take m)
  narrowWrite s (a + h + m) (bs.drop (h + m))

/-- Whole-word writes to a core's scratchpad: they open and heal words and cancel their write-backs (R404, R414, R416, R419). -/
def writeSpad (s : State) (p a : Nat) (bs : List Byte) : State :=
  let k := p * 2 ^ 26 + a
  if bs.isEmpty then s
  else { s with
    spad := putCells s.spad k bs
    spadMarks := s.spadMarks.filter (fun e => !(k ≤ e.1 && e.1 < k + bs.length))
    writeBacks := s.writeBacks.filter (fun e => !(e.1 == .spad p && a ≤ e.2 && e.2 < a + bs.length)) }

/-- The first word of a scratchpad range that was never written. -/
def firstSealed (s : State) (p a n : Nat) : Option Nat :=
  let cells := s.spad.filter (fun c => p * 2 ^ 26 + a ≤ c.1 && c.1 < p * 2 ^ 26 + a + n)
  if cells.length = n then none
  else ((List.range (n / 8)).map (fun k => a + 8 * k)).find? (fun w => !cells.any (fun c => c.1 == p * 2 ^ 26 + w))

/-- An engine reads a range of a core's scratchpad, line by line: the first word that yields DATA_ERROR, if there is one, with its
class; the corrected words before it have been counted (R415). -/
def readSpad (s : State) (p a n : Nat) : Option (Nat × Option WordClass) × State :=
  let u := MemUnit.spad p
  let marked := (s.spadMarks.filter (fun e => markKey u a ≤ e.1 && e.1 < markKey u a + n)).map (fun e => (e.1 - markKey u 0, some e.2))
  let bad := (marked.filter (fun e => e.2 != some .correctable)) ++ ((firstSealed s p a n).map (fun w => (w, none))).toList
  let stop := bad.foldl (fun (b : Option (Nat × Option WordClass)) e => if b.all (fun x => decide (e.1 < x.1)) then some e else b) none
  let fixed := (marked.filter (fun e => e.2 == some .correctable && stop.all (fun x => decide (e.1 < x.1)))).map (·.1)
  let s := (fixed.zip (0 :: fixed.map (fun w => w / 64 + 1))).foldl (fun s e => corrected s u e.1 (e.2 != e.1 / 64 + 1)) s
  match stop with
  | none => (none, s)
  | some e => (some e, badRead s u e.1 e.2)

/-! ### Words and their classes -/

/-- The word at an address of a unit exists. -/
def holdsWord (u : MemUnit) (a : Nat) : Bool :=
  a % 8 == 0 && (match u with
    | .hbm n => decide (a < hbmEnd) && stackOf a == n
    | .spad _ => decide (a < spadSize)
    | .other _ _ => decide (a < 2 ^ 23))

/-- The word is open: it has been written since its memory was sealed. -/
def wordOpen (s : State) (u : MemUnit) (a : Nat) : Bool :=
  match u with
  | .hbm _ => (lookup s.hbm a).isSome
  | .spad p => (lookup s.spad (p * 2 ^ 26 + a)).isSome
  | .other _ _ => true

/-- Bit errors strike a word and leave it in a class, by the syndrome alone (R410). Two single errors make an uncorrectable word
(R411). A word that errors bring into the class of correctable words from another one than clean delivers open data (log 74). -/
def strikeWord (u : MemUnit) (s : State) (a : Nat) (cls : WordClass) : State :=
  let k := markKey u a
  let old := unitMarks s u
  if lookup old k = some .correctable && cls == .correctable then setMarks s u (put old k .uncorrectable)
  else if cls != .correctable || ((lookup old k).isNone && wordOpen s u a) then
    if (lookup old k).isNone && !wordOpen s u a && cls == .sealed then s else setMarks s u (put old k cls)
  else
    let bs := leBytes 8 (Config.struckWord s.free).toNat
    let t := setMarks { s with free := s.free + 1 } u (put old k cls)
    match u with
    | .hbm _ => { t with hbm := putCells t.hbm a bs }
    | .spad p => { t with spad := putCells t.spad (p * 2 ^ 26 + a) bs }
    | .other _ _ => t

/-- Every word of a range is sealed (R412, R413). -/
def sealHbm (s : State) (a n : Nat) : State :=
  { s with
    hbm := s.hbm.filter (fun c => !(a ≤ c.1 && c.1 < a + n))
    marks := s.marks.filter (fun e => !(a ≤ e.1 && e.1 < a + n))
    writeBacks := s.writeBacks.filter (fun e =>
      match e.1 with
      | .hbm _ => !(a ≤ e.2 && e.2 < a + n)
      | _ => true) }

/-- The canonical form of a memory: addresses strictly rising. -/
abbrev Memory.wf (m : List Host.Cell) : Prop := rising m = true

end Sys2Proof.Machine
end

