-- ==== Sys2Proof/Machine/Reply.lean ====
section
/-!
DEFINITION. Replies: their bytes, tag, flags, routing and cache (10 R304, R308 to R310, R318), and the transmitter of a Leash
port that carries them over a bridge (12 R374 to R378, R399).
-/

namespace Sys2Proof.Machine

/-! ### Leash transmitter -/

def port (s : State) (p : Nat) : Port := lookupD s.ports p {}

def setPort (s : State) (p : Nat) (v : Port) : State := { s with ports := put s.ports p v }

def modPort (s : State) (p : Nat) (f : Port → Port) : State := setPort s p (f (port s p))

/-- Receive buffer of a virtual lane, in flits (12 R376). -/
def vlBuffer (vl : Nat) : Nat :=
  match vl with
  | 0 => 1024
  | 1 => 512
  | 2 => 256
  | _ => 64

/-- Flits of a message: the HEAD carries 36 bytes of data, each BODY 60 (R374). -/
def flitsOf (len : Nat) : Nat := 1 + (len - 36 + 59) / 60

/-! ### Flits (R373, R374) -/

/-- CRC-16 of bytes: polynomial 0x8BB7, initial value 0xFFFF, no reflection. -/
@[irreducible] def crc16 (bs : List Byte) : BitVec 16 :=
  bs.foldl (fun (c : BitVec 16) b => (List.range 8).foldl (fun (c : BitVec 16) _ => c <<< 1 ^^^ (if c.msb then 0x8BB7 else 0))
    (c ^^^ (b.setWidth 16).shiftLeft 8)) 0xFFFF

/-- A flit's 64 bytes: header of VL, TYPE and SEQ, payload filled with zeros, CRC. -/
def flitBytes (vl type seq : Nat) (payload : List Byte) : List Byte :=
  let b := leBytes 2 (vl + 4 * type + 16 * seq) ++ fit 60 payload
  b ++ leBytes 2 (crc16 b).toNat

/-- The message header in the first 24 payload bytes of the HEAD. -/
def msgHeader (m : LeashMsg) : List Byte :=
  leBytes 1 m.kind ++ leBytes 1 m.segment ++ leBytes 2 m.length ++ leBytes 4 m.srcMember ++ leBytes 4 m.destMember ++
  leBytes 4 m.tag.toNat ++ leBytes 8 m.addr

/-- What flit k of a message carries: the HEAD the header and 36 bytes of data, each BODY flit the next 60. -/
def msgPayload (m : LeashMsg) (k : Nat) : List Byte :=
  if k = 0 then msgHeader m ++ m.data.take 36 else slice m.data (60 * k - 24) 60

/-- Flit k of a message, with its SEQ. -/
def msgFlit (m : LeashMsg) (k seq : Nat) : List Byte := flitBytes m.vl (if k = 0 then 1 else 2) seq (msgPayload m k)

/-! ### The transmitter (R375 to R378, R381) -/

/-- Flits sent in a virtual lane and not yet freed by the partner; its counters run modulo 4,096 (R378). -/
def outstanding (p : Port) (vl : Nat) : Nat :=
  (p.sentFlits.getD vl 0 + 4096 - p.freedByPartner.getD vl 0 % 4096) % 4096

/-- The member index that names a bridge (R374). -/
def bridge : Nat := 0xFFFFFFFF

/-- A port may send the message's next flit now: ACTIVE, credit, room in the replay buffer, and joined unless it is VL2 or bridge
traffic (R378, R381, R385). -/
def canSend (p : Port) (o : Outgoing) : Bool :=
  p.st == .active && (p.partnerJoined || o.msg.vl == 2 || o.msg.destMember == bridge) &&
  decide (outstanding p o.msg.vl < vlBuffer o.msg.vl) && decide (p.replay.length < 2048)

/-- Flits of a receive buffer are freed (R378). -/
def freeFlits (s : State) (n vl k : Nat) : State :=
  modPort s n (fun p => { p with freed := p.freed.modify vl (fun v => (v + k) % 4096) })

/-- Sends the next flit of a waiting message: it takes the next SEQ and stays in the replay buffer until acknowledged (R381); a
forwarded flit leaves the receive buffer of the port it came from (R378). -/
def sendFlit (s : State) (n : Nat) (o : Outgoing) : State :=
  let p := port s n
  let m := if o.next = 0 then { o.msg with port := n, seq := p.txSeq } else o.msg
  let rest := flitsOf m.data.length - o.next - 1
  let held := min o.held rest
  let s := { setPort s n { p with
    txSeq := (p.txSeq + 1) % 4096
    sentFlits := p.sentFlits.modify m.vl (fun v => (v + 1) % 4096)
    replay := p.replay ++ [⟨p.txSeq, o.next, m⟩]
    turn := if m.vl < 2 then p.turn + 1 else p.turn
    waiting := if rest = 0 then eraseFirst (fun x => x == o) p.waiting
      else replaceFirst (fun x => x == o) { o with msg := m, next := o.next + 1, held := held } p.waiting }
    with out := .flit n (msgFlit m o.next p.txSeq) :: s.out }
  match o.origin with
  | none => s
  | some k => freeFlits s k m.vl (o.held - held)

/-- The virtual lanes in the order the transmitter tries them (R377). -/
def vlOrder (s : State) (n : Nat) (p : Port) : List Nat :=
  let w1 := max 1 (regField s (portReg n 0) 8 4)
  let w0 := max 1 (regField s (portReg n 0) 12 4)
  [3, 2] ++ (if p.turn % (w0 + w1) < w0 then [0, 1] else [1, 0])

/-- The message whose flit a port sends next, if one can go: the first of its virtual lane, whose flits go back to back (R375,
R377). -/
def nextOut (s : State) (n : Nat) (p : Port) : Option Outgoing :=
  ((vlOrder s n p).filterMap (fun vl => p.waiting.find? (fun o => o.msg.vl == vl))).find? (canSend p)

/-- Sends up to a number of flits of a port while one can go. -/
def pumpFlits : Nat → State → Nat → State
  | 0, s, _ => s
  | k + 1, s, n =>
    match nextOut s n (port s n) with
    | none => s
    | some o => pumpFlits k (sendFlit s n o) n

/-- Sends the flits of a port's waiting messages while one can go. -/
def pump (s : State) (n : Nat) : State :=
  pumpFlits (((port s n).waiting.map (fun o => flitsOf o.msg.data.length - o.next)).sum) s n

/-- A port has messages to send, or to send again (R387). -/
def hasTraffic (p : Port) : Bool := !p.waiting.isEmpty || !p.replay.isEmpty

/-- A message waits for a sleeping partner: the first Whistle (R387). -/
def firstWhistle (s : State) (n : Nat) : State :=
  if (port s n).st == .asleep && hasTraffic (port s n) && !(port s n).whistling && regBit s (portReg n 0) 3 then
    { modPort s n (fun p => { p with whistling := true }) with out := .whistle n :: s.out }
  else s

/-- Hands a message to a port, where it waits until it can go; a forwarded one holds the flits of its `origin`. -/
def queueMsg (s : State) (n : Nat) (m : LeashMsg) (origin : Option Nat) : State :=
  let o : Outgoing := ⟨{ m with port := n }, 0, origin, if origin.isSome then flitsOf m.data.length else 0⟩
  pump (firstWhistle (modPort s n (fun p => { p with waiting := p.waiting ++ [o] })) n) n

def sendMsg (s : State) (n : Nat) (m : LeashMsg) : State := queueMsg s n m none

/-- A message of this member (R374). -/
def leashMsg (s : State) (n vl kind dest tag addr : Nat) (data : List Byte) : LeashMsg :=
  { port := n, seq := 0, vl := vl, kind := kind, segment := 0, length := data.length, srcMember := s.join.self,
    destMember := dest, tag := BitVec.ofNat 32 tag, addr := addr, data := data, first := 0 }

/-! ### Status codes and the reply packet -/

/-- The code of a status (11 R333). -/
def Status.code : Status → Nat
  | .ok => 0x00 | .busy => 0x01 | .badPacket => 0x02 | .badOpcode => 0x03 | .badParam => 0x04 | .notReady => 0x05
  | .staleSeq => 0x06 | .authFailed => 0x07 | .accessDenied => 0x08 | .busError => 0x09 | .dataError => 0x0A
  | .noContext => 0x0B | .contextBusy => 0x0C | .colourConflict => 0x0D | .overflowSaturated => 0x0E
  | .entropyNotReady => 0x0F | .entropyFailed => 0x10 | .wakeSourceActive => 0x11 | .joinIncomplete => 0x12
  | .attestPqExhausted => 0x13 | .lengthLimit => 0x14 | .fatal => 0xFF

/-- The 24-byte reply header (10 R308). -/
def Reply.header (r : Reply) : List Byte :=
  [0x01, 0x01] ++ leBytes 1 r.session ++ leBytes 1 r.opcode ++ leBytes 4 r.seq.toNat ++ leBytes 2 r.payload.length ++
  leBytes 1 r.status.code ++ [r.info] ++ leBytes 2 r.detail ++ leBytes 2 r.credits ++ leBytes 2 (ofBool r.tagged) ++
  zeros 2 ++ leBytes 4 r.retryAfter

/-- The reply packet, tag included. -/
def Reply.bytes (r : Reply) : List Byte := r.header ++ r.payload ++ r.tag

/-- INFO_FLAGS bits that a command sets itself (R309). -/
def flagRepaired : Nat := 1
def flagReplayed : Nat := 2
def flagDeferred : Nat := 4

/-- INFO_FLAGS: the command's own flags, DEGRADED_CORES and DEBUG_UNLOCKED (R309). -/
def infoFlags (s : State) (own : Nat) : Byte :=
  BitVec.ofNat 8 (own + 8 * ofBool (active s < 16) + 16 * ofBool s.sec.debugUnlocked)

def session (s : State) (k : Nat) : Session := lookupD s.sessions k {}

def setSession (s : State) (k : Nat) (v : Session) : State := { s with sessions := put s.sessions k v }

def modSession (s : State) (k : Nat) (f : Session → Session) : State := setSession s k (f (session s k))

/-- Entries of a session's queue (R323). -/
def queueSize : Nat := 1024

/-- CREDITS: free entries of the session's queue; 0 without a session (R308, R323). -/
def credits (s : State) (k : Option Nat) : Nat :=
  match k with
  | some n => if (session s n).isOpen then queueSize - (session s n).queue.length else 0
  | none => 0

/-- The reply with the tag under a key (R310). -/
def Reply.withTag (r : Reply) (key : List Byte) : Reply :=
  { r with tagged := true, tag := hmac384 key ({ r with tagged := true }.header ++ r.payload) }

def ethPort (s : State) (e : Nat) : EthPort := lookupD s.eth e {}

/-- The segments of a Valaz packet over the bridge: 4,096 bytes each, LAST on the last (12 R399). -/
def valazSegments (s : State) (n dest tag : Nat) (bytes : List Byte) : List LeashMsg :=
  let cs := chunks 4096 bytes
  (List.range cs.length).zipWith (fun i c =>
    { leashMsg s n 2 0x05 dest tag 0 c with segment := i + (if i + 1 = cs.length then 0x80 else 0) }) cs

/-- The MAC address of a port (16 R487), and the module's IPv4 and IPv6 addresses, first byte on the wire first (18 R536). -/
def macOf (s : State) (e : Nat) : List Byte := fit 6 (if e = 0 then s.sec.otp.mac0 else s.sec.otp.mac1)
def ip4Of (s : State) : List Byte := leBytes 4 (regVal s 0x6030)
def ip6Of (s : State) : List Byte := (List.range 4).flatMap (fun k => leBytes 4 (regVal s (0x6040 + 4 * k)))

/-- Whom a reply's frame names as its sender on a port, and its UDP Length: the 8-byte header and the reply packet (R304, R310). -/
def senderOf (s : State) (e : Nat) (r : Reply) : Sender :=
  let len := 8 + 24 + r.payload.length + 48 * ofBool r.tagged
  match r.dest.carrier with
  | .udp4 => ⟨macOf s e, ip4Of s, some len⟩
  | .udp6 => ⟨macOf s e, ip6Of s, some len⟩
  | _ => ⟨macOf s e, [], none⟩

/-- The frame of a reply on a port. -/
def replyOut (s : State) (e : Nat) (rTag : Bool) (r : Reply) : Out := .reply e rTag (senderOf s e r) r

/-- Sends a reply to its destination (R304): on the bridge's port, on both Ethernet ports under CB_REPLY, on the port that
received the command, or on the other one. A reply with no link up waits when it is tagged. -/
def sendReply (s : State) (r : Reply) : State :=
  match r.dest.carrier with
  | .leash =>
    let tag := s.join.nextTag.toNat
    let s := { s with join := { s.join with nextTag := s.join.nextTag + 1 } }
    each (valazSegments s r.dest.port r.dest.member tag r.bytes) s (fun s m => sendMsg s r.dest.port m)
  | _ =>
    let up := fun e => (ethPort s e).link
    if regBit s 0x6050 5 ∧ (up 0 ∨ up 1) then
      { s with out := ([1, 0].filter up).map (fun e => replyOut s e true r) ++ s.out }
    else if up r.dest.port then { s with out := replyOut s r.dest.port false r :: s.out }
    else if up (1 - r.dest.port) then { s with out := replyOut s (1 - r.dest.port) false r :: s.out }
    else if r.tagged then { s with unsent := s.unsent ++ [r] }
    else s

/-- Puts a tagged reply of a session into its cache of 32 (R318). -/
def cacheReply (s : State) (k : Nat) (r : Reply) : State :=
  modSession s k (fun v => { v with cache := (r :: v.cache).take 32, lastUse := s.rtc })

/-- The reply packet of a command, before its tag. -/
def mkReply (s : State) (r : Req) (op : Nat) (st : Status) (detail : Nat) (payload : List Byte) (own retry : Nat) : Reply :=
  { session := r.session.getD 0xFF, opcode := op, seq := r.seq, status := st, detail := detail,
    info := infoFlags s own, credits := credits s r.session, retryAfter := retry, tagged := false,
    payload := payload, tag := [], dest := r.src }

/-- Answers a command: the reply of an open session is tagged under K_M, cached and sent; without a session it is sent
untagged; the reply of a closed session is discarded (R310, R314, R318). -/
def answer (s : State) (r : Req) (op : Nat) (st : Status) (detail : Nat) (payload : List Byte) (own retry : Nat) : State :=
  match r.session with
  | none => sendReply s (mkReply s r op st detail payload own retry)
  | some k =>
    if (session s k).isOpen then
      let p := (mkReply s r op st detail payload own retry).withTag (session s k).kM
      sendReply (cacheReply s k p) p
    else s

/-- A taken command replies: it is no longer taken (R324). -/
def reply (s : State) (r : Req) (op : Nat) (st : Status) (detail : Nat := 0) (payload : List Byte := []) (own : Nat := 0) :
    State :=
  answer { s with taken := s.taken.filter (fun t => !(t.r == r && t.opcode == op)) } r op st detail payload own 0

/-- The same with RETRY_AFTER, for BUSY (R328). -/
def replyBusy (s : State) (r : Req) (op detail retry : Nat) : State :=
  answer { s with taken := s.taken.filter (fun t => !(t.r == r && t.opcode == op)) } r op .busy detail [] 0 retry

/-! ### Taking a command -/

/-- The queued packet of a command. -/
def isPacketOf (r : Req) (op : Nat) (p : Packet) : Bool := p.seq == r.seq && p.opcode == op && p.src == r.src

/-- The queue in which a command waits: its session's, or the sessionless one (R323). -/
def queueOf (s : State) (r : Req) : List Packet :=
  match r.session with
  | some k => (session s k).queue
  | none => s.openQueue

/-- The number of that queue in the Handler's turns, and the queue of a number (R324). -/
def queueNo (r : Req) : Nat := r.session.getD 8
def queueAt (s : State) (q : Nat) : List Packet := if q = 8 then s.openQueue else (session s q).queue

/-- The command's packet leaves its queue, and the Handler's turn goes on from there (R323, R324). -/
def unqueue (s : State) (r : Req) (op : Nat) : State :=
  if (queueOf s r).any (isPacketOf r op) then
    let s := { s with turn := (queueNo r + 1) % 9 }
    match r.session with
    | some k => modSession s k (fun v => { v with queue := eraseFirst (isPacketOf r op) v.queue })
    | none => { s with openQueue := eraseFirst (isPacketOf r op) s.openQueue }
  else s

/-- No other packet of its queue stands before the command's (R324: SEQ order, or order of acceptance). -/
def inOrder (s : State) (r : Req) (op : Nat) : Bool :=
  match queueOf s r with
  | [] => true
  | p :: rest => isPacketOf r op p || !rest.any (isPacketOf r op)

/-- Opcodes of the run commands (R324). -/
def isRunOp (op : Nat) : Bool := op == 0x40 || op == 0x41 || op == 0x42 || op == 0x44

/-- The entry of a taken command. -/
def isTakenOf (r : Req) (op : Nat) (t : Taken) : Bool := t.r == r && t.opcode == op

/-- The entry is a run command whose context is Running: it counts as replied (R324). -/
def runsNow (s : State) (t : Taken) : Bool :=
  isRunOp t.opcode && (match t.ctx.bind (lookup s.ctxs) with
    | some c => c.st == .running
    | none => false)

/-- An earlier command of the same session that names the context or the model has not replied (R324). -/
def mustWait (s : State) (r : Req) (op : Nat) (ctx model : Option Nat) : Bool :=
  r.session.isSome && (s.taken.takeWhile (fun t => !isTakenOf r op t)).any (fun t =>
    t.r.session == r.session && !runsNow s t &&
    ((ctx.isSome && t.ctx == ctx) || (model.isSome && t.model == model)))

/-- Opcodes served in the fatal state (10 R329). -/
def fatalServes (op : Nat) : Bool := op == 0x01 || op == 0x02 || op == 0x03 || op == 0x04 || op == 0x93

/-- The same now: SESSION_OPEN and SESSION_CLOSE wait until the dump has been written (R329). -/
def servedFatal (s : State) (op : Nat) : Bool := fatalServes op && !((op == 0x03 || op == 0x04) && s.faults.dump.writing)

/-- Opcodes served before START_DONE and in Doze, whatever they name (15 R457, R474). -/
def servedEarly (op : Nat) : Bool := op ∈ [0x01, 0x02, 0x03, 0x04, 0x81, 0x90, 0x92]

/-- The module is in a state in which the Handler serves an opcode (R329, 15 R457, R463, R474). `early` and `doze` say that a
command that R474 and R457 serve only under a condition meets it before START_DONE and in Doze. -/
def servable (s : State) (op : Nat) (early doze : Bool) : Bool :=
  (match s.faults.fatal with
    | some _ => servedFatal s op
    | none =>
      (match s.power.phase with
        | .running => true
        | .booted => servedEarly op || early
        | .recovery => op == 0x02
        | _ => false) &&
      (match s.power.st with
        | .run => true
        | .doze => servedEarly op || doze
        | _ => false)) &&
  s.power.entering.isNone && !s.power.exiting

/-- The Handler goes on taking commands of a session: fewer than 4,096 of them are taken, unreplied and no runs (R324). -/
def belowLimit (s : State) (k : Nat) : Bool :=
  decide ((s.taken.filter (fun t => t.r.session == some k && !isRunOp t.opcode)).length < 4096)

/-- The command at the head of a queue can be taken now. SESSION_CLOSE stays until every earlier command has replied (R314), and
FAULT_MAP until the fence sequence in progress ends (14 R435). -/
def headReady (s : State) (q : Nat) : Bool :=
  match queueAt s q with
  | [] => false
  | p :: _ => servable s p.opcode false false && (q == 8 || belowLimit s q) &&
      !(p.opcode == 0x04 && s.taken.any (fun t => t.r.session == some q)) && !(p.opcode == 0x94 && !s.faults.due.isEmpty)

/-- No queue whose turn comes before the command's has a command to take (R324). -/
def hasTurn (s : State) (r : Req) (op : Nat) : Bool :=
  !(queueOf s r).any (isPacketOf r op) ||
  (((span s.turn 9).map (· % 9)).takeWhile (· != queueNo r)).all (fun q => !headReady s q)

/-- The Handler takes a command, or goes on with one that it has taken (10 R314, R324): the module is in a state in which it
serves it; a new command's session is open and below its limit, no packet of its queue stands before it, and its queue has
the turn. -/
def takes (s : State) (r : Req) (op : Nat) (early doze : Bool) : Bool :=
  servable s op early doze &&
  (s.taken.any (isTakenOf r op) || r.session.all (fun k => (session s k).isOpen && belowLimit s k) && hasTurn s r op) &&
  inOrder s r op

/-- ACC_MODE and REPRO_EN in effect (06 R214, 09 R298). -/
def modesNow (s : State) : Modes := ⟨regBit s 0x80 0 && !regBit s 0x80 1, regBit s 0x80 1, regBit s 0x84 0⟩

/-- The modes that a command uses: those in effect when it was accepted, which its packet or its entry among the taken commands
keeps (17 R507). -/
def modesOf (s : State) (r : Req) (op : Nat) : Modes :=
  match (queueOf s r).find? (isPacketOf r op), s.taken.find? (isTakenOf r op) with
  | some p, _ => p.modes
  | none, some t => t.modes
  | none, none => modesNow s

/-- A taken command that replies later, or waits for an earlier one, stands among the taken ones in the order in which they
were taken (R324), with the modes it was accepted under. -/
def hold (s : State) (r : Req) (op : Nat) (ctx model : Option Nat) (md : Modes := modesNow s) : State :=
  if s.taken.any (isTakenOf r op) then s else { s with taken := s.taken ++ [⟨r, op, ctx, model, md⟩] }

/-- The Handler takes a command and serves it with `f`, or keeps it waiting behind an earlier one. A command that is not taken
waits in its queue: nothing changes. -/
def take (s : State) (r : Req) (op : Nat) (early doze : Bool) (ctx model : Option Nat) (f : State → State) : Result :=
  if takes s r op early doze then
    if mustWait s r op ctx model then .next (hold (unqueue s r op) r op ctx model (modesOf s r op))
    else .next (f (unqueue s r op))
  else .next s

/-- The Handler serves a command that it takes in Run after START_DONE. -/
def serve (s : State) (r : Req) (op : Nat) (ctx model : Option Nat) (f : State → State) : Result :=
  take s r op false false ctx model f

/-- The same for a command that R457 and R474 serve under conditions of its own. -/
def serveEarly (s : State) (r : Req) (op : Nat) (early doze : Bool) (f : State → State) : Result :=
  take s r op early doze none none f

/-- A payload that fails the checks of length and reserved fields, or passes them (11 R334, R335). -/
def badLength : Status × Nat := (.badParam, 0x0301)
def badReserved : Status × Nat := (.badParam, 0x0302)
def badRegion : Status × Nat := (.badParam, 0x0303)
def badOverlap : Status × Nat := (.badParam, 0x0304)
def badModel : Status × Nat := (.badParam, 0x0305)
def badRange : Status × Nat := (.badParam, 0x0306)
def badData : Status × Nat := (.dataError, 0x0307)

/-- Replies with the first failing check's status, or goes on with `ok`. -/
def checked (s : State) (r : Req) (op : Nat) (cs : List (Bool × Status × Nat)) (ok : State → State) : State :=
  match firstErr cs with
  | some e => reply s r op e.1 e.2
  | none => ok s

end Sys2Proof.Machine
end

