-- ==== Sys2Proof/Machine/ModelImage.lean ====
section
/-!
DEFINITION. The model image: its header, directory and sections, and the ordered checks of MODEL_LOAD (02 R74 to R83).
-/

namespace Sys2Proof.Machine

/-- Why a load fails: status, detail, the section and record named (R83, 11 R344). -/
structure LoadErr where
  st : Status
  detail : Nat
  section_ : Nat := 0xFFFF
  record : Nat := 0xFFFFFFFFFFFFFFFF
deriving DecidableEq, Repr, Inhabited

abbrev Check := Except LoadErr Unit

def failIf (c : Bool) (e : LoadErr) : Check := if c then .error e else .ok ()

/-- BAD_PARAM with a detail code of R83. -/
def bad (detail : Nat) (section_ : Nat := 0xFFFF) (record : Nat := 0xFFFFFFFFFFFFFFFF) : LoadErr :=
  ⟨.badParam, detail, section_, record⟩

/-- The first record that fails a test is named. -/
def eachRecord {α : Type} (e : LoadErr) (l : List α) (p : Nat → α → Bool) : Check :=
  match (List.zipWith (fun i a => (i, p i a)) (List.range l.length) l).find? (·.2) with
  | some x => .error { e with record := x.1 }
  | none => .ok ()

/-! ### Header and directory (R74, R75) -/

structure Entry75 where
  typ : Nat
  flags : Nat
  res : Nat
  off : Nat
  len : Nat
  count : Nat
deriving DecidableEq, Repr, Inhabited

def dirEntry (img : List Byte) (k : Nat) : Entry75 :=
  let b := slice img (128 + 32 * k) 32
  { typ := u16 b 0, flags := u16 b 2, res := u32 b 4, off := u64 b 8, len := u64 b 16, count := u64 b 24 }

/-- SECTION_COUNT. -/
def sectionCount (img : List Byte) : Nat := u16 img 0x1A

def directory (img : List Byte) : List Entry75 := (List.range (sectionCount img)).map (dirEntry img)

def sectionOf (img : List Byte) (typ : Nat) : Entry75 := ((directory img).find? (fun e => e.typ == typ)).getD default

def sectionBytes (img : List Byte) (typ : Nat) : List Byte := slice img (sectionOf img typ).off (sectionOf img typ).len

/-- Check 2: MAGIC, VERSION, HEADER_SIZE and IMAGE_SIZE. -/
def checkHeader (img : List Byte) (region : Nat) : Check :=
  failIf (u32 img 0 != 0x4D374E47 || u16 img 4 != 1 || u16 img 6 != 128 || decide (u64 img 8 < 128) ||
    decide (2 ^ 36 < u64 img 8) || decide (region < u64 img 8)) (bad 1)

/-- Check 3: DIGEST over the image with this field set to zero. -/
def checkDigest (img : List Byte) : Check :=
  failIf (sha384 (img.take 0x40 ++ zeros 48 ++ img.drop 0x70) != slice img 0x40 48) (bad 2)

/-- Record size of the fixed-size sections VARIABLES, PAIRS and BLOCKS. -/
def recordSize (typ : Nat) : Option Nat :=
  match typ with
  | 1 => some 4
  | 3 => some 16
  | 7 => some 16
  | _ => none

/-- Check 4: the directory. -/
def checkDirectory (img : List Byte) : Check :=
  let n := sectionCount img
  if decide (8 < n) || decide (img.length < 128 + 32 * n) then .error (bad 3)
  else
    let d := directory img
    let spans := (0, 128 + 32 * n) :: d.map (fun e => (e.off, e.len))
    failIf (d.any (fun e => !(decide (1 ≤ e.typ ∧ e.typ ≤ 8)) || e.flags != 0 || e.res != 0 || e.off % 64 != 0 ||
        decide (img.length < e.off + e.len) || (recordSize e.typ).any (fun z => e.len != e.count * z)) ||
      (d.map (·.typ)).eraseDups.length != n ||
      !([1, 2, 7].all (fun t => d.any (fun e => e.typ == t))) ||
      (List.range spans.length).any (fun i => (List.range i).any (fun j =>
        overlap (spans.getD i (0, 0)).1 (spans.getD i (0, 0)).2 (spans.getD j (0, 0)).1 (spans.getD j (0, 0)).2))) (bad 3)

/-- Check 5: header counts. -/
def checkCounts (img : List Byte) (loaded : Nat) : Check :=
  failIf (decide (4 ≤ u32 img 0x10) || u32 img 0x14 == 0 || decide (2 ^ 24 < u32 img 0x14) ||
    u8 img 0x18 == 0 || decide (32 < u8 img 0x18) || u8 img 0x19 == 0 || decide (64 < u8 img 0x19) ||
    decide (sectionCount img < 3 ∨ 8 < sectionCount img) || u32 img 0x1C != 0 || !allZero (slice img 0x70 16) ||
    decide (2 ^ 32 < u64 img 0x20) || (sectionOf img 1).count != u32 img 0x14 || (sectionOf img 3).count != u64 img 0x28 ||
    decide (4096 ≤ loaded)) (bad 4)

/-! ### Records (R56, R57, R76 to R79) -/

def parseVar (b : List Byte) : Var :=
  { k := u8 b 0 % 16 + 1, clamped := bitOf (u8 b 0) 4 == 1, colour := u8 b 1 }

/-- Check 6: VARIABLES. -/
def checkVars (img : List Byte) : Check :=
  eachRecord (bad 5 1) (chunks 4 (sectionBytes img 1)) (fun _ b =>
    decide (32 ≤ u8 b 0) || u8 b 0 % 16 == 0 || u16 b 2 != 0 ||
    (if bitOf (u8 b 0) 4 = 1 then u8 b 1 != 0xFF else decide (u8 img 0x18 ≤ u8 b 1)))

def varsOf (img : List Byte) : List Var := (chunks 4 (sectionBytes img 1)).map parseVar

/-- The FP32 words of bytes. -/
def wordsOf (bs : List Byte) : List Word := (chunks 4 bs).map (fun b => w32 b 0)

/-- A section of a list at each of the lengths given. -/
def splitBy {α : Type} : List Nat → List α → List (List α)
  | [], _ => []
  | n :: rest, l => l.take n :: splitBy rest (l.drop n)

structure RawPair where
  i : Nat
  j : Nat
  kind : Nat
  table : Nat
  w : Word
deriving DecidableEq, Repr, Inhabited

def parsePair (b : List Byte) : RawPair :=
  { i := u32 b 0, j := u32 b 4, kind := u8 b 8, table := u32 b 8 / 256, w := w32 b 12 }

structure RawTable where
  rows : Nat
  cols : Nat
  vals : List Word
  ok : Bool
deriving DecidableEq, Repr, Inhabited

/-- Tables in section order: headers, then values row-major; `ok` is false for one that breaks R76, and the next one stands
behind the values its header announces. One that runs past the section is the last. -/
def parseTables : Nat → List Byte → List RawTable
  | 0, _ => []
  | n + 1, bs =>
    let r := u8 bs 0
    let c := u8 bs 1
    let ok := decide (4 ≤ bs.length) && decide (2 ≤ r ∧ r ≤ 16 ∧ 2 ≤ c ∧ c ≤ 16) && u16 bs 2 == 0 &&
      decide (4 + 4 * (r * c) ≤ bs.length)
    let rest := if 4 + 4 * (r * c) ≤ bs.length then parseTables n (bs.drop (4 + 4 * (r * c))) else []
    ⟨r, c, if ok then wordsOf (slice bs 4 (4 * (r * c))) else [], ok⟩ :: rest

def pairsIn (img : List Byte) : List RawPair := (chunks 16 (sectionBytes img 3)).map parsePair

/-- The tables that COUNT announces; bytes of the section behind them are ignored (log 70). -/
def tablesIn (img : List Byte) : List RawTable :=
  parseTables (min (sectionOf img 4).count ((sectionOf img 4).len / 4 + 1)) (sectionBytes img 4)

/-- Check 7: BIASES, then PAIRS and TABLES. A pair is judged against its table when the table itself stands; a COUNT above the
limit names the record of that index (log 70). -/
def checkValues (img : List Byte) : Check := do
  let vs := varsOf img
  let ks := vs.map (·.k)
  let v := fun i => vs.getD i default
  let bs := sectionOf img 2
  failIf (bs.count != vs.length || bs.len != 4 * ks.sum) (bad 6 2)
  eachRecord (bad 6 2) (splitBy ks (wordsOf (sectionBytes img 2))) (fun _ l => l.any (fun w => !fpIsFinite w))
  let ps := pairsIn img
  let ts := tablesIn img
  eachRecord (bad 6 3) ps (fun n p =>
    !(decide (p.i < p.j ∧ p.j < vs.length)) ||
    (decide (0 < n) && (let q := ps.getD (n - 1) default; !(decide (q.i < p.i ∨ (q.i = p.i ∧ q.j < p.j))))) ||
    decide (3 < p.kind) || (p.kind != 3 && p.table != 0) || (p.kind == 0 && ((v p.i).k != 2 || (v p.j).k != 2)) ||
    (p.kind == 3 && (decide ((sectionOf img 4).count ≤ p.table) ||
      (ts[p.table]?).any (fun t => t.ok && (t.rows != (v p.i).k || t.cols != (v p.j).k)))) ||
    ((v p.i).clamped && (v p.j).clamped) || (p.kind != 3 && !fpIsFinite p.w))
  failIf (decide (2 ^ 20 < (sectionOf img 4).count)) (bad 6 4 (2 ^ 20))
  eachRecord (bad 6 4) ts (fun _ t => !t.ok || t.vals.any (fun w => !fpIsFinite w))
  failIf (ts.length != (sectionOf img 4).count) (bad 6 4 ts.length)
  let entries := (ps.map (fun p => if (v p.i).clamped || (v p.j).clamped then 1 else 2)).sum
  failIf (entries != u64 img 0x20) (bad 6)

def parseDense (sec b : List Byte) : Dense :=
  { aFirst := u32 b 0, aCount := u32 b 4, bFirst := u32 b 8, bCount := u32 b 12, fmt := u8 b 16, rows := u32 b 20, cols := u32 b 24,
    data := slice sec (u64 b 28) (u64 b 36) }

def denseIn (img : List Byte) : List Dense :=
  let sec := sectionBytes img 5
  (chunks 48 (sec.take (48 * (sectionOf img 5).count))).map (parseDense sec)

/-- Some group of stored vectors holds an invalid encoding (05 R154). -/
def anyBad (f : Nat) (data : List Byte) : Bool := (decodeGroups f data).any (·.bad)

/-- Every variable of a range has the same number of states. -/
def sameStates (vs : List Var) (first count : Nat) : Bool :=
  (span first count).all (fun i => (vs.getD i default).k == (vs.getD first default).k)

/-- Check 8, dense factors: one with an empty group is refused; padding elements are not looked at (log 70). -/
def checkDense (img : List Byte) : Check :=
  let vs := varsOf img
  let sec := sectionBytes img 5
  let n := (sectionOf img 5).count
  if 4096 < n then .error (bad 7 5 4096)
  else if sec.length < 48 * n then .error (bad 7 5 (sec.length / 48))
  else eachRecord (bad 7 5) (chunks 48 (sec.take (48 * n))) (fun _ b =>
    let d := parseDense sec b
    let ka := (vs.getD d.aFirst default).k
    let kb := (vs.getD d.bFirst default).k
    d.aCount == 0 || d.bCount == 0 || decide (vs.length < d.aFirst + d.aCount ∨ vs.length < d.bFirst + d.bCount) ||
    overlap d.aFirst d.aCount d.bFirst d.bCount || !isNarrow d.fmt || !allZero (slice b 17 3) || !allZero (slice b 44 4) ||
    !sameStates vs d.aFirst d.aCount || !sameStates vs d.bFirst d.bCount ||
    d.rows != d.aCount * ka || d.cols != roundUp (d.bCount * kb) 32 || decide (65536 < d.rows ∨ 65536 < d.cols) ||
    u64 b 36 != d.rows * narrowBytes d.fmt d.cols || decide (sec.length < u64 b 28 + u64 b 36) || anyBad d.fmt d.data)

/-- A layer descriptor (R79). -/
def parseLayer (sec b : List Byte) : Layer :=
  let out := u16 b 2
  { inWidth := u16 b 0 + 1, outWidth := out, fmt := u8 b 4, act := u8 b 5, data := slice sec (u64 b 8) (u64 b 16),
    bias := if u64 b 24 = 0 then [] else wordsOf (slice sec (u64 b 24) (4 * out)) }

/-- The layer breaks R65 or R79. -/
def layerBad (sec b : List Byte) : Bool :=
  let l := parseLayer sec b
  l.outWidth == 0 || decide (512 < l.outWidth) || !isNarrow l.fmt || decide (2 < l.act) || u16 b 6 != 0 ||
  u64 b 16 != l.outWidth * narrowBytes l.fmt l.inWidth || decide (sec.length < u64 b 8 + u64 b 16) ||
  (u64 b 24 != 0 && decide (sec.length < u64 b 24 + 4 * l.outWidth)) || l.bias.any (fun w => !fpIsFinite w) ||
  anyBad l.fmt l.data

/-- Neural factors in section order, each with whether it breaks its rules: one without output variables does, one without input
variables does not (log 70). -/
def parseNeural (vs : List Var) (sec : List Byte) : Nat → List Byte → List (Neural × Bool)
  | 0, _ => []
  | n + 1, bs =>
    let layers := u8 bs 10
    let ls := chunks 32 (slice bs 32 (32 * layers))
    let f : Neural := { inFirst := u32 bs 0, inCount := u32 bs 4, features := u16 bs 8, outFirst := u32 bs 12, outCount := u32 bs 16,
                        layers := ls.map (parseLayer sec) }
    let ks := fun first count => ((span first count).map (fun i => (vs.getD i default).k)).sum
    let fits := decide (32 + 32 * layers ≤ bs.length) && decide (1 ≤ layers ∧ layers ≤ 4)
    let bad_ := !fits || u8 bs 11 != 0 || !allZero (slice bs 20 12) || decide (256 < f.features) || f.outCount == 0 ||
      decide (vs.length < f.inFirst + f.inCount ∨ vs.length < f.outFirst + f.outCount) ||
      (span f.inFirst f.inCount).any (fun i => !(vs.getD i default).clamped) ||
      (span f.outFirst f.outCount).any (fun i => (vs.getD i default).clamped) ||
      ls.any (layerBad sec) || (f.layers.headD default).inWidth != ks f.inFirst f.inCount + f.features ||
      (List.zipWith (fun (a b : Layer) => b.inWidth != a.outWidth) f.layers (f.layers.drop 1)).any id ||
      (f.layers.getLastD default).outWidth != ks f.outFirst f.outCount
    if bad_ then [(f, true)] else (f, false) :: parseNeural vs sec n (bs.drop (32 + 32 * layers))

def neuralIn (img : List Byte) : List (Neural × Bool) :=
  let sec := sectionBytes img 6
  parseNeural (varsOf img) sec (min (sectionOf img 6).count (sec.length / 64 + 1)) sec

/-- Check 8, neural factors. -/
def checkNeural (img : List Byte) : Check := do
  let n := (sectionOf img 6).count
  failIf (decide (256 < n)) (bad 7 6 256)
  eachRecord (bad 7 6) (neuralIn img) (fun _ f => f.2)
  failIf ((neuralIn img).length != n) (bad 7 6 (neuralIn img).length)

/-! ### The coded model (R59, R69 to R71) -/

def parseBlock (b : List Byte) : Block :=
  { first := u32 b 0, count := u32 b 4, core := u8 b 8, stack := u8 b 9, addr := 0, size := 0 }

def blocksIn (img : List Byte) : List Block := (chunks 16 (sectionBytes img 7)).map parseBlock

/-- FLAGS. -/
def flagRelaxed (img : List Byte) : Bool := bitOf (u32 img 0x10) 0 == 1
def flagCode8 (img : List Byte) : Bool := bitOf (u32 img 0x10) 1 == 1

/-- Source values in the block order of R70: pair weights, tables, biases. -/
def pairSource (img : List Byte) : List Dyadic := ((pairsIn img).filter (fun p => p.kind != 3)).map (fun p => fpVal p.w)
def tableSource (img : List Byte) : List (List Dyadic) := (tablesIn img).map (fun t => t.vals.map fpVal)
def biasSource (img : List Byte) : List Dyadic := (wordsOf (sectionBytes img 2)).map fpVal

def pairCodes (img : List Byte) : List Coded := codeAll (codeMax (flagCode8 img)) (pairSource img)
def tableCodes (img : List Byte) : List (List Coded) := (tableSource img).map (codeAll (codeMax (flagCode8 img)))
def biasCodes (img : List Byte) : List Coded := codeAll 127 (biasSource img)

/-- Gives the pairs their codes in order; a TABLE pair takes none (R70). -/
def codedPairs : List RawPair → List Coded → List Pair
  | [], _ => []
  | p :: rest, cs =>
    if p.kind = 3 then ⟨p.i, p.j, p.kind, p.table, default⟩ :: codedPairs rest cs
    else ⟨p.i, p.j, p.kind, 0, cs.headD default⟩ :: codedPairs rest (cs.drop 1)

/-- The model that an image describes, before it is placed. -/
def modelOf (img : List Byte) : Model :=
  { gen := 0, digest := slice img 0x40 48, modelId := slice img 0x30 16, metadata := sectionBytes img 8, relaxed := flagRelaxed img, code8 := flagCode8 img,
    maxReplicas := u8 img 0x19, colours := u8 img 0x18, vars := varsOf img, biases := biasCodes img,
    pairs := codedPairs (pairsIn img) (pairCodes img),
    tables := List.zipWith (fun (t : RawTable) es => ⟨t.rows, t.cols, es⟩) (tablesIn img) (tableCodes img),
    dense := denseIn img, neural := (neuralIn img).map (·.1), blocks := blocksIn img, descAddr := 0, codedSize := 0, bad := false,
    placements := [], nextRun := 0, lists := [] }

/-- The scale errors (R73): pair weights, table entries, biases. -/
def scaleReport (img : List Byte) : List Byte :=
  (scaleError (pairSource img) (pairCodes img)).bytes ++
  (scaleError (tableSource img).flatten (tableCodes img).flatten).bytes ++
  (scaleError (biasSource img) (biasCodes img)).bytes

/-- Check 9: BLOCKS coverage, working size, state-file slots. A record with COUNT 0 is refused; BLOCKS that end before VAR_COUNT
name no record (log 70). -/
def checkBlocks (img : List Byte) (m : Model) : Check := do
  let starts := fun b => ((m.blocks.take b).map (·.count)).sum
  eachRecord (bad 8 7) (chunks 16 (sectionBytes img 7)) (fun n b =>
    let k := parseBlock b
    decide (4096 ≤ n) || k.first != starts n || k.count == 0 || decide (m.vars.length < k.first + k.count) ||
    !(decide (k.core < 16 ∨ k.core = 0xFF)) || !(decide (k.stack < 8 ∨ k.stack = 0xFF)) || !allZero (slice b 10 6))
  failIf (starts m.blocks.length != m.vars.length) (bad 8 7)
  eachRecord (bad 8 7) m.blocks (fun n _ => decide (2 ^ 25 < workingSize m n) || decide (1048575 < stateSlots m n))

/-- Check 10: lists of at most 2^20 entries; the record named adds the first entry beyond (11 R344). -/
def checkLists (m : Model) : Check :=
  let upTo := fun n i => if isLatent m i then ((m.pairs.take (n + 1)).filter (fun p => p.i == i || p.j == i)).length else 0
  if m.pairs.length ≤ 2 ^ 20 then .ok ()
  else eachRecord { bad 9 3 with st := .lengthLimit } m.pairs (fun n p =>
    decide (2 ^ 20 < upTo n p.i) || decide (2 ^ 20 < upTo n p.j))

/-- Check 11: the colouring, unless RELAXED (R67). -/
def checkColours (m : Model) : Check := do
  if m.relaxed then .ok ()
  else
    eachRecord ⟨.colourConflict, 0x0A, 3, 0⟩ m.pairs (fun _ p => pairConflict m p)
    eachRecord ⟨.colourConflict, 0x0A, 5, 0⟩ m.dense (fun _ d => denseConflict m d)

/-- Checks 2 to 11 of R83 over the bytes read: the model, or the first failure. -/
def checkImage (img : List Byte) (region loaded : Nat) : Except LoadErr Model := do
  checkHeader img region
  checkDigest img
  checkDirectory img
  checkCounts img loaded
  checkVars img
  checkValues img
  checkDense img
  checkNeural img
  let m := modelOf img
  checkBlocks img m
  checkLists m
  checkColours m
  .ok m

end Sys2Proof.Machine
end

