-- ==== Sys2Proof/Machine/Drbg.lean ====
section
/-!
DEFINITION. The CTR_DRBG of the entropy block, AES-256 with the derivation function, and the health tests of its sources (07 R238 to
R242): SP 800-90A, SP 800-90B and FIPS 197 (PRESUMED: the manual names the standards and gives none of their text; log 11). The
substitution of AES is computed from its definition as an inverse and an affine map.
-/

namespace Sys2Proof.Machine

/-! ### AES-256 -/

/-- Doubling in the field of 256 elements: modulo x^8 + x^4 + x^3 + x + 1. -/
def fieldDouble (x : Byte) : Byte := x <<< 1 ^^^ (if x.msb then 0x1B else 0)

/-- The product in that field: doublings from the factor's highest bit on. -/
def fieldMul (x y : Byte) : Byte :=
  (List.range 8).foldr (fun k acc => fieldDouble acc ^^^ (if y.getLsbD k then x else 0)) 0

/-- The inverse, 0 for 0: the product of the squares x^2, x^4 to x^128. -/
def fieldInverse (x : Byte) : Byte :=
  ((List.range 7).foldl (fun (p : Byte × Byte) _ =>
    let sq := fieldMul p.2 p.2
    (fieldMul p.1 sq, sq)) (1, x)).1

/-- The substitution of one byte. -/
def aesSubstitute (x : Byte) : Byte :=
  let y := fieldInverse x
  (List.range 5).foldl (fun acc k => acc ^^^ y.rotateLeft k) 0x63

def xorBytes (a b : List Byte) : List Byte := List.zipWith (· ^^^ ·) a b

/-- The key schedule from the eight words of the key on: `n` more words of four bytes; the newest word stands first. -/
def aesExpand : Nat → List (List Byte) → List (List Byte)
  | 0, ws => ws
  | n + 1, ws =>
    let last := ws.headD []
    let step :=
      if ws.length % 8 = 0 then
        xorBytes ((last.drop 1 ++ last.take 1).map aesSubstitute) [BitVec.ofNat 8 (2 ^ (ws.length / 8 - 1)), 0, 0, 0]
      else if ws.length % 8 = 4 then last.map aesSubstitute
      else last
    aesExpand n (xorBytes (ws.getD 7 []) step :: ws)

/-- The fifteen round keys of a 32-byte key. -/
def aesKeys (key : List Byte) : List (List Byte) := chunks 16 (aesExpand 52 (chunks 4 key).reverse).reverse.flatten

/-- Byte k of a block moves along its row, by as many columns as its row's number. -/
def aesShift (b : List Byte) : List Byte := (List.range 16).map (fun k => b.getD ((k + 4 * (k % 4)) % 16) 0)

/-- A column times the circulant of 2, 3, 1, 1. -/
def aesMix (col : List Byte) : List Byte :=
  (List.range 4).map (fun r =>
    let a := fun k => col.getD ((r + k) % 4) 0
    fieldDouble (a 0 ^^^ a 1) ^^^ a 1 ^^^ a 2 ^^^ a 3)

/-- One block of 16 bytes enciphered. -/
@[irreducible] def aes256 (key block : List Byte) : List Byte :=
  let ks := aesKeys key
  let sub := fun b => aesShift (b.map aesSubstitute)
  let mid := ((ks.drop 1).take 13).foldl (fun b k => xorBytes k ((chunks 4 (sub b)).flatMap aesMix)) (xorBytes block (ks.headD []))
  xorBytes (ks.getD 14 []) (sub mid)

/-! ### CTR_DRBG -/

/-- `n` blocks of output: V counts up before each. -/
def drbgBlocks : Nat → DrbgState → List Byte × DrbgState
  | 0, d => ([], d)
  | n + 1, d =>
    let d := { d with v := beBytes 16 ((beNat d.v + 1) % 2 ^ 128) }
    let r := drbgBlocks n d
    (aes256 d.key d.v ++ r.1, r.2)

/-- The update with 48 bytes of provided data. -/
def drbgUpdate (d : DrbgState) (data : List Byte) : DrbgState :=
  let x := xorBytes (drbgBlocks 3 d).1 data
  ⟨x.take 32, x.drop 32⟩

/-- Chaining over the blocks of a string of bytes. -/
def chainBlocks (key m : List Byte) : List Byte := (chunks 16 m).foldl (fun c b => aes256 key (xorBytes c b)) (zeros 16)

/-- The derivation function, for 48 bytes. -/
def drbgDerive (m : List Byte) : List Byte :=
  let body := beBytes 4 m.length ++ beBytes 4 48 ++ m ++ [0x80]
  let body := body ++ zeros ((16 - body.length % 16) % 16)
  let key := (List.range 32).map (BitVec.ofNat 8)
  let t := (List.range 3).flatMap (fun i => chainBlocks key (beBytes 4 i ++ zeros 12 ++ body))
  let x1 := aes256 (t.take 32) (t.drop 32)
  let x2 := aes256 (t.take 32) x1
  x1 ++ x2 ++ aes256 (t.take 32) x2

/-- The zeroised state. -/
def drbgZero : DrbgState := {}

/-- Instantiation from entropy input, nonce and personalisation string; and the reseed of a state. -/
@[irreducible] def drbgInstantiate (entropy nonce person : List Byte) : DrbgState :=
  drbgUpdate drbgZero (drbgDerive (entropy ++ nonce ++ person))
@[irreducible] def drbgReseed (d : DrbgState) (entropy : List Byte) : DrbgState := drbgUpdate d (drbgDerive entropy)

/-- A generate call for `n` bytes. -/
@[irreducible] def drbgGenerate (d : DrbgState) (n : Nat) : List Byte × DrbgState :=
  let r := drbgBlocks ((n + 15) / 16) d
  (r.1.take n, drbgUpdate r.2 (zeros 48))

/-! ### Health tests (R238, R239) -/

/-- The cutoffs of a source: of its repetition count test, and of its adaptive proportion test. -/
def healthCutoffs (n : Nat) : Nat × Nat := if n < 4 then (41, 410) else if n < 6 then (26, 348) else (24, 329)

/-- Assessed min-entropy of a source's samples, in tenths of a bit. -/
def sourceEntropy (n : Nat) : Nat := if n < 4 then 5 else if n < 6 then 8 else 9

/-- Samples in the window of the adaptive proportion test. -/
def proportionWindow : Nat := 512

/-- Both tests after one more sample. -/
def testSample (t : SourceTests) (x : Bool) : SourceTests :=
  let run := if t.run ≠ 0 ∧ t.last = x then t.run + 1 else 1
  if t.pos = 0 then { last := x, run := run, first := x, pos := 1, count := 1 }
  else { t with last := x, run := run, pos := (t.pos + 1) % proportionWindow, count := t.count + ofBool (x == t.first) }

/-- The test that a source's samples fail, if one does: 0 repetition count, 1 adaptive proportion. -/
def testFailed (n : Nat) (t : SourceTests) : Option Nat :=
  if (healthCutoffs n).1 ≤ t.run then some 0 else if (healthCutoffs n).2 ≤ t.count then some 1 else none

/-- The tests of a source over samples, up to the first that fails one. -/
def runTests (n : Nat) : SourceTests → List Bool → SourceTests × Option Nat
  | t, [] => (t, none)
  | t, x :: rest =>
    let t := testSample t x
    match testFailed n t with
    | some k => (t, some k)
    | none => runTests n t rest

end Sys2Proof.Machine
end

