-- ==== Sys2Proof/Machine/Mesh.lean ====
section
/-!
DEFINITION. The mesh (01 R20 to R26, R42 to R46): the unit at each node, the halves and the seam, links, routes, the service
port, the clocks that drive the units, and the slot table.
-/

namespace Sys2Proof.Machine

/-! ### Nodes and halves (R20, R21) -/

/-- A mesh node: column and row. -/
abbrev Node := Nat × Nat

/-- What a node holds (R20). -/
inductive MeshUnit
  | core (p : Nat) | hbm (n : Nat) | leash (n : Nat)
deriving DecidableEq, Repr, Inhabited

/-- The table of R20, row by row. -/
def meshTable : List (List MeshUnit) :=
  [[.hbm 0, .core 0, .core 1, .core 2, .core 3, .hbm 2],
   [.hbm 1, .core 4, .leash 0, .core 5, .core 6, .hbm 3],
   [.leash 1, .core 7, .core 8, .core 9, .core 10, .leash 2],
   [.hbm 4, .core 11, .core 12, .leash 3, .core 13, .hbm 6],
   [.hbm 5, .core 14, .core 15, .core 16, .core 17, .hbm 7]]

/-- The nodes, row by row. -/
def meshNodes : List Node := (List.range 30).map (fun k => (k % 6, k / 6))

/-- The unit at a node. -/
def unitAt (n : Node) : Option MeshUnit := (meshTable[n.2]?).bind (fun row => row[n.1]?)

/-- The node of a unit. -/
def nodeOf (u : MeshUnit) : Node := (meshNodes.find? (fun n => unitAt n == some u)).getD (0, 0)

/-- The half of a node: 0 north, 1 south (R21). -/
def halfOfNode (n : Node) : Nat := if n.2 < 2 ∨ (n.2 = 2 ∧ n.1 < 3) then 0 else 1

/-- The half whose clocks drive a unit (R21, R44). -/
def halfOfUnit (u : MeshUnit) : Nat := halfOfNode (nodeOf u)

/-- The half of a physical core. -/
def halfOfCore (p : Nat) : Nat := halfOfUnit (.core p)

/-! ### Links and the seam (R22, 14 R441) -/

/-- The nodes at the ends of mesh link k, the lower one in node order first. -/
def linkEnds (k : Nat) : Node × Node :=
  if k < 25 then ((k % 5, k / 5), (k % 5 + 1, k / 5)) else (((k - 25) % 6, (k - 25) / 6), ((k - 25) % 6, (k - 25) / 6 + 1))

/-- A link crosses the seam: its ends lie in different halves. -/
def crossesSeam (k : Nat) : Bool := halfOfNode (linkEnds k).1 != halfOfNode (linkEnds k).2

/-- The links across the seam (R22): seven. -/
def seamLinks : List Nat := (List.range 49).filter crossesSeam

/-- The physical core at a node. -/
def coreAt (n : Node) : Option Nat :=
  match unitAt n with
  | some (.core p) => some p
  | _ => none

/-- The cores at the ends of link k, in ascending order. -/
def linkCores (k : Nat) : List Nat := [coreAt (linkEnds k).1, coreAt (linkEnds k).2].filterMap id

/-! ### Routes (R26) -/

/-- A hop: a link and its direction, 0 toward the higher node. -/
abbrev Hop := Nat × Nat

/-- The numbers from `a` to `b`, both included, rising or falling. -/
def walk (a b : Nat) : List Nat := if a ≤ b then span a (b - a + 1) else (span b (a - b + 1)).reverse

/-- The nodes of the route along the row first, and along the column first. -/
def rowFirst (a b : Node) : List Node :=
  (walk a.1 b.1).map (fun c => (c, a.2)) ++ ((walk a.2 b.2).drop 1).map (fun r => (b.1, r))
def columnFirst (a b : Node) : List Node :=
  (walk a.2 b.2).map (fun r => (a.1, r)) ++ ((walk a.1 b.1).drop 1).map (fun c => (c, b.2))

/-- How often a route crosses the seam. -/
def crossings (ns : List Node) : Nat := (ns.zip (ns.drop 1)).countP (fun e => halfOfNode e.1 != halfOfNode e.2)

/-- The nodes of the route from one node to another: row first, unless that route would cross the seam twice (R26). -/
def routeNodes (a b : Node) : List Node := if 2 ≤ crossings (rowFirst a b) then columnFirst a b else rowFirst a b

/-- The hop from a node to a neighbour. -/
def hopOf (a b : Node) : Hop :=
  let low := if a.1 + a.2 ≤ b.1 + b.2 then a else b
  (if a.2 = b.2 then 5 * low.2 + low.1 else 25 + 6 * low.2 + low.1, if low = a then 0 else 1)

/-- The hops of a route. -/
def routeHops (a b : Node) : List Hop :=
  let ns := routeNodes a b
  (ns.zip (ns.drop 1)).map (fun e => hopOf e.1 e.2)

/-- The router at which the Handler's service port moves bulk data (R42). -/
def servicePort : Node := (0, 2)

/-- The hops of the Handler's bulk data to a unit: they use the service slot only (R24, R42). -/
def serviceHops (u : MeshUnit) : List Hop := routeHops servicePort (nodeOf u)

/-! ### Clock domains (R41, R44, R45) -/

/-- The clocks of the module (R44). -/
inductive Clock
  | core (half : Nat) | mesh (half : Nat) | hclk | aon | rtc | hbmPhy (stack : Nat) | leashRef (port : Nat) | ethRef
deriving DecidableEq, Repr

/-- The clock that drives a mesh unit: a core runs on CORE_CLK of its half, a controller or link layer on MESH_CLK. -/
def clockOf (u : MeshUnit) : Clock :=
  match u with
  | .core _ => .core (halfOfUnit u)
  | _ => .mesh (halfOfUnit u)

/-- The clock from which the Handler runs: HCLK in Run and Doze, and again once an exit has begun; AON_CLK in Nap and Den (R41). -/
def handlerClock (s : State) : Clock :=
  if s.power.st == .run || s.power.st == .doze || s.power.exiting then .hclk else .aon

/-- Frequency in Hz with both halves at step 0 (R44); a half's clocks share one PLL (R45). The table gives the HBM PHY clock
by its pin rate only. -/
def clockHz : Clock → Option Nat
  | .core _ => some 1500000000
  | .mesh _ => some 1500000000
  | .hclk => some 1000000000
  | .aon => some 50000000
  | .rtc => some 32768
  | .hbmPhy _ => none
  | .leashRef _ => some 156250000
  | .ethRef => some 156250000

/-! ### The slot table (R24, R25; log 69) -/

/-- Slots of a link direction in a frame, the service slot among them. -/
def frameSlots : Nat := 512

/-- The service slot: frame cycle 0, lane 0. It carries only Handler and Groomer traffic. -/
def serviceSlot : Nat := 0

/-- The slots of a hop that carry a transfer already. -/
def slotsTaken (table : List MeshSlot) (h : Hop) : List Nat :=
  (table.filter (fun e => e.link == h.1 && e.dir == h.2)).map (·.slot)

/-- The lowest free slot of a hop; the service slot is never assigned. -/
def freeSlot (table : List MeshSlot) (h : Hop) : Option Nat :=
  let taken := slotsTaken table h
  (span (serviceSlot + 1) (frameSlots - 1)).find? (fun k => !taken.contains k)

/-- Gives a transfer one slot on a hop, when one is free. -/
def assignHop (o : Owner) (src dst : Node) (table : List MeshSlot) (h : Hop) : List MeshSlot :=
  match freeSlot table h with
  | some k => ⟨h.1, h.2, k, o, src, dst⟩ :: table
  | none => table

/-- Gives each transfer its slots along its route. -/
def assignSlots (o : Owner) (table : List MeshSlot) (transfers : List (Node × Node)) : List MeshSlot :=
  transfers.foldl (fun t e => (routeHops e.1 e.2).foldl (assignHop o e.1 e.2) t) table

/-- An owner's slots are released. -/
def releaseSlots (table : List MeshSlot) (o : Owner) : List MeshSlot := table.filter (fun e => !(e.owner == o))

/-- Releases an owner's slots and assigns those of its transfers now: other owners keep theirs (R25, 14 R432 step 5). -/
def giveSlots (s : State) (o : Owner) (transfers : List (Node × Node)) : State :=
  { s with slots := assignSlots o (releaseSlots s.slots o) transfers }

def dropSlots (s : State) (o : Owner) : State := { s with slots := releaseSlots s.slots o }

/-! ### Schedules (R32, R33; log 71) -/

/-- Two engines use one bank port in one cycle. -/
def bankConflict (sched : List Issue) : Bool :=
  sched.any (fun x => sched.any (fun y => x.cycle == y.cycle && x.engine != y.engine && x.banks &&& y.banks != 0))

/-- The cycle of every 64 that a bank keeps for service (R33). -/
def serviceCycle : Nat := 63

/-- The schedule that the Handler builds: of every 64 cycles, engine e of the core has those that leave remainder e modulo 5, on
each bank port, and none has the service cycle. -/
def builtSchedule : List Issue :=
  (List.range serviceCycle).map (fun c => ⟨c, 2 ^ 64 - 1, c % 5⟩)

/-- The memories of a core's sequencer and accumulators in bytes, and its hardware generators (R31). -/
def scheduleMemory : Nat := 0x20000
def accumulatorFile : Nat := 0x40000
def hardwareGens : Nat := 64

/-- The sequencer of a core takes a schedule, or refuses one with a bank conflict or beyond its memory: it then holds none of that
owner. -/
def loadSchedule (o : Owner) (sched : List Issue) (s : State) (p : Nat) : State :=
  modCore s p (fun c =>
    let others := c.schedules.filter (fun e => !(e.1 == o))
    { c with schedules := if bankConflict sched || decide (scheduleMemory < 8 * (sched.length + (others.map (·.2.length)).sum)) then others else others ++ [(o, sched)] })

/-- The schedules of an owner on the cores named, and on no other one. -/
def giveSchedules (s : State) (o : Owner) (cores : List Nat) : State :=
  let s := { s with cores := s.cores.map (fun e => (e.1, { e.2 with schedules := e.2.schedules.filter (fun x => !(x.1 == o)) })) }
  each cores s (loadSchedule o builtSchedule)

/-- The slots and the schedules of an owner's work (R25, R32, 05 R171): assigned anew, or released. -/
def giveWork (s : State) (o : Owner) (cores : List Nat) (transfers : List (Node × Node)) : State :=
  giveSchedules (giveSlots s o transfers) o cores

def dropWork (s : State) (o : Owner) : State := giveSchedules (dropSlots s o) o []

/-- Both ways between each core and each controller named. -/
def coreStacks (cores hbms : List Nat) : List (Node × Node) :=
  cores.flatMap (fun p => hbms.flatMap (fun n =>
    [(nodeOf (.hbm n), nodeOf (.core p)), (nodeOf (.core p), nodeOf (.hbm n))]))

/-- Every core named to every other one. -/
def coreToCore (cores : List Nat) : List (Node × Node) :=
  cores.flatMap (fun p => (cores.filter (· != p)).map (fun q => (nodeOf (.core p), nodeOf (.core q))))

/-- Transfers whose nodes and routes lie in both halves (09 R292). -/
def spansHalves (transfers : List (Node × Node)) : Bool :=
  let hs := transfers.flatMap (fun e => (routeNodes e.1 e.2).map halfOfNode)
  hs.contains 0 && hs.contains 1

end Sys2Proof.Machine
end

