-- ==== Sys2Proof/Machine/Placement.lean ====
section
/-!
DEFINITION. Where models and contexts run: placements, the cores of a run, resident shares and their eviction (02 R80, 04 R147, 08 R267,
R271 to R273).
-/

namespace Sys2Proof.Machine

/-! ### Placements (R80, R267; log 17) -/

/-- Logical cores in use, ascending. -/
def activeLogical (map : List Byte) : List Nat := (List.range 16).filter (fun l => (physOfMap map l).isSome)

/-- W and P. -/
def widthOf (blocks : Nat) : Nat := min blocks 15
def placementCount (blocks cores : Nat) : Nat := cores / widthOf blocks

/-- Placement 0: a block that names an active core has it; the Handler gives each other block the lowest active core that no
record names and no block of its 15 has been given, or failing that the lowest that no block of its 15 has. -/
def placeBlocks (cores named : List Nat) : List Block → List Nat → List Nat
  | [], out => out
  | b :: rest, out =>
    let here := out.drop (out.length / 15 * 15)
    let c := if cores.contains b.core then b.core
      else ((cores.filter (fun l => !named.contains l && !here.contains l)) ++
        cores.filter (fun l => !here.contains l)).headD 0
    placeBlocks cores named rest (out ++ [c])

/-- The cores of a placement, ascending: those its blocks have, and the lowest free ones up to W. -/
def withSpare (cores : List Nat) (w : Nat) (place : List Nat) : List Nat :=
  let used := sortBy id place.eraseDups
  sortBy id (used ++ (cores.filter (fun l => !used.contains l)).take (w - used.length))

/-- The placements of blocks over the active cores: placement 0 by the records, the others W further cores each, ascending. -/
def placementsOf (map : List Byte) (blocks : List Block) : List (List Nat) :=
  let cores := activeLogical map
  let w := widthOf blocks.length
  let p0 := placeBlocks cores (blocks.map (·.core)) blocks []
  let rest := cores.filter (fun l => !(withSpare cores w p0).contains l)
  p0 :: (chunks w rest).take (placementCount blocks.length cores.length - 1)

/-- The cores of placement `p`. -/
def placementCores (s : State) (m : Model) (p : Nat) : List Nat :=
  withSpare (activeLogical s.map) (widthOf m.blocks.length) (m.placements.getD p [])

/-- One subset's cores: the lowest-numbered block keeps a core, another takes the lowest core of the placement that no block
of the subset uses (R80, R147). -/
def spread (all : List Nat) (cs : List Nat) : List Nat :=
  let keeps := fun i => !(cs.take i).contains (cs.getD i 0)
  let kept := ((List.range cs.length).filter keeps).map (fun i => cs.getD i 0)
  (List.range cs.length).foldl (fun out i =>
    out ++ [if keeps i then cs.getD i 0
      else ((all.filter (fun l => !kept.contains l && !out.contains l)).headD 0)]) []

/-- The logical core of each block in a run of placement `p` with subsets of `n` blocks. -/
def runCores (s : State) (m : Model) (p n : Nat) : List Nat :=
  (chunks n (m.placements.getD p [])).flatMap (spread (placementCores s m p))

/-! ### Shares in scratchpad (R273) -/

/-- The working sizes of the shares resident in a physical core. -/
def residentSize (s : State) (p : Nat) : Nat :=
  ((coreState s p).shares.map (fun h => match lookup s.models h.model with
    | some m => workingSize m h.block
    | none => 0)).sum

/-- A core holds a block's share. -/
def hasShare (s : State) (i b p : Nat) : Bool := (coreState s p).shares.any (fun h => h.model == i && h.block == b)

/-- Blocks with the physical core that a list of logical cores gives them. -/
def blockCores (s : State) (cs : List Nat) : List (Nat × Nat) :=
  (List.range cs.length).filterMap (fun b => (physOf s (cs.getD b 0)).map (fun p => (b, p)))

/-- The shares that are not resident yet. -/
def absentShares (s : State) (i : Nat) (bc : List (Nat × Nat)) : List (Nat × Nat) := bc.filter (fun e => !hasShare s i e.1 e.2)

/-- The absent shares fit beside the resident ones, 32 MiB of working sizes on each core. -/
def sharesFit (s : State) (m : Model) (absent : List (Nat × Nat)) : Bool :=
  (List.range 18).all (fun p => decide (residentSize s p +
    ((absent.filter (fun e => e.2 == p)).map (fun e => workingSize m e.1)).sum ≤ 2 ^ 25))

/-! ### Runs on cores (R271, R272) -/

/-- The model of a context. -/
def ctxModel (s : State) (c : Ctx) : Model := lookupD s.models c.model default

/-- A field written as 0 takes its default. -/
def orElse (v d : Nat) : Nat := if v = 0 then d else v

/-- The subset size of a run's parameters (11 R351). -/
def pSubset (p : List Byte) : Nat := orElse (u8 p 6) 15

def modelAt (s : State) (mi : Nat) : Model := lookupD s.models mi default

def listAt (s : State) (mi place : Nat) : List Nat := (modelAt s mi).lists.getD place []

/-- A context sits in a seat. -/
def seated (s : State) (i : Nat) : Bool := (lookup s.ctxs i).any (fun c => c.seat.isSome)

/-- Contexts of a list that wait. -/
def waitingIn (s : State) (mi place : Nat) : List Nat := (listAt s mi place).filter (fun i => !seated s i)

/-- Blocks and physical cores of a run of a context on a placement. -/
def runBlocks (s : State) (c : Ctx) (place : Nat) : List (Nat × Nat) :=
  blockCores s (runCores s (ctxModel s c) place (pSubset c.data.params))

/-- The logical cores of a run. -/
def runLogical (s : State) (c : Ctx) (place : Nat) : List Nat := runCores s (ctxModel s c) place (pSubset c.data.params)

/-- What a reader outside the seat sees: the last boundary (R128, R270). -/
def ctxNow (c : Ctx) : CtxData :=
  match c.seat with
  | some seat => seat.data
  | none => c.data

/-! ### Eviction (R273) -/

/-- A resident share is idle: no context of its model waits or sits in a placement that has the core. -/
def idleShare (s : State) (p : Nat) (h : ResShare) : Bool :=
  match lookup s.models h.model with
  | none => true
  | some m => (List.range m.lists.length).all (fun q =>
      (m.lists.getD q []).isEmpty || !((placementCores s m q).any (fun l => physOf s l == some p)))

/-- The least recently used idle share of a core. -/
def oldestIdle (s : State) (p : Nat) : Option ResShare :=
  match (coreState s p).shares.filter (idleShare s p) with
  | [] => none
  | h :: rest => some (rest.foldl (fun a b => if b.used < a.used then b else a) h)

/-- Evicts idle shares of a core until `need` bytes of working size fit; none when they cannot. -/
def makeRoom : Nat → State → Nat → Nat → Option State
  | 0, s, p, need => if residentSize s p + need ≤ 2 ^ 25 then some s else none
  | n + 1, s, p, need =>
    if residentSize s p + need ≤ 2 ^ 25 then some s
    else match oldestIdle s p with
    | none => none
    | some h => makeRoom n (modCore s p (fun c => { c with shares := eraseFirst (fun x => x == h) c.shares })) p need

/-- Room for every absent share, core by core. -/
def roomFor (s : State) (m : Model) (absent : List (Nat × Nat)) : Option State :=
  (absent.map (·.2)).eraseDups.foldl (fun (acc : Option State) p =>
    acc.bind (fun s => makeRoom (coreState s p).shares.length s p
      ((absent.filter (fun e => e.2 == p)).map (fun e => workingSize m e.1)).sum)) (some s)

/-- A model share is being replaced: the run at the head of a list waits for an absent share, and idle shares can make room for it
(R273, R283; log 76). -/
def evicting (s : State) : Bool :=
  s.models.any (fun e => (List.range e.2.lists.length).any (fun q =>
    match (waitingIn s e.1 q).head?.bind (lookup s.ctxs) with
    | none => false
    | some c =>
      let absent := absentShares s e.1 (runBlocks s c q)
      !absent.isEmpty && (roomFor s e.2 absent).isSome))

end Sys2Proof.Machine
end

