-- ==== Sys2Proof/Machine/TensorShape.lean ====
section
/-!
DEFINITION. Tensor programs and fences as their commands give them: tensors, steps, tiles and the cores that run them, and the work
that a fence includes (05 R152, R165 to R168, R190, R191, 06 R199, R209, R210).
-/

namespace Sys2Proof.Machine

/-! ### Tensor descriptors (R152, R166, R199) -/

/-- The descriptor in 32 bytes. -/
def tensorOf (b : List Byte) : Tensor :=
  { addr := u64 b 0, kLen := u32 b 8, vectors := u32 b 12, fmt := u8 b 16, id := u16 b 18, stride := u32 b 20 }

/-- Bytes of one vector. -/
def vecBytes (t : Tensor) : Nat :=
  if t.fmt = 8 then 8 + 8 * t.kLen else if t.fmt = 7 then 4 * t.kLen else narrowBytes t.fmt t.kLen

/-- Bytes from one vector's start to the next. -/
def vecStride (t : Tensor) : Nat := if t.stride = 0 then roundUp (vecBytes t) 64 else t.stride

/-- The address of vector v. -/
def vecAddr (t : Tensor) (v : Nat) : Nat := t.addr + v * vecStride t

/-- Bytes that the tensor occupies, in whole code words. -/
def tensorSize (t : Tensor) : Nat := (t.vectors - 1) * vecStride t + roundUp (vecBytes t) 8

/-- A field of a descriptor lies outside its range; a vector without elements is outside it too (log 48). -/
def tensorBad (t : Tensor) : Bool :=
  t.addr % 64 != 0 || t.kLen == 0 || (isNarrow t.fmt && t.kLen % 32 != 0) || t.vectors == 0 || decide (2 ^ 20 < t.vectors) ||
  t.fmt == 0 || decide (8 < t.fmt) || t.stride % 64 != 0 || !inMap t.addr (tensorSize t)

/-- Reserved bytes of a descriptor that are not 0. -/
def tensorReserved (b : List Byte) : Bool := u8 b 17 != 0 || u64 b 24 != 0

def sameShape (a b : Tensor) : Bool := a.kLen == b.kLen && a.vectors == b.vectors

def tensorsOverlap (a b : Tensor) : Bool := overlap a.addr (tensorSize a) b.addr (tensorSize b)

/-! ### Step descriptors (R167, R206) -/

/-- The step in 64 bytes. -/
def stepOf (b : List Byte) : TStep :=
  { op := u8 b 0, acc := u8 b 1, round := u8 b 2, a := u16 b 4, b := u16 b 6, c := u16 b 8, cShadow := u16 b 10,
    aShadow := u16 b 12, bShadow := u16 b 14, preload := u16 b 16, outStage := u16 b 18, outScale := w32 b 20,
    sentN := u16 b 24, sentPhase := u16 b 26, tileN := u16 b 28, coreMask := u16 b 30, roundSeed := w64 b 32 }

/-- The tensor of an index; 0xFFFF means none. -/
def tensorAt (ts : List Tensor) (i : Nat) : Option Tensor := if i = 0xFFFF then none else ts[i]?

/-- ACT and BIAS_LATE of OUT_STAGE. -/
def actOf (o : Nat) : Nat := o % 4
def biasLate (o : Nat) : Bool := bitOf o 2 == 1

def outStageBad (o : Nat) : Bool := actOf o == 3 || decide (8 ≤ o)

/-- A step runs in GN5 compatibility mode (R212). -/
def stepGn5 (gn5 : Bool) (t : TStep) : Bool := gn5 && t.acc == 1

/-- The tile widths allowed (R190, R191, R212). -/
def widthsOf (tree gn5 : Bool) (t : TStep) : List Nat :=
  if stepGn5 gn5 t then [64] else if t.acc = 0 ∨ tree then [64, 128, 256] else [64, 128, 256, 512]

/-- Elements per vector, or rows M, of the output, and its vectors N. -/
def outRows (ts : List Tensor) (t : TStep) : Nat :=
  ((tensorAt ts t.a).map (fun a => if t.op = 0 then a.vectors else a.kLen)).getD 0
def outCols (ts : List Tensor) (t : TStep) : Nat :=
  ((tensorAt ts (if t.op = 0 then t.b else t.a)).map (·.vectors)).getD 0

/-- The tile width: TILE_N, or the largest allowed width that does not exceed N rounded up to a multiple of 64 (R191). -/
def tileWidth (tree gn5 : Bool) (ts : List Tensor) (t : TStep) : Nat :=
  if t.tileN ≠ 0 then t.tileN
  else ((widthsOf tree gn5 t).filter (fun w => decide (w ≤ roundUp (outCols ts t) 64))).getLastD 64

/-- Columns and number of the tiles (R168). -/
def tileCols (tree gn5 : Bool) (ts : List Tensor) (t : TStep) : Nat :=
  (outCols ts t + tileWidth tree gn5 ts t - 1) / tileWidth tree gn5 ts t
def tileCount (tree gn5 : Bool) (ts : List Tensor) (t : TStep) : Nat :=
  (outRows ts t + 127) / 128 * tileCols tree gn5 ts t

/-- Output tiles that a Field Engine holds at a time, by their width: ACC48, FP32 in the canonical-tree or in another order (R190). -/
def tilesHeld (acc48 tree : Bool) (w : Nat) : Nat :=
  match w with
  | 64 => if acc48 then 5 else if tree then 4 else 8
  | 128 => if acc48 then 2 else if tree then 2 else 4
  | 256 => if acc48 then 1 else if tree then 1 else 2
  | _ => if acc48 || tree then 0 else 1

/-- S, the group products of a slice: 32 for two-bit operands, 16 for four-bit, 4 when either is eight-bit (R148, 06 R187). -/
def sliceBlocks (fa fb : Nat) : Nat :=
  if fmtBits fa = 8 ∨ fmtBits fb = 8 then 4 else if fmtBits fa = 4 ∨ fmtBits fb = 4 then 16 else 32

/-- WIDTH of FE_STATUS for the operands of a pass (R148, R176). -/
def widthCode (fa fb : Nat) : Nat :=
  match sliceBlocks fa fb with
  | 32 => 2
  | 16 => 1
  | _ => 0

/-! ### The core of a tile (R168) -/

/-- The logical cores of a mask, ascending; 0 means all active. -/
def maskCores (s : State) (mask : Nat) : List Nat :=
  (List.range 16).filter (fun l => if mask = 0 then (physOf s l).isSome else bitOf mask l == 1)

/-- The core of tile t: the t'th of the mask modulo their number, or the next active core of the mask; any active core when the
mask has lost its last one (log 48). -/
def tileCore (s : State) (mask t : Nat) : Nat :=
  let cs := maskCores s mask
  let k := t % max 1 cs.length
  ((cs.drop k ++ cs.take k ++ List.range 16).find? (fun l => (physOf s l).isSome)).getD 0

/-- The physical core of tile t. -/
def tilePhys (s : State) (mask t : Nat) : Nat := (physOf s (tileCore s mask t)).getD 0

/-! ### The program in progress -/

def findProg (s : State) (r : Req) : Option Prog := s.progs.find? (fun p => p.r == r)

def setProg (s : State) (p : Prog) : State := { s with progs := s.progs.map (fun q => if q.r == p.r then p else q) }

/-- The step in progress, its tile width and number of tiles. -/
def curStep (p : Prog) : TStep := p.steps.getD p.cur default
def curWidth (p : Prog) : Nat := tileWidth p.tree p.gn5 p.tensors (curStep p)
def curTiles (p : Prog) : Nat := tileCount p.tree p.gn5 p.tensors (curStep p)

/-! ### The fence (R209, R210) -/

/-- The logical cores that a program in progress still has tiles on. -/
def progCores (s : State) (p : Prog) : List Nat :=
  (List.range (min 16 (curTiles p - p.tile))).map (fun k => tileCore s (curStep p).coreMask (p.tile + k)) ++
  (p.steps.drop (p.cur + 1)).flatMap (fun t =>
    (List.range (min 16 (tileCount p.tree p.gn5 p.tensors t))).map (tileCore s t.coreMask))

/-- The work of a taken command still has products to come, or results to write, on one of the cores. -/
def worksOn (s : State) (cores : List Nat) (t : Taken) : Bool :=
  if t.opcode = 0x50 then (findProg s t.r).any (fun p => (progCores s p).any cores.contains)
  else if t.opcode = 0x51 then s.drains.any (fun d => d.r == t.r && d.combine && d.cores.any cores.contains)
  else if isRunOp t.opcode then
    match t.ctx.bind (lookup s.ctxs) with
    | some c => match c.run with
      | some v => v.r != t.r || (runCores s (ctxModel s c) v.placement (pSubset (ctxNow c).params)).any cores.contains
      | none => true
    | none => false
  else t.opcode == 0x30 || t.opcode == 0x31

/-- The commands whose work a fence includes whole: those of its session accepted before it (R209). -/
def includedIn (s : State) (d : Drain) : List Taken :=
  (s.taken.takeWhile (fun t => !isTakenOf d.r 0x51 t)).filter (fun t =>
    t.r.session == d.r.session && (d.ctx.isNone || t.ctx == d.ctx))

/-- That work still has products to come, or results to write, on one of the cores. -/
def ownWaits (s : State) (d : Drain) (cores : List Nat) : Bool := (includedIn s d).any (worksOn s cores)

/-- Products of other work that stand before the fence's position are in a core's tree, or their results are not yet written: a
tile that has drained, or a colour begun on committed values. Speculative products wait for nothing (R209, R210). -/
def othersWait (s : State) (cores : List Nat) : Bool :=
  s.progs.any (fun p => p.drained.isSome && cores.contains (tileCore s (curStep p).coreMask p.tile)) ||
  s.ctxs.any (fun e => (e.2.seat.bind (·.sweep)).any (fun w =>
    w.shares.any (fun h => cores.contains h.core && h.vecs.any (fun v => !v.spec))))

/-- A fence waits on some of its cores. -/
def fenceWaitsOn (s : State) (d : Drain) (cores : List Nat) : Bool := ownWaits s d cores || othersWait s cores

/-- Work that the fence includes is still under way on a named core. -/
def fenceWaits (s : State) (d : Drain) : Bool := fenceWaitsOn s d d.cores

/-- New products of a command are held on a core: a fence whose position all its included work there has reached excludes them
(R209, R210). -/
def heldByFence (s : State) (r : Req) (l : Nat) : Bool :=
  s.drains.any (fun d => d.cores.contains l && !(includedIn s d).any (fun t => t.r == r) && !(d.combine && d.r == r) &&
    !ownWaits s d [l])

/-! ### What an engine does (05 R176, 06 R190, R216; log 21) -/

/-- The programs whose step in progress a logical core works on. -/
def progsOn (s : State) (l : Nat) : List Prog :=
  s.progs.filter (fun p => (maskCores s (curStep p).coreMask).contains l && (physOf s l).isSome)

/-- FE_STATUS of the passes that a program's step can have in the array: its tiles, and its sentinel tiles at the 8-bit rate. -/
def stepCodes (p : Prog) : List Nat :=
  let t := curStep p
  match tensorAt p.tensors t.a, tensorAt p.tensors t.b with
  | some a, some b => if t.op = 0 then (1 + 4 * widthCode a.fmt b.fmt) :: (if t.sentN = 0 then [] else [17]) else []
  | _, _ => []

/-- FE_STATUS of the dense passes that a sweep can have in the array of a core: both sides of the factors whose A_FIRST lies in the
core's block (08 R541). -/
def denseCodes (s : State) (i : Nat) (h : Share) : List Nat :=
  match lookup s.ctxs i with
  | none => []
  | some c =>
    let m := ctxModel s c
    (m.dense.filter (fun d => blockOf m d.aFirst == h.block)).flatMap (fun d => [1 + 4 * widthCode d.fmt 3, 15])

/-- The accumulator tiles that the work of a step can have in flight on a core. -/
def stepHeld (p : Prog) : Nat :=
  if (curStep p).op = 0 then tilesHeld (decide ((curStep p).acc = 0)) (p.tree && !p.gn5) (curWidth p) else 0

end Sys2Proof.Machine
end

