-- ==== Sys2Proof/Machine/Views.lean ====
section
/-!
DEFINITION. Values that other state decides: the OTP array as its readers see it (16 R487, R488), and the read-only fields of
the registers (R14 RO) whose value is not a stored word.
-/

namespace Sys2Proof.Machine

/-! ### OTP (16 R487, R488) -/

/-- The 1,024 bytes of a setting generation. -/
def Generation.bytes (g : Generation) : List Byte :=
  if g.used then
    fit 18 g.map ++ zeros 2 ++ leBytes 4 g.settings.toNat ++
    (List.range 4).flatMap (fun k => fit 96 (g.operatorKeys.getD k [])) ++
    fit 48 g.tokenEcdsaHash ++ fit 48 g.tokenLmsHash ++ zeros 516 ++
    (if g.valid then leBytes 4 0x5A5AA5A5 else zeros 4)
  else zeros 1024

/-- The fields of the OTP array with their offsets; what no field covers reads as 0. -/
def otpFields (o : Otp) : List (Nat × List Byte) :=
  [(0x0000, fit 16 o.serial), (0x0010, fit 6 o.mac0 ++ fit 6 o.mac1), (0x0020, fit 18 o.factoryMap),
   (0x0040, fit 48 o.vendorEcdsaHash), (0x0070, fit 48 o.vendorLmsHash), (0x00A0, fit 96 o.factoryOperatorKey),
   (0x0100, leBytes 8 (2 ^ o.rollback - 1)), (0x0108, leBytes 4 (2 ^ o.debugUnlocks - 1)),
   (0x010C, leBytes 4 ((List.range 7).foldl (fun a n => a + (2 ^ (o.entropyFails.getD n 0) - 1) * 2 ^ (3 * n)) 0)),
   (0x0110, leBytes 4 (ofBool o.debugDisable)), (0x0200, leBytes 512 (2 ^ o.leavesUsed - 1)),
   (0x1000, fit 8192 o.identityCert),
   (0x3000, (o.gens.getD 0 {}).bytes), (0x3400, (o.gens.getD 1 {}).bytes),
   (0x3800, (o.gens.getD 2 {}).bytes), (0x3C00, (o.gens.getD 3 {}).bytes)]

/-- The word of the OTP array at an offset. -/
def otpWord (o : Otp) (a : Nat) : Nat :=
  match (otpFields o).find? (fun f => f.1 ≤ a && a < f.1 + f.2.length) with
  | some f => leNat ((f.2.drop (a - f.1)).take 4)
  | none => 0

/-- A word of the read-blocked fields IDENTITY_KEY and HSS_SEED (R487). -/
def otpBlocked (a : Nat) : Bool := (0x400 ≤ a && a < 0x430) || (0x440 ≤ a && a < 0x480)

/-! ### Sessions -/

/-- Handler service of a command, in twelfths of a microsecond: 2/3 us for a simple command, else 10 us (10 R325). -/
def serviceOf (op : Nat) : Nat := if op ∈ [0x01, 0x02, 0x10, 0x11, 0x12, 0x13, 0x35, 0x46, 0x90, 0x92] then 8 else 120

def queuedService (q : List Packet) : Nat := (q.map (fun p => serviceOf p.opcode)).sum

/-- The service budget in the same unit: ADMIT_LIMIT / 8 in units of 10 us; 0 acts as 1 (R326, R332). -/
def budget (s : State) : Nat := 15 * max 1 (regField s 0x6800 16 16)

/-! ### Contexts and cores at work -/

/-- The sweep in progress on a logical core: the context's index, the sweep and the core's share. -/
def sweepOn (s : State) (l : Nat) : Option (Nat × Sweep × Share) :=
  s.ctxs.findSome? (fun e =>
    match e.2.seat with
    | some seat =>
      match seat.sweep with
      | some w => (w.shares.find? (fun h => h.core == l)).map (fun h => (e.1, w, h))
      | none => none
    | none => none)

/-- A physical core sweeps (03 R118, ACTIVE). -/
def coreActive (s : State) (p : Nat) : Bool := (sweepOn s (mapByte s.map p)).isSome

/-- SPIN_STATUS (R118): ACTIVE from a sweep's first issue. Once the core has no uncommitted colour, COLOUR is the model's colour
count modulo 32: DESIGN CHOICE (log 73). -/
def spinStatus (s : State) (p : Nat) : Nat :=
  match sweepOn s (mapByte s.map p) with
  | some (_, w, h) => if w.issued then 1 + 2 * ofBool (!h.spec.isEmpty || h.vecs.any (·.spec)) + 4 * (h.colour % 32) else 0
  | none => 0

/-- Cores are powered: Run or Doze, with the main regulators on (15 R456, R468, R473). -/
def coresPowered (s : State) : Bool :=
  (s.power.st == .run || s.power.st == .doze) && (s.power.phase == .running || s.power.phase == .booted)

def half (s : State) (h : Nat) : Half := if h = 0 then s.power.north else s.power.south

def setHalf (s : State) (h : Nat) (v : Half) : State :=
  if h = 0 then { s with power := { s.power with north := v } } else { s with power := { s.power with south := v } }

/-- CORE_STATUS (17 R522). -/
def coreStatus (s : State) (p : Nat) : Nat :=
  let b := mapByte s.map p
  let bound := b < 16
  let on := coresPowered s && bound
  (if bound then b else if b = 0xFE then 0x1E else 0x1F) +
  32 * ofBool (b == 0xFF) + 64 * ofBool (coreState s p).volatile + 128 * ofBool on +
  256 * ofBool (on && s.power.st == .run && !(half s (halfOfCore p)).gated)

/-! ### Temperatures (15 R478, 18 R539) -/

def sensor (s : State) (n : Nat) : Sensor := lookupD s.power.sensors n {}

/-- The hottest of the sensors `lo` to `lo + n - 1`, in 1/16 degree, among those that have converted. -/
def hottest (s : State) (lo n : Nat) : Int :=
  ((span lo n).filterMap (fun k => if (sensor s k).valid then some (sensor s k).temp else none)).foldl max 0

/-- A temperature in whole degrees, 0 to 255. -/
def degrees (t : Int) : Nat := min (t / 16).toNat 255

/-! ### Frequencies -/

/-- The CORE_CLK gates reopen for the next work (15 R465). -/
def ungate (s : State) : State :=
  { s with power := { s.power with
    north := { s.power.north with gated := false }
    south := { s.power.south with gated := false } } }

/-- Both halves run at the same frequency (01 R46). -/
def halvesEqual (s : State) : Bool := s.power.north.step == s.power.south.step

/-- The step a half's status names: the one being entered during a relock (15 R466). -/
def namedStep (h : Half) : Nat := h.relock.getD h.step

/-- PWR_STATUS (15 R478). -/
def PState.code : PState → Nat
  | .run => 0
  | .doze => 1
  | .nap => 2
  | .den => 3

def pwrStatus (s : State) : Nat :=
  s.power.st.code + 4 * ofBool s.power.entering.isSome + 8 * ofBool s.power.exiting + 16 * (s.power.lastWake % 8) +
  128 * ofBool (s.power.phase == .running)

/-- Registers that hold a pending value (17 R506). -/
def pendingRegs (s : State) : Nat := (s.heldRegs.map (fun e => e.1 / 4)).eraseDups.length

/-- Codes of LK_STATUS.STATE (12 R401). -/
def LinkState.code : LinkState → Nat
  | .down => 0
  | .training => 1
  | .active => 2
  | .asleep => 3
  | .lost => 4

/-- LK_STATUS. -/
def lkStatus (p : Port) : Nat :=
  p.st.code + 8 * p.width + 32 * p.lanes.toNat + 0x2000 * ofBool p.partnerJoined

def JoinState.code : JoinState → Nat
  | .single => 0
  | .joining => 1
  | .complete => 2
  | .incomplete => 3

/-- The fields of SEC_STATUS as a path sees them (16 R499). -/
def secStatus (s : State) (armed : Bool) : Nat :=
  let c := s.sec
  ofBool c.bootB + 2 * ofBool c.staged + 4 * ofBool (s.power.phase == .recovery) + 8 * c.otp.rollback +
  0x400 * ofBool (c.challenge.isSome && s.ent.st != .failed) + 0x800 * ofBool armed + 0x1000 * ofBool c.debugUnlocked +
  0x2000 * c.otp.debugUnlocks + 0x80000 * ofBool c.otp.debugDisable +
  0x100000 * ofBool (c.otp.leavesUsed == 4096 && (match c.hss with
    | some (_, b) => b == 1024
    | none => true))

def EntState.code : EntState → Nat
  | .startup => 0
  | .ready => 1
  | .halted => 2
  | .failed => 3

def SourceState.code : SourceState → Nat
  | .startup => 0
  | .healthy => 1
  | .restarting => 2
  | .fenced => 3

/-- ENTROPY_GET requests that wait (07 R250). -/
def hostWaiting (s : State) : Nat :=
  s.ent.queue.countP (fun q => match q.what with
    | .host _ => true
    | _ => false)

/-- Every unfenced source has passed its start-up test (R240, R243). -/
def allHealthy (e : Entropy) : Bool := e.sources.all (fun x => x == .healthy || x == .fenced)

/-- A reseed is due: 65,536 generate calls, or 10 s after the last seeding (R242). -/
def reseedDue (s : State) : Bool := decide (65536 ≤ s.ent.calls) || ended s s.ent.seededAt 10000

/-- The DRBG is being instantiated: its two blocks are complete; or reseeded: that is due, and a block waits (R242). -/
def instantiating (s : State) : Bool :=
  (s.ent.st == .startup || s.ent.st == .halted) && !s.ent.katFailed && s.ent.outputs.length == 2 && allHealthy s.ent
def reseeding (s : State) : Bool := s.ent.st == .ready && !s.ent.outputs.isEmpty && reseedDue s

/-- ENT_STATUS. -/
def entStatus (s : State) : Nat :=
  s.ent.st.code + 8 * s.ent.sources.countP (· != .fenced) + 64 * ofBool (instantiating s || reseeding s) +
  128 * hostWaiting s

/-- FAULT_STATUS (14 R454). -/
def faultStatus (s : State) : Nat :=
  active s + 32 * (reservesOf s.map).length + 128 * gensUsed s.sec.otp + 0x400 * ofBool (fenceVol s != 0) +
  0x800 * ofBool s.faults.otpPending.isSome + 0x1000 * ofBool (!s.faults.due.isEmpty) + 0x2000 * ofBool s.faults.fatal.isSome +
  0x10000 * (s.faults.fatal.elim 0 (·.1))

/-- STATE of HBM_STATUS: off, training, ready, self-refresh (17 R522, 15 R456, R473). -/
def hbmState (s : State) : Nat :=
  match s.power.phase with
  | .off => 0
  | .tripped => 0
  | .reset => if s.power.coldDue then 0 else 3
  | .starting => if s.power.resetKind = 0 then 0 else 3
  | .running =>
    (match s.power.st with
      | .run => 2
      | .doze => if s.power.exiting then 2 else 3
      | .nap => 3
      | .den => if s.power.exiting then 1 else 0)
  | _ => 1

/-- Walkers run: in Run only, when enabled (13 R422). -/
def walking (s : State) (bit : Nat) : Bool :=
  regBit s 0x48000 bit && s.power.st == .run && s.power.phase == .running && s.power.entering.isNone

/-- Word `k` of some bytes, first byte least significant. -/
def bigEndianWord (bs : List Byte) (k : Nat) : Nat := leNat (slice bs (4 * k) 4)

/-- The value of a register that is not a stored word (RO fields); none for the registers that `regVal` gives. -/
def viewReg (s : State) (armed : Bool) (a : Nat) : Option Nat :=
  let m := fun l => (physOf s l).getD 0xFF
  if 0x10 ≤ a ∧ a ≤ 0x1C then
    let l := a - 0x10
    some (m l + 2 ^ 8 * m (l + 1) + 2 ^ 16 * m (l + 2) + 2 ^ 24 * m (l + 3))
  else if 0x5040 ≤ a ∧ a ≤ 0x506C then some (bigEndianWord (s.sec.challenge.getD (zeros 48)) ((a - 0x5040) / 4))
  else if 0x5400 ≤ a ∧ a ≤ 0x57FC then some (otpWord s.sec.otp (a - 0x5400))
  else if 0x5800 ≤ a ∧ a ≤ 0x5BFC then
    some (match newestGen s.sec.otp with
      | some g => leNat (slice g.2.bytes (a - 0x5800) 4)
      | none => 0)
  else if 0x8000 ≤ a ∧ a < 0x9000 ∧ a % 0x400 = 4 then some (lkStatus (port s ((a - 0x8000) / 0x400)))
  else if 0x10000 ≤ a ∧ a < 0x22000 then
    let p := (a - 0x10000) / 0x1000
    match a % 0x1000 with
    | 0 => some (coreStatus s p)
    | 4 => some (min (coreState s p).faults 0xFFFFFFFF)
    | 0x404 => some (spinStatus s p)
    | _ => none
  else if 0x30000 ≤ a ∧ a < 0x34000 then
    let n := (a - 0x30000) / 0x800
    match a % 0x800 with
    | 0 => some (hbmState s + 0x100 * degrees (sensor s (24 + n)).temp)
    | 8 => some ((n * stackSize + lookupD s.walkers n 0) % 2 ^ 32)
    | _ => some ((n * stackSize + lookupD s.walkers n 0) / 2 ^ 32 % 128)
  else match a with
  | 0x0000 => some 0x03840007
  | 0x0004 => some 0
  | 0x0020 => some (maskOf 18 (fun p => mapByte s.map p == 0xFE))
  | 0x0024 => some (min (pendingRegs s) 127)
  | 0x0088 => some (regVal s 0x88 + 0x100 * ofBool (halvesEqual s))
  | 0x0104 => some (ofBool (s.models.any (fun e => e.2.lists.any (fun l => !l.isEmpty))) + 2 * ofBool (evicting s))
  | 0x0108 => some s.ctxs.length
  | 0x010C => some (s.ctxs.countP (fun e => e.2.st == .running))
  | 0x0200 => some (s.join.st.code + 8 * s.join.topology + 64 * s.power.joinId.toNat)
  | 0x0208 => some (match s.join.lostFirst with
      | some j => j + 0x80000000
      | none => 0)
  | 0x1000 => some (pwrStatus s)
  | 0x1008 => some s.power.resetKind
  | 0x1010 => some (namedStep s.power.north + 16 * namedStep s.power.south +
      256 * ofBool (s.power.north.relock.isSome || s.power.south.relock.isSome))
  | 0x1014 => some (regVal s 0x1014 + 2 ^ 24 * s.power.thermWake)
  | 0x1018 => some (degrees (hottest s 0 12) + 2 ^ 8 * degrees (hottest s 12 12) + 2 ^ 16 * degrees (hottest s 24 8) +
      2 ^ 24 * degrees (sensor s 32).temp)
  | 0x101C => some (s.rtc % 2 ^ 32)
  | 0x1020 => some (s.rtc / 2 ^ 32 % 2 ^ 32)
  | 0x1024 => some (s.power.alarm.toNat % 2 ^ 32)
  | 0x1028 => some (s.power.alarm.toNat / 2 ^ 32)
  | 0x2004 => some (faultStatus s)
  | 0x2008 => some (fenceOtp s)
  | 0x200C => some (fenceVol s)
  | 0x2024 => some (ofBool s.faults.dump.writing + 2 * ofBool s.faults.dump.valid + 4 * ofBool s.faults.dump.kept)
  | 0x3004 => some (ofBool s.trail.frozen + 4 * s.trail.unspilled)
  | 0x3008 => some (s.trail.head % 2 ^ 32)
  | 0x300C => some (s.trail.head / 2 ^ 32 % 2 ^ 32)
  | 0x3010 => some (s.trail.oldest % 2 ^ 32)
  | 0x3014 => some (s.trail.oldest / 2 ^ 32 % 2 ^ 32)
  | 0x3018 => some s.trail.missed
  | 0x4000 => some (entStatus s)
  | 0x4004 => some ((List.range 7).foldl (fun v n =>
      v + ((s.ent.sources.getD n .startup).code + 4 * s.sec.otp.entropyFails.getD n 0) * 16 ^ n) 0)
  | 0x5000 => some (secStatus s armed)
  | 0x5008 => some 0
  | 0x500C => some s.sec.otp.leavesUsed
  | 0x5018 => some (regVal s 0x5018)
  | 0x6004 => some (let e := ethPort s 0
      ofBool e.link + 2 * ofBool e.speed25 + 4 * e.fec.toNat + 16 * e.gptp.toNat)
  | 0x6014 => some (let e := ethPort s 1
      ofBool e.link + 2 * ofBool e.speed25 + 4 * e.fec.toNat + 16 * e.gptp.toNat)
  | 0x6020 => some (leNat (s.sec.otp.mac0.take 4))
  | 0x6024 => some (leNat (slice s.sec.otp.mac0 4 2))
  | 0x6028 => some (leNat (s.sec.otp.mac1.take 4))
  | 0x602C => some (leNat (slice s.sec.otp.mac1 4 2))
  | 0x680C => some (maskOf 8 (fun n => (session s n).isOpen) +
      2 ^ 8 * maskOf 8 (fun n => decide (budget s < queuedService (session s n).queue + 8)))
  | 0x40000 => some (ofBool (!halvesEqual s) + 2 * ofBool (!s.faults.due.isEmpty))
  | 0x48004 => some ((if walking s 0 then 0xFF else 0) + 256 * ofBool (walking s 1 && s.faults.fatal.isNone))
  | _ => none

end Sys2Proof.Machine
end

