-- ==== Sys2Proof/Machine/Regs.lean ====
section
/-!
DEFINITION. Register accesses: reads with their shadows, writes with their guard, boundary and same-cycle rule, the indirect
window, and what a boundary applies (17 R500 to R523).
-/

namespace Sys2Proof.Machine

/-- An access that fails: status and detail, or the value and the state after. -/
abbrev Access := Except (Status × Nat) (Nat × State)

def busError : Status × Nat := (.busError, 0x0330)
def denied : Status × Nat := (.accessDenied, 0x0331)
def unpowered : Status × Nat := (.notReady, 0x0332)

def path (s : State) (p : Nat) : Path := lookupD s.paths p {}

def setPath (s : State) (p : Nat) (v : Path) : State := { s with paths := put s.paths p v }

def modPath (s : State) (p : Nat) (f : Path → Path) : State := setPath s p (f (path s p))

/-- The module sleeps in Nap or Den (R503). -/
def deepSleep (s : State) : Bool := s.power.st == .nap || s.power.st == .den

/-- Records a failed access: REG_LAST_ERR and REG_ERRORS (R501, R521). -/
def accessFailed (s : State) (p a : Nat) (indirect : Bool) (e : Status × Nat) : State :=
  let kind := match e.1 with
    | .busError => 1
    | .accessDenied => 2
    | _ => 3
  bump (setReg s 0x2C (a % 2 ^ 24 + 2 ^ 24 * ofBool indirect + 2 ^ 25 * kind + 2 ^ 27 * p)) 0x30 1

/-! ### Entropy drawn at once -/

/-- One generate call of the DRBG, for `n` bytes: counted towards the next reseed (07 R242). -/
def drbg (s : State) (n : Nat) : List Byte × State :=
  let r := drbgGenerate s.ent.drbg n
  (r.1, { s with ent := { s.ent with drbg := r.2, calls := s.ent.calls + 1 } })

/-- A read of SEC_CHALLENGE before the first draw since reset (16 R486): drawn at once when the entropy block is READY and no
earlier consumer waits and no reseed is due, queued otherwise, never when it is FAILED. -/
def drawChallenge (s : State) : State :=
  let waits := s.ent.queue.any (fun q => match q.what with
    | .challenge => true
    | _ => false)
  if s.sec.challenge.isSome ∨ waits ∨ s.ent.st = .failed then s
  else if s.ent.st = .ready ∧ s.ent.queue.isEmpty ∧ !reseedDue s then
    let d := drbg s 48
    { d.2 with sec := { d.2.sec with challenge := some d.1 } }
  else { s with ent := { s.ent with queue := s.ent.queue ++ [⟨.challenge, 48, []⟩] } }

/-! ### The indirect window (R515, R516) -/

/-- Where TRIM of a sensor is stored among `regs`. -/
def trimKey (n : Nat) : Nat := 2 ^ 24 + 0x300800 + 4 * n

/-- Where RETRAINS of an HBM PHY is stored. -/
def retrainKey (n : Nat) : Nat := 2 ^ 24 + 0x100004 + 0x10000 * n

/-- A stored indirect word. -/
def indStored (s : State) (k : Nat) : Nat := (lookupD s.regs k 0).toNat

/-- TRAIN of an HBM PHY (18 R539). -/
def phyTrain (s : State) : Nat :=
  match hbmState s with
  | 2 => 2
  | 3 => 2
  | n => n

/-- The word of a Leash lane (R539): its last training while the lane is in the trained group and the port ACTIVE or ASLEEP. -/
def laneWord (s : State) (p l : Nat) : Nat :=
  let q := port s p
  if (q.st == .active || q.st == .asleep) && q.lanes.getLsbD l then
    let w := q.laneWords.getD l ⟨0, false, false⟩
    w.eye % 256 + 256 * ofBool w.precode + 512 * ofBool w.invert
  else 0

/-- The memory that holds the recovery buffer: the Handler's SRAM (log 74). -/
def handlerSram : MemUnit := .other 18 0

/-- A byte of the recovery buffer: the boot ROM has opened its words on entering recovery (log 75). -/
def sramByte (s : State) (o : Nat) : Byte := (lookup s.sec.recoverBuffer o).getD (Config.recoveryByte o)

/-- Reads 4 bytes of a code word of Handler SRAM through the decoder (13 R410, R415, R420); an uncorrectable word there is fatal
(14 R446), which the read's DATA_ERROR reports. -/
def sramRead (s : State) (o : Nat) : Access :=
  let w := o / 8 * 8
  match markAt s handlerSram w with
  | none => .ok (leNat ((span o 4).map (sramByte s)), s)
  | some .correctable => .ok (leNat ((span o 4).map (sramByte s)), corrected s handlerSram w)
  | some _ => .error badData

/-- A write of 4 bytes is a narrow write: the word is read, decoded, merged and written (13 R417, R418). -/
def sramWrite (s : State) (o v : Nat) : State :=
  let w := o / 8 * 8
  let put_ := fun (t : State) => { t with sec := { t.sec with recoverBuffer := putCells t.sec.recoverBuffer o (leBytes 4 v) } }
  match markAt s handlerSram w with
  | none => put_ s
  | some .correctable =>
    let t := memEvent (bump s 0x48014 1) handlerSram (eventAddr handlerSram w) kindCorrected
    put_ { t with otherMarks := del t.otherMarks (markKey handlerSram w) }
  | some .uncorrectable =>
    let t := memEvent (bump s 0x4801C 1) handlerSram (eventAddr handlerSram w) kindPoisonWritten
    put_ { t with otherMarks := put t.otherMarks (markKey handlerSram w) .poisoned }
  | some _ => put_ s

/-- The word at an indirect address (R516, R539). The power input is measured anew at each read (log 24). -/
def indRead (s : State) (a : Nat) : Access :=
  let asleep := s.power.st == .nap || s.power.st == .den
  if a % 4 ≠ 0 then .error busError
  else if a < 0x10000 then if otpBlocked a then .error denied else .ok (otpWord s.sec.otp a, s)
  else if 0x100000 ≤ a ∧ a < 0x180000 then
    if asleep then .error unpowered
    else match a % 0x10000 with
      | 0 => .ok (phyTrain s, s)
      | 4 => .ok (indStored s (retrainKey ((a - 0x100000) / 0x10000)), s)
      | _ => .error busError
  else if 0x200000 ≤ a ∧ a < 0x240000 then
    if asleep then .error unpowered
    else if a % 0x10000 < 32 then .ok (laneWord s ((a - 0x200000) / 0x10000) (a % 0x10000 / 4), s)
    else .error busError
  else if a = 0x240000 ∨ a = 0x240004 then
    let e := ethPort s ((a - 0x240000) / 4)
    .ok (if e.link then e.eye % 256 else 0, s)
  else if 0x300000 ≤ a ∧ a < 0x300084 then
    let n := sensor s ((a - 0x300000) / 4)
    .ok (twos 16 n.temp + 0x10000 * ofBool n.valid, s)
  else if 0x300800 ≤ a ∧ a < 0x300884 then .ok (indStored s (2 ^ 24 + a), s)
  else if a = 0x400000 ∨ a = 0x400004 ∨ a = 0x400008 then
    let w := (a - 0x400000) / 4
    .ok (Config.inputSample s.free w % (if w = 2 then 2 ^ 32 else 2 ^ 16), { s with free := s.free + 1 })
  else if 0x800000 ≤ a ∧ a < 0xE00000 ∧ s.power.phase = .recovery then
    sramRead s (a - 0x800000)
  else .error busError

/-- What a failed read of a word of Handler SRAM counts (13 R420). -/
def sramFailed (s : State) (o : Nat) : State :=
  match markAt s handlerSram (o / 8 * 8) with
  | none => s
  | some .correctable => s
  | some c => if s.power.phase = .recovery ∧ o % 4 = 0 ∧ o < 0x600000 then badRead s handlerSram (o / 8 * 8) (some c) else s

/-- The word at an indirect address is a guarded target for writes (R513, R516). -/
def indGuarded (a : Nat) : Bool :=
  (0x100000 ≤ a && a < 0x180000) || (0x200000 ≤ a && a < 0x250000) || (0x300000 ≤ a && a < 0x301000) ||
  (0x400000 ≤ a && a < 0x401000)

/-- A write to an indirect word whose guard has been passed: read-only words ignore it (R14, R516). -/
def indWrite (s : State) (a v : Nat) : Access :=
  if 0x300800 ≤ a ∧ a < 0x300884 ∧ a % 4 = 0 then
    .ok (0, { s with regs := if v % 256 = 0 then del s.regs (2 ^ 24 + a) else put s.regs (2 ^ 24 + a) (BitVec.ofNat 32 (v % 256)) })
  else if 0x800000 ≤ a ∧ a < 0xE00000 ∧ a % 4 = 0 ∧ s.power.phase = .recovery then
    .ok (0, sramWrite s (a - 0x800000) v)
  else if a < 0x10000 ∧ a % 4 = 0 then .ok (0, s)
  else
    match indRead s a with
    | .ok _ => .ok (0, s)
    | .error e => .error e

/-- An access to the word at the path's IND_ADDR, which then increases by 4 under INC (R515). -/
def indAccess (s : State) (p : Nat) (v : Option Nat) : Access × State :=
  let q := path s p
  let a := q.indAddr
  let step := fun (r : Access) (s0 : State) =>
    match r with
    | .ok (w, t) => (.ok (w, modPath t p (fun q => { q with indAddr := if q.indInc then (q.indAddr + 4) % 2 ^ 24 else q.indAddr })), s0)
    | .error e => (.error e, accessFailed s0 p a true e)
  match v with
  | none => step (indRead s a) (if 0x800000 ≤ a then sramFailed s (a - 0x800000) else s)
  | some w =>
    if indGuarded a then
      if q.armed then
        let s := modPath s p (fun q => { q with armed := false })
        step (indWrite s a w) s
      else step (.error denied) s
    else step (indWrite s a w) s

/-! ### Direct reads -/

/-- FE_STATUS (05 R176): idle, or one of the passes that the core's work can have in the array in the cycle of the read. -/
def feStatus (s : State) (p l n : Nat) : Nat :=
  let codes := ((progsOn s l).filter (fun q => q.drained.isNone)).flatMap stepCodes ++
    ((sweepOn s l).elim [] (fun x => if x.2.1.issued then denseCodes s x.1 x.2.2 else []))
  (0 :: codes).getD (Config.cycleStatus n p 0 % (codes.length + 1)) 0

/-- ACC_STATUS (06 R216): up to the tiles that R190 lets the core hold, a replay and its level in an ACC48 step, TREE and GN5 of the
steps in progress, DRAINING while a fence waits on the core. -/
def accStatus (s : State) (p l n : Nat) : Nat :=
  let qs := progsOn s l
  let sweeps := (sweepOn s l).any (fun x => x.2.1.issued)
  let held := (qs.map stepHeld ++ (if sweeps then [tilesHeld true false 64] else [])).foldl max 0
  let replays := sweeps || qs.any (fun q => (curStep q).op == 0 && (curStep q).acc == 0 && q.drained.isNone)
  let replay := if replays then Config.cycleStatus n p 2 % 2 else 0
  Config.cycleStatus n p 1 % (held + 1) +
  16 * ofBool (s.drains.any (fun d => d.cores.contains l && fenceWaitsOn s d [l])) +
  32 * replay + 64 * (replay * (Config.cycleStatus n p 3 % 4)) +
  256 * ofBool (qs.any (fun q => (curStep q).op == 0 && (curStep q).acc == 1 && q.tree && !q.gn5)) +
  512 * ofBool (qs.any (fun q => (curStep q).op == 0 && (curStep q).acc == 1 && q.gn5))

/-- LSG_STATUS (07 R237): generators bound in the cycle of the read on a core that sweeps, SEEDING on the cores of a run whose
instances are being seeded, KAT_FAIL. -/
def lsgStatus (s : State) (p l n : Nat) : Nat :=
  (if (sweepOn s l).isSome then Config.cycleStatus n p 5 % 65 else 0) +
  128 * ofBool (s.ctxs.any (fun e => e.2.seat.any (fun t => t.places.any (fun u => u.2.1 == p)) && e.2.run.any (fun r => !r.seeded))) +
  256 * ofBool (coreState s p).katFail

/-- The engine status registers of a core: fields that change from cycle to cycle take free values (log 21). -/
def engineStatus (s : State) (p off : Nat) : Nat × State :=
  let l := mapByte s.map p
  let v := if 16 ≤ l ∧ off ≠ 0x500 then 0 else match off with
    | 0x204 => feStatus s p l s.free
    | 0x300 => accStatus s p l s.free
    | _ => lsgStatus s p l s.free
  (v, { s with free := s.free + 1 })

/-- Reads a register word on a path (R501, R503, R509, R510, R515). -/
def readReg (s : State) (p a : Nat) : Access × State :=
  let fail := fun (e : Status × Nat) => ((.error e : Access), accessFailed s p a false e)
  match regInfo a with
  | none => fail busError
  | some _ =>
    if p = 8 ∧ deepSleep s ∧ switchedReg a then fail unpowered
    else if a = 0x50004 then indAccess s p none
    else if a = 0x50000 then (.ok ((path s p).indAddr % 2 ^ 24 / 4 * 4, s), s)
    else if a = 0x50008 then (.ok (ofBool (path s p).indInc, s), s)
    else if 0x10000 ≤ a ∧ a < 0x22000 ∧ a % 0x1000 ∈ [0x204, 0x300, 0x500] then
      (.ok (engineStatus s ((a - 0x10000) / 0x1000) (a % 0x1000)), s)
    else if a = 0x5040 then
      let s := drawChallenge s
      let c := s.sec.challenge.getD (zeros 48)
      let words := (List.range 11).map (fun k => BitVec.ofNat 32 (bigEndianWord c (k + 1)))
      (.ok (bigEndianWord c 0, modPath s p (fun q => { q with challenge := words })), s)
    else if 0x5044 ≤ a ∧ a ≤ 0x506C then (.ok (((path s p).challenge.getD ((a - 0x5044) / 4) 0).toNat, s), s)
    else if isHighWord a then (.ok ((lookupD (path s p).shadows a 0).toNat, s), s)
    else
      let value := fun b => (viewReg s (path s p).armed b).getD (regVal s b)
      match pairHigh a with
      | some h => (.ok (value a, modPath s p (fun q => { q with shadows := put q.shadows h (BitVec.ofNat 32 (value h)) })), s)
      | none => (.ok (value a, s), s)

/-! ### Boundaries (R504, R505) -/

/-- Keys of `heldRegs`: the register's address for a value that waits for its boundary; the address + 1 for WIDTH_MAX of
LK_CTRL, which waits for the next training, and for a gate list value past its command boundary; the address + 2 for LEN1 of
ETH_GCL_LEN past it. -/
def heldFree (s : State) (a : Nat) : State :=
  { s with heldRegs := s.heldRegs.filter (fun e => e.1 / 4 != a / 4) }

/-- LK_CTRL of a port. -/
def isLkCtrl (a : Nat) : Bool := 0x8000 ≤ a && a < 0x9000 && a % 0x400 == 0

/-- WIDTH_MAX of LK_CTRL. -/
def widthMask : Nat := 6

/-- Replaces the bits of `mask` in the value in effect. -/
def applyBits (s : State) (a v mask : Nat) : State :=
  setReg s a ((regVal s a &&& (0xFFFFFFFF ^^^ mask)) ||| (v &&& mask))

/-- Applies every held value whose key passes, under its mask, and drops it. -/
def applyHeld (s : State) (due : Nat → Bool) (mask : Nat → Nat) : State :=
  let hs := s.heldRegs.filter (fun e => due e.1)
  each hs { s with heldRegs := s.heldRegs.filter (fun e => !due e.1) }
    (fun s e => applyBits s (e.1 / 4 * 4) e.2.toNat (mask e.1))

/-- A held register that waits for the given boundary. -/
def waitsFor (b : Bound) (k : Nat) : Bool := k % 4 == 0 && (regInfo k).any (fun i => i.bound == b)

/-! ### Steps of the clocks (15 R466, R467) -/

/-- A cap of CLK_CTRL: 6 and 7 act as 5 (R478). -/
def capOf (s : State) (h : Nat) : Nat := min 5 (regField s 0x100C (4 * h) 3)

/-- The thermal step in force: 0 with THROTTLE_EN at 0, and 5 while an ALERT_TEMP condition holds in the half (R467). -/
def thermalOf (s : State) (h : Nat) : Nat :=
  max (if regBit s 0x100C 9 then (half s h).thermal else 0)
    (if s.power.alertTemps.any (fun n => if h = 0 then n < 12 else 12 ≤ n && n < 24) then 5 else 0)

/-- The step each half is to run at: the larger of its cap and thermal step, and of both halves' with LINK_HALVES. -/
def wantedStep (s : State) (h : Nat) : Nat :=
  let own := fun h => max (capOf s h) (thermalOf s h)
  if regBit s 0x100C 8 then max (own 0) (own 1) else own h

/-- Starts a relock of every half whose wanted step differs from the one it runs at or enters (R466): THROTTLE_STEPS counts
one relock, REPRO_STATUS.THROTTLE is set and the THROTTLE record written (R476). -/
def retarget (s : State) : State :=
  let change := fun h => namedStep (half s h) != wantedStep s h
  let go := fun (s : State) (h : Nat) => setHalf s h { half s h with relock := some (wantedStep s h) }
  let hot := fun h => degrees (hottest s (12 * h) 12)
  let rec_ := fun (t : State) (code h hs : Nat) =>
    event t 0x0903 0 unitHandler 0 (leBytes 1 code ++ leBytes 1 (namedStep (half s h)) ++ leBytes 1 (wantedStep s h) ++ leBytes 1 hs)
  if change 0 ∧ change 1 then
    let t := reproEvent (bump (go (go s 0) 1) 0x102C 1) 1
    if namedStep (half s 0) = namedStep (half s 1) ∧ wantedStep s 0 = wantedStep s 1 then rec_ t 2 0 (max (hot 0) (hot 1))
    else rec_ (rec_ t 0 0 (hot 0)) 1 1 (hot 1)
  else if change 0 then rec_ (reproEvent (bump (go s 0) 0x102C 1) 1) 0 0 (hot 0)
  else if change 1 then rec_ (reproEvent (bump (go s 1) 0x102C 1) 1) 1 1 (hot 1)
  else s

/-- A command boundary (R504): every register waiting for it takes its value, gate list values go on to wait for their port's
next cycle (18 R535), and a CLK_CTRL value that took effect changes the steps. -/
def commandBoundary (s : State) : State :=
  let clocks := (lookup s.heldRegs 0x100C).isSome || (lookup s.heldRegs 0x1014).isSome
  let s := applyHeld s (waitsFor .command) (fun k => ((regInfo k).map (·.rw)).getD 0)
  let gates := s.heldRegs.filter (fun e => waitsFor .gate e.1)
  let s := each gates s (fun s e =>
    let s := { s with heldRegs := put (del s.heldRegs e.1) (e.1 + 1) e.2 }
    if e.1 = 0x605C then { s with heldRegs := put s.heldRegs (e.1 + 2) e.2 } else s)
  if clocks then retarget s else s

/-- The start of a gate cycle of a port: its list, its cycle time and its field of ETH_GCL_LEN take effect (R535). -/
def gateBoundary (s : State) (e : Nat) : State :=
  applyHeld s
    (fun k => k % 4 == 1 && (k / 4 * 4 == 0x6054 + 4 * e || (0x6400 + 0x100 * e ≤ k && k < 0x6500 + 0x100 * e)) ||
      k == 0x605D + e)
    (fun k => if k / 4 * 4 = 0x605C then 0x7F * 2 ^ (8 * e) else 0xFFFFFFFF)

/-- The end of a Leash frame of a port: LK_CTRL but for WIDTH_MAX takes effect (12 R400). -/
def frameBoundary (s : State) (n : Nat) : State :=
  applyHeld s (fun k => k == portReg n 0) (fun k => ((regInfo k).map (·.rw)).getD 0 &&& (0xFFFFFFFF ^^^ widthMask))

/-- The start of training of a port: WIDTH_MAX takes effect (R400). -/
def trainingBoundary (s : State) (n : Nat) : State :=
  applyHeld s (fun k => k == portReg n 0 + 1) (fun _ => widthMask)

/-- A sweep boundary on a physical core: SPIN_CTRL takes effect (03 R117). -/
def sweepRegBoundary (s : State) (p : Nat) : State := applyHeld s (fun k => k == coreReg p 0x400) (fun _ => 1)

/-- The next seating: SCHED_CTRL takes effect (08 R282). -/
def seatingBoundary (s : State) : State := applyHeld s (fun k => k == 0x100) (fun _ => 0xFF01)

/-! ### Direct writes -/

/-- The value of the masked register after a write (R512). -/
def maskedValue (old v : Nat) : Nat :=
  let m := v / 2 ^ 16
  (old &&& (0xFFFF ^^^ m)) ||| (v % 2 ^ 16 &&& m)

/-- Hardware's update of the cycle meets a write (R517): bits it sets in a status field stay set; a count it adds is lost and
the miss flag set. -/
def writeNow (s : State) (a : Nat) (i : RegInfo) (v hw : Nat) : State :=
  let old := regVal s a
  if i.masked then setReg s a (maskedValue old v)
  else
    let new := (old &&& (0xFFFFFFFF ^^^ (i.rw ||| i.w1c))) ||| (v &&& i.rw) ||| (old &&& i.w1c &&& (0xFFFFFFFF ^^^ v)) ||| (hw &&& i.w1c)
    let s := setReg s a new
    match i.miss with
    | some (m, b) => if hw ≠ 0 then orReg s m (2 ^ b) else s
    | none => s

/-- Holds a value until its boundary (R505): a later write replaces it. -/
def holdReg (s : State) (a v : Nat) : State :=
  let s := heldFree s a
  let s := { s with heldRegs := put s.heldRegs a (BitVec.ofNat 32 v) }
  if isLkCtrl a then { s with heldRegs := put s.heldRegs (a + 1) (BitVec.ofNat 32 v) } else s

/-- A write of SEC_RECOVER: GO starts the verification that the boot ROM makes, W1C clears FAILED (16 R481, R499). The recovery
itself is `Sys2Proof.Machine.recover`. -/
def recoverFlag (s : State) (v : Nat) : State :=
  setReg s 0x5018 (regVal s 0x5018 &&& (0xFFFFFFFF ^^^ (v &&& 4)))

/-- Writes 1 to FETCH_STATUS.KEPT: KEPT is cleared in the register and in the header (14 R451). -/
def clearKept (s : State) : State :=
  if s.faults.dump.kept then
    let s := { s with faults := { s.faults with dump := { s.faults.dump with kept := false } } }
    if s.faults.dump.valid then writeHbm s (fetchAddr 0x16) [0] else s
  else s

/-- Writes a register word on a path (R501, R503, R505, R513, R514, R515, R517). `recovery` is what GO of SEC_RECOVER starts. -/
def writeReg (recovery : State → State) (s : State) (p a v hw : Nat) : Access × State :=
  let fail := fun (e : Status × Nat) => ((.error e : Access), accessFailed s p a false e)
  match regInfo a with
  | none => fail busError
  | some i =>
    if p = 8 ∧ deepSleep s ∧ switchedReg a then fail unpowered
    else if a = 0x50004 then indAccess s p (some v)
    else if a = 0x50000 then (.ok (0, modPath s p (fun q => { q with indAddr := v &&& 0xFFFFFC })), s)
    else if a = 0x50008 then (.ok (0, modPath s p (fun q => { q with indInc := v % 2 == 1 })), s)
    else if a = 0x5008 then (.ok (0, modPath s p (fun q => { q with armed := v == 0x2B0ED06F })), s)
    else if i.guarded && !(path s p).armed then fail denied
    else
      let s := if i.guarded then modPath s p (fun q => { q with armed := false }) else s
      if a = 0x5018 then
        let t := recoverFlag s v
        (.ok (0, if v % 2 = 1 ∧ t.power.phase = .recovery then recovery t else t), s)
      else if a = 0x2024 then (.ok (0, if bitOf v 2 = 1 then clearKept s else s), s)
      else if i.bound = .now ∨ i.rw = 0 then (.ok (0, writeNow s a i v hw), s)
      else if i.bound = .sweep ∧ spinStatus s ((a - 0x10000) / 0x1000) % 2 = 0 then (.ok (0, writeNow (heldFree s a) a i v hw), s)
      else (.ok (0, holdReg s a v), s)

/-- The state after an access, whether it succeeded or failed. -/
def afterAccess (r : Access × State) : State :=
  match r.1 with
  | .ok (_, t) => t
  | .error _ => r.2

end Sys2Proof.Machine
end

