-- ==== Sys2Proof/Machine/Firmware.lean ====
section
/-!
DEFINITION. Signatures, and the firmware image with its two sections (16 R479, R480). The manual gives the image's contents
and no layout: the layout here is the model's own (DESIGN CHOICE, log 25).
-/

namespace Sys2Proof.Machine

/-- An ECDSA P-384 signature (r, then s, big-endian) verifies over a SHA-384 digest (log 10). -/
def ecdsaOk (pub digest sig : List Byte) : Bool :=
  sig.length == 96 && beBytes 48 (Config.ecdsaV pub digest (sig.drop 48)).toNat == sig.take 48

/-- An LMS signature verifies: the root at the end of the 48-byte public key is the one computed (log 10). -/
def lmsOk (pub message sig : List Byte) : Bool :=
  pub.length == 48 && beBytes 24 (Config.lmsRoot (pub.take 24) message sig).toNat == pub.drop 24

/-- An HSS signature verifies under a 52-byte public key (log 10). -/
def hssOk (pub message sig : List Byte) : Bool :=
  pub.length == 52 && beBytes 24 (Config.hssRoot (pub.take 28) message sig).toNat == pub.drop 28

/-- One section of an image: SECURITY_VERSION, firmware version, contents, ECDSA and LMS signatures. -/
structure Section where
  security : Nat
  version : Nat
  body : List Byte
  ecdsa : List Byte
  lms : List Byte
deriving DecidableEq, Repr, Inhabited

/-- A section laid out at an offset: SECURITY_VERSION (1 byte), 3 reserved, version (4), body length (4), LMS signature length
(4), the ECDSA signature (96), the LMS signature, the body; with the bytes it takes. -/
def sectionAt (img : List Byte) (o : Nat) : Section × Nat :=
  let len := u32 img (o + 8)
  let sig := u32 img (o + 12)
  ({ security := u8 img o, version := u32 img (o + 4), body := slice img (o + 112 + sig) len,
     ecdsa := slice img (o + 16) 96, lms := slice img (o + 112) sig }, 112 + sig + len)

/-- An image: the vendor ECDSA public key (96 bytes), the vendor LMS public key (48), the Handler section, the core microcode
section. -/
def handlerSection (img : List Byte) : Section := (sectionAt img 144).1
def coreSection (img : List Byte) : Section := (sectionAt img (144 + (sectionAt img 144).2)).1
def imageLength (img : List Byte) : Nat :=
  144 + (sectionAt img 144).2 + (sectionAt img (144 + (sectionAt img 144).2)).2

/-- Largest firmware image (R479). -/
def maxImage : Nat := 0x600000

/-- A section's two signatures verify under the vendor keys (R479). -/
def sectionOk (img : List Byte) (c : Section) : Bool :=
  c.security ≤ 64 && ecdsaOk (img.take 96) (sha384 c.body) c.ecdsa && lmsOk (slice img 96 48) c.body c.lms

/-- The image verifies (R479): its length, the vendor keys by their digests in OTP, and the signatures of both sections. -/
def imageOk (o : Otp) (img : List Byte) : Bool :=
  decide (256 ≤ img.length ∧ img.length ≤ maxImage) && imageLength img == img.length &&
  sha384 (img.take 96) == o.vendorEcdsaHash && sha384 (slice img 96 48) == o.vendorLmsHash &&
  sectionOk img (handlerSection img) && sectionOk img (coreSection img)

/-- The lower of an image's two SECURITY_VERSION values (R482). -/
def imageVersion (img : List Byte) : Nat := min (handlerSection img).security (coreSection img).security

/-- A slot boots: its image verifies and neither section's version is below the rollback counter (R480). -/
def slotBoots (o : Otp) (img : List Byte) : Bool := imageOk o img && decide (o.rollback ≤ imageVersion img)

/-- The image that runs. -/
def runningImage (s : State) : List Byte := if s.sec.bootB then s.sec.slotB else s.sec.slotA

end Sys2Proof.Machine
end

