-- ==== Sys2Proof/Machine/Wake.lean ====
section
/-!
DEFINITION. Wake sources (15 R459, R461, R463), and the commands that Doze and the time before START_DONE serve (R457, R474).
-/

namespace Sys2Proof.Machine

/-- A TRAIL_READ whose every record is held in the on-die ring (R457, R474). -/
def trailOnDie (s : State) (payload : List Byte) : Bool :=
  payload.length != 16 || decide (s.trail.ringFirst ≤ u64 payload 0)

/-- Doze serves the command without waking (R457, R542). -/
def dozeServes (s : State) (op : Nat) (payload : List Byte) : Bool :=
  servedEarly op || (op ∈ [0x10, 0x11, 0x12, 0x13]) ||
  (op == 0x80 && (u8 payload 0 == 1 || u8 payload 0 == 2 || u8 payload 0 == 3)) ||
  (op == 0x91 && trailOnDie s payload)

/-- The sleep state that the module is in or enters. -/
def sleepState (s : State) : PState := (s.power.entering.map (·.target)).getD s.power.st

/-- A queued command is wake source 1 (R461): in Doze only one that Doze does not serve. -/
def wakesQueue (s : State) (p : Packet) : Bool := sleepState s != .doze || !dozeServes s p.opcode p.payload

/-- Packets that wait for the Handler. -/
def queued (s : State) : List Packet := s.sessions.flatMap (fun e => e.2.queue) ++ s.openQueue

/-- A junction sensor at or above THERM_WAKE (R461, 18 R532). -/
def thermalPresent (s : State) : Bool :=
  s.power.thermWake != 0 &&
  (List.range 24).any (fun n => (sensor s n).valid && decide ((16 * s.power.thermWake : Nat) ≤ (sensor s n).temp))

/-- The RTC count is at or above an armed ALARM (R461). -/
def alarmPresent (s : State) : Bool := s.power.alarm != 0 && decide (s.power.alarm.toNat ≤ s.rtc)

/-- The level sources present, lowest code first (R461). -/
def levelSources (s : State) : List Nat :=
  (if (queued s).any (wakesQueue s) then [1] else []) ++ (if s.power.wakeN then [4] else []) ++
  (if alarmPresent s then [5] else []) ++ (if thermalPresent s then [6] else [])

/-- Sets the WAKE_EVENTS bits of the sources (R478). -/
def markWake (s : State) (codes : List Nat) : State := each codes s (fun s c => orReg s 0x1004 (2 ^ (c - 1)))

/-- Step 1 of training (12 R382, R383): WIDTH_MAX takes effect, and LK_RETRAIN counts once the port has been ACTIVE. -/
def startTraining (s : State) (n : Nat) : State :=
  let s := if (port s n).everActive then bump s (portReg n 0x2C) 1 else s
  trainingBoundary (modPort s n (fun p => { p with st := .training, lanes := 0, naks := 0, overruns := [], whistling := false })) n

/-- Every port with EN begins training: at start-up, and on exit from Nap or Den (R464, R473). -/
def startPorts (s : State) : State :=
  each ((List.range 4).filter (fun n => regBit s (portReg n 0) 0)) s startTraining

/-- Begins the exit from a sleep state (R464); LAST_WAKE takes the code. -/
def beginExit (s : State) (code : Nat) : State :=
  let t := { markWake s [code] with power := { (markWake s [code]).power with exiting := true, wake := code, lastWake := code } }
  if deepSleep s then startPorts t else t

/-- Sources 2 and 3 wake at the moment they occur (R461). -/
def edgeSource (code : Nat) : Bool := code == 2 || code == 3

/-- A wake source occurs (R459, R463): in Run nothing; during entry its bit and, before the window, an exit at the end; in a
sleep state it begins the exit; during an exit its bit only. A fatal error has stopped the sequences. -/
def wakeSource (s : State) (code : Nat) (inWindow : Bool) : State :=
  if s.faults.fatal.isSome then s
  else match s.power.entering with
  | some e =>
    if edgeSource code && inWindow then { s with power := { s.power with edgeLost := true } }
    else if edgeSource code then
      let t := markWake s [code]
      { t with power := { t.power with entering := some { e with edge := some (min code (e.edge.getD code)) } } }
    else markWake s [code]
  | none =>
    if s.power.st = .run then s
    else if s.power.exiting then markWake s [code]
    else beginExit s code

/-- A packet has been accepted into a queue: in a sleep state, or on the way to one, it is wake source 1 unless Doze serves it. -/
def wakeQueued (s : State) (p : Packet) : State :=
  if wakesQueue s p then wakeSource s 1 false else s

end Sys2Proof.Machine
end

