-- ==== Sys2Proof/Machine/Sessions.lean ====
section
/-!
DEFINITION. PING, INFO, SESSION_OPEN, SESSION_CLOSE and the other closures of a session (10 R311 to R314, 11 R339 to R341).
-/

namespace Sys2Proof.Machine

/-! ### Closing -/

/-- Work of a program, with its command changed. -/
def mapOwner (f : Req → Req) : Owner → Owner
  | .model i => .model i
  | .prog r => .prog (f r)
  | .join => .join
def mapItem (f : Req → Req) : WorkItem → WorkItem
  | .tile r a b => .tile (f r) a b
  | w => w

/-- What a core holds of some work. -/
def mapCoreReqs (f : Req → Req) (c : Core) : Core :=
  { c with
    failed := c.failed.map (fun e => (mapItem f e.1, e.2))
    schedules := c.schedules.map (fun e => (mapOwner f e.1, e.2)) }

/-- Changes the command that every taken work item answers. -/
def mapReqs (f : Req → Req) (s : State) : State :=
  { s with
    taken := s.taken.map (fun t => { t with r := f t.r })
    moves := s.moves.map (fun m => { m with r := f m.r })
    fills := s.fills.map (fun m => { m with r := f m.r })
    loads := s.loads.map (fun m => { m with r := f m.r })
    saves := s.saves.map (fun m => { m with r := f m.r })
    destroys := s.destroys.map (fun d => (f d.1, d.2))
    progs := s.progs.map (fun m => { m with r := f m.r })
    slots := s.slots.map (fun e => { e with owner := mapOwner f e.owner })
    cores := s.cores.map (fun e => (e.1, mapCoreReqs f e.2))
    drains := s.drains.map (fun m => { m with r := f m.r })
    ctxs := s.ctxs.map (fun e => (e.1, { e.2 with run := e.2.run.map (fun u => { u with r := f u.r, pauses := u.pauses.map f }) }))
    join := { s.join with
      setReq := s.join.setReq.map f
      barriers := s.join.barriers.map (fun b => { b with r := b.r.map f }) }
    power := { s.power with entering := s.power.entering.map (fun e => { e with r := f e.r }) }
    ent := { s.ent with queue := s.ent.queue.map (fun q => { q with what := match q.what with
      | .session r p => .session (f r) p
      | .attest r p => .attest (f r) p
      | .challenge => .challenge
      | .seed r c p t => .seed (f r) c p t
      | .host r => .host (f r) }) } }

/-- The session number that commands of a closed session carry: none that is ever open, so their replies are discarded (R314). -/
def closedNumber (k : Nat) : Nat := k + 8

/-- Marks the taken work of a session as belonging to a closed one. -/
def orphan (k : Nat) (r : Req) : Req := if r.session = some k then { r with session := some (closedNumber k) } else r

/-- A session closes (R314): its keys are erased, commands that wait in its queue are discarded, the arm of its register path and
its shadows end (17 R514), and what has been taken runs to completion unreplied. -/
def closeSession (s : State) (k : Nat) : State :=
  let t := mapReqs (orphan k) s
  { t with sessions := del t.sessions k, paths := del t.paths k }

/-- Every session closes (R314, R471). -/
def closeAll (s : State) : State := each (List.range 8) s closeSession

/-- SECONDS of VALAZ_IDLE have passed since the session's last command or reply, and nothing of it is outstanding (R314). -/
def idleExpired (s : State) (k : Nat) : Bool :=
  let v := session s k
  let secs := regField s 0x6808 0 16
  v.isOpen && secs != 0 && ended s v.lastUse (1000 * secs) && v.queue.isEmpty && v.reorder.isEmpty &&
  !s.taken.any (fun t => t.r.session == some k)

/-- R314: SESSION_IDLE_TIMEOUT. -/
def execSessionIdleTimeout (k : Nat) (s : State) : Result :=
  .next (if k < 8 ∧ idleExpired s k then closeSession s k else s)

/-- R314: SESSION_CLOSE replies OK once every earlier command of the session has replied; the keys are then erased. -/
def execSessionClose (r : Req) (payload : List Byte) (s : State) : Result :=
  match r.session with
  | none => .next s
  | some k =>
    if s.taken.any (fun t => t.r.session == some k) then .next s
    else serve s r 0x04 none none (fun s =>
      checked s r 0x04 [(payload.length != 0, badLength)] (fun s => closeSession (reply s r 0x04 .ok) k))

/-! ### PING and INFO -/

/-- R339: PING echoes its payload. -/
def execPing (r : Req) (payload : List Byte) (s : State) : Result :=
  serve s r 0x01 none none (fun s =>
    checked s r 0x01 [(decide (64 < payload.length), badLength)] (fun s => reply s r 0x01 .ok 0 payload))

/-- The 16 bytes of CORE_MAP: the physical core of each logical one (R340). -/
def coreMapBytes (s : State) : List Byte := (List.range 16).map (fun l => BitVec.ofNat 8 ((physOf s l).getD 0xFF))

/-- JOIN_MEMBERS: joined modules including this one. -/
def membersPresent (s : State) : Nat :=
  if s.join.st = .complete ∨ s.join.st = .incomplete then s.join.count - s.join.lost.length - s.join.missing else 1

/-- The INFO reply (R340). -/
def infoBytes (s : State) : List Byte :=
  let img := runningImage s
  ascii "GN7-M384" ++ leBytes 2 0 ++ leBytes 4 (handlerSection img).version ++ leBytes 4 (coreSection img).version ++
  leBytes 1 (imageVersion img) ++ leBytes 1 (active s) ++ leBytes 1 s.power.st.code ++ leBytes 1 s.ent.st.code ++
  fit 16 s.sec.otp.serial ++ coreMapBytes s ++ leBytes 4 (membersPresent s) ++ leBytes 2 384 ++ zeros 4

/-- R340: INFO. -/
def execInfo (r : Req) (payload : List Byte) (s : State) : Result :=
  serve s r 0x02 none none (fun s =>
    checked s r 0x02 [(payload.length != 0, badLength)] (fun s => reply s r 0x02 .ok 0 (infoBytes s)))

/-! ### SESSION_OPEN -/

/-- The operator key of a slot; none when it is empty (16 R488). -/
def operatorKey (o : Otp) (slot : Nat) : Option (List Byte) :=
  let key := match newestGen o with
    | some g => fit 96 (g.2.operatorKeys.getD slot [])
    | none => zeros 96
  if slot = 0 ∧ allZero key then some o.factoryOperatorKey else if allZero key then none else some key

/-- The source of a failed authentication (R321): MAC address, or IP address and UDP port, or Leash port and member (log 26). -/
def authSource (x : Source) : Source := { x with port := if x.carrier = .leash then x.port else 0, vlan := none, mac := [] }

/-- The source as DETAIL of its AUTH_FAILED record, and the unit (14 R441, R442). -/
def sourceBytes (x : Source) : List Byte :=
  match x.carrier with
  | .raw => fit 6 x.addr
  | .udp4 => zeros 12 ++ fit 4 x.addr ++ leBytes 2 x.udpPort
  | .udp6 => fit 16 x.addr ++ leBytes 2 x.udpPort
  | .leash => leBytes 4 x.member

def sourceUnit (x : Source) : Nat := if x.carrier = .leash then unitLeash x.port else unitEth x.port

/-- An authentication failure (R321): counted, coalesced; true when it opens an interval and is therefore answered. -/
def authFailure (s : State) (x : Source) : Bool × State :=
  let src := authSource x
  let live := s.auths.filter (fun a => !ended s a.opened 1000)
  let own := live.any (fun a => a.src == some src)
  let key := if own ∨ live.countP (fun a => a.src.isSome) < 64 then some src else none
  let inside := live.any (fun a => a.src == key)
  let s := bump s 0x682C 1
  let s := coalesce { s with auths := if inside then live else live ++ [⟨key, s.rtc⟩] } (.auth key) 0x0500 2 (sourceUnit x)
    (sourceBytes x)
  (!inside, s)

/-- R312, R313 step 1: SESSION_OPEN is checked; a request whose HOST_SIG verifies waits for 104 bytes of entropy (R244). -/
def execSessionOpen (r : Req) (payload : List Byte) (s : State) : Result :=
  if r.session.isSome then .next s
  else serve s r 0x03 none none (fun s =>
    checked s r 0x03
      [(payload.length != 248, badLength),
       (!allZero (slice payload 1 3 ++ slice payload 149 3), badReserved),
       (decide (3 < u8 payload 0) || u8 payload 52 != 4, badRange)] (fun s =>
      match operatorKey s.sec.otp (u8 payload 0) with
      | none => reply s r 0x03 .accessDenied 0x020D
      | some key =>
        if ecdsaOk key (sha384 (payload.take 152)) (slice payload 152 96) then
          if s.ent.st = .failed then reply s r 0x03 .entropyFailed
          else
            let s := hold s r 0x03 none none
            { s with ent := { s.ent with queue := s.ent.queue ++ [⟨.session r payload, 104, []⟩] } }
        else
          let f := authFailure s r.src
          if f.1 then reply f.2 r 0x03 .authFailed 0x020C else f.2))

/-- The lowest free session number. -/
def freeSession (s : State) : Option Nat := (List.range 8).find? (fun k => !(session s k).isOpen)

/-- R313 steps 2 to 5: a session opens with the entropy drawn for it. -/
def openSession (s : State) (r : Req) (payload entropy : List Byte) : State :=
  match freeSession s with
  | none => replyBusy s r 0x03 0x020A 0xFFFFFFFF
  | some k =>
    let nonce := entropy.take 48
    let secret := entropy.drop 48
    let z := beBytes 48 (Config.ecdhZ secret (slice payload 52 97)).toNat
    let keys := hkdf384 z (slice payload 4 48 ++ nonce) (ascii "GN7 valaz")
    let first := leBytes 1 k ++ zeros 3 ++ nonce ++ beBytes 97 (Config.ephemeralPub secret).toNat ++ zeros 3
    let sig := beBytes 96 (Config.ecdsaSign s.sec.otp.identityKey (sha384 (payload ++ first)) s.free).toNat
    let s := { s with free := s.free + 1, taken := s.taken.filter (fun t => !(t.r == r && t.opcode == 0x03)) }
    let s := setSession s k { isOpen := true, kH := keys.take 48, kM := keys.drop 48, nextSeq := 1, lastUse := s.rtc }
    sendReply s ((mkReply s r 0x03 .ok 0 (first ++ sig) 0 0).withTag (keys.drop 48))

end Sys2Proof.Machine
end

