-- ==== Sys2Proof/Machine/Frontend.lean ====
section
/-!
DEFINITION. The Ethernet front end: frame filters, packet checks, sequence numbers, admission, and the events of its ports
(10 R302 to R330, 18 R533 to R536).
-/

namespace Sys2Proof.Machine

/-! ### Check 1: frame and carrier (R302, R303) -/

def broadcast : List Byte := List.replicate 6 0xFF

/-- A raw frame of Valaz whose header has KIND 0x02 (15 R461). -/
def isWhistle (f : Frame) : Bool :=
  match f.body with
  | .raw t data => t == 0x88B5 && u8 data 1 == 2
  | .udp .. => false

/-- A Whistle frame that names this module's SERIAL (R461). -/
def namesMe (s : State) (f : Frame) : Bool :=
  isWhistle f &&
  match f.body with
  | .raw _ data => u8 data 2 == 0xFF && u16 data 8 == 16 && bitOf (u16 data 10) 0 == 0 && slice data 16 16 == fit 16 s.sec.otp.serial
  | .udp .. => false

/-- The frame's carrier is enabled, as an address of all zeros does not leave it (18 R536), and for UDP its form, checksum, address
and port are accepted. -/
def carrierOk (s : State) (f : Frame) : Bool :=
  match f.body with
  | .raw t _ => t == 0x88B5 && regBit s 0x6800 0 && !allZero (macOf s f.port)
  | .udp v6 fragment options sumOk sumZero destIp _ _ dstPort _ _ =>
    !fragment && !options && (if sumZero then !v6 else sumOk) && dstPort == regField s 0x6804 0 16 &&
    (if v6 then regBit s 0x6800 2 && !allZero (ip6Of s) && destIp == ip6Of s
     else regBit s 0x6800 1 && !allZero (ip4Of s) && destIp == ip4Of s)

/-- The first enabled 802.1Qci filter that matches a frame (18 R536). -/
def filterOf (s : State) (f : Frame) : Option Nat :=
  (List.range 32).find? (fun k =>
    let a := 0x6600 + 8 * k
    regBit s a 15 && (regBit s a 12 || (f.qTags != 0 && f.vid == regField s a 0 12)) &&
    (regBit s a 14 || regField s a 13 1 == f.port))

/-- Tokens of a filter's meter now, in bits x 32,768; a meter starts full (log 27). -/
def tokensNow (s : State) (k : Nat) : Nat :=
  let a := 0x6604 + 8 * k
  let cap := max 1 (regField s a 20 12) * 8192 * 32768
  match lookup s.meters k with
  | some m => min cap (m.tokens + (s.rtc - m.atRtc) * regField s a 0 20 * 100000)
  | none => cap

/-- The 802.1Qci filters and meters (18 R534, R536): none when the frame is dropped. -/
def policed (s : State) (f : Frame) : Option State :=
  if !regBit s 0x6050 4 then some s
  else match filterOf s f with
  | none => none
  | some k =>
    let a := 0x6600 + 8 * k
    let limit := if regField s a 16 16 = 0 then 9216 else regField s a 16 16
    let cost := f.length * 8 * 32768
    if limit < f.length then none
    else if regField s (a + 4) 0 20 = 0 then some s
    else if cost ≤ tokensNow s k then some { s with meters := put s.meters k ⟨tokensNow s k - cost, s.rtc⟩ }
    else none

/-- The frame passes R302 and R303; a broadcast destination only for a Whistle frame (15 R461). -/
def frameOk (s : State) (f : Frame) : Bool :=
  (f.dest == macOf s f.port || (f.dest == broadcast && isWhistle f)) &&
  decide (f.qTags ≤ 1 ∧ f.rTags.length ≤ 1 ∧ f.length ≤ 9216) && carrierOk s f

/-- Who sent a frame's packet (R304, R321). -/
def frameSource (f : Frame) : Source :=
  let vlan := if f.qTags = 0 then none else some f.vid
  match f.body with
  | .raw _ _ => ⟨.raw, f.port, f.src, 0, 0, vlan, []⟩
  | .udp v6 _ _ _ _ _ srcIp srcPort _ _ _ => ⟨if v6 then .udp6 else .udp4, f.port, srcIp, srcPort, 0, vlan, f.src⟩

/-- Length of the history of 802.1CB vector recovery (18 R534). -/
def cbHistory : Nat := 64

/-- 802.1CB vector recovery of a stream (18 R534): whether the frame is a duplicate, and the state after. A sequence number
outside the history restarts the recovery (log 28). -/
def cbRecover (s : State) (key : List Byte) (seq : Nat) : Bool × State :=
  let rest := s.cbSeen.filter (fun e => e.1 != key)
  match s.cbSeen.find? (fun e => e.1 == key) with
  | none => (false, { s with cbSeen := (key, seq, 1) :: rest })
  | some (_, top, seen) =>
    let d := signed 16 (seq + 65536 - top % 65536)
    if 0 < d ∧ d < cbHistory then
      (false, { s with cbSeen := (key, seq, (seen * 2 ^ d.toNat + 1) % 2 ^ cbHistory) :: rest })
    else if d ≤ 0 ∧ -(cbHistory : Int) < d then
      if bitOf seen (-d).toNat = 1 then (true, s)
      else (false, { s with cbSeen := (key, top, seen + 2 ^ (-d).toNat) :: rest })
    else (false, { s with cbSeen := (key, seq, 1) :: rest })

/-! ### Replies of the front end -/

/-- The front end refuses a packet (R319, R320): untagged before check 7, tagged and cached after it. -/
def refuse (s : State) (r : Req) (op : Nat) (tagged : Bool) (st : Status) (detail retry : Nat) : State :=
  if tagged then answer s r op st detail [] 0 retry else sendReply s (mkReply s r op st detail [] 0 retry)

/-! ### Checks 8 to 10 -/

/-- Opcodes of 11 R339. -/
def assigned (op : Nat) : Bool :=
  op ∈ [0x01, 0x02, 0x03, 0x04, 0x10, 0x11, 0x12, 0x13, 0x20, 0x21, 0x22, 0x30, 0x31, 0x32, 0x33, 0x34, 0x35, 0x40, 0x41, 0x42,
    0x43, 0x44, 0x45, 0x46, 0x50, 0x51, 0x60, 0x61, 0x70, 0x80, 0x81, 0x90, 0x91, 0x92, 0x93, 0x94, 0xA0, 0xA1, 0xE0, 0xE1,
    0xE2, 0xE3, 0xE4]

/-- BUSY by the front end (R328): RETRY_AFTER is an estimate of at least 1 us (log 20). -/
def refuseBusy (s : State) (r : Req) (op : Nat) (detail : Nat) : State :=
  let s := bump s 0x6830 1
  let entropyWaits := s.ent.st != .ready
  let retry :=
    if detail = 0x020A ∨ (detail = 0x020F ∧ entropyWaits) then 0xFFFFFFFF
    else if detail = 0x020F then 1 + Config.openEstimate s.free % 0xFFFFFFFE
    else 1 + Config.retryEstimate s.free % 0xFFFFFFFE
  refuse { s with free := s.free + 1 } r op r.session.isSome .busy detail retry

/-- An accepted command enters its queue with the modes in effect (R323, R332, 17 R507) and is a wake source (15 R461). -/
def accept (s : State) (r : Req) (p : Packet) : State :=
  let p := { p with modes := modesNow s }
  let s := match r.session with
    | some k => modSession s k (fun v => { v with queue := v.queue ++ [p] })
    | none => { s with openQueue := s.openQueue ++ [p] }
  wakeQueued (bump64 s 0x6810 1) p

/-- Admission (R323, R326): a free entry, and service within the budget. -/
def admitPacket (s : State) (r : Req) (p : Packet) (size : Nat) : State :=
  let q := queueOf s r
  if size ≤ q.length then refuseBusy s r p.opcode 0x0208
  else if budget s < queuedService q + serviceOf p.opcode then refuseBusy s r p.opcode 0x0209
  else accept s r p

/-- Checks 8 to 10 of a session's next command: its SEQ is consumed, and one that an earlier round of SEQs lost is lost no longer
(R315, R319, R329). -/
def consume (s : State) (k : Nat) (p : Packet) : State :=
  let r : Req := ⟨some k, p.seq, p.src⟩
  let s := modSession s k (fun v => { v with nextSeq := p.seq + 1, lost := v.lost.filter (· != p.seq) })
  if s.faults.fatal.isSome && !fatalServes p.opcode then refuse s r p.opcode true .fatal 0 0
  else if !assigned p.opcode then refuse s r p.opcode true .badOpcode 0x020E 0
  else admitPacket s r p queueSize

/-! ### Check 7: sequence numbers (R315 to R318) -/

/-- Held commands that now follow in order are checked and admitted (R316). -/
def drainHeld : Nat → State → Nat → State
  | 0, s, _ => s
  | n + 1, s, k =>
    match (session s k).reorder.find? (fun p => p.seq == (session s k).nextSeq) with
    | none => s
    | some p => drainHeld n (consume (modSession s k (fun v => { v with reorder := v.reorder.filter (fun q => q != p) })) k p) k

/-- Passes over the SEQs below `target`: those held proceed, those missing are declared lost (R316). -/
def passGap : Nat → State → Nat → Word → State
  | 0, s, _, _ => s
  | n + 1, s, k, target =>
    let v := session s k
    if v.nextSeq = target then s
    else match v.reorder.find? (fun p => p.seq == v.nextSeq) with
    | some p => passGap n (consume (modSession s k (fun v => { v with reorder := v.reorder.filter (fun q => q != p) })) k p) k target
    | none => passGap n (modSession s k (fun v => { v with nextSeq := v.nextSeq + 1, lost := (v.nextSeq :: v.lost).take 1024 })) k target

/-- The wait of the command held longest ends (R316). -/
def expireHeld (s : State) (k : Nat) : State :=
  match (session s k).reorder with
  | [] => s
  | p :: _ => drainHeld 64 (passGap 64 s k p.seq) k

/-- A STALE_SEQ refusal (R332). -/
def refuseStale (s : State) (r : Req) (op detail : Nat) : State := refuse (bump s 0x6828 1) r op true .staleSeq detail 0

/-- A duplicate is dropped and counted (R317). -/
def dropDuplicate (s : State) : State := bump s 0x6834 1

/-- A command whose SEQ has been seen (R316, R317). -/
def seenBefore (s : State) (k : Nat) (p : Packet) (resend : Bool) : State :=
  let r : Req := ⟨some k, p.seq, p.src⟩
  let v := session s k
  if v.lost.contains p.seq then refuseStale s r p.opcode 0x0207
  else if !resend then dropDuplicate s
  else match v.cache.find? (fun c => c.seq == p.seq) with
  | some c => sendReply s { c with dest := p.src }
  | none =>
    if v.queue.any (fun q => q.seq == p.seq) || s.taken.any (fun t => t.r.session == some k && t.r.seq == p.seq) then dropDuplicate s
    else refuseStale s r p.opcode 0x0206

/-- Check 7 and what follows it. -/
def sequence (s : State) (k : Nat) (p : Packet) (resend : Bool) : State :=
  let s := modSession s k (fun v => { v with lastUse := s.rtc })
  let v := session s k
  let d := (p.seq - v.nextSeq).toInt
  if d = 0 then drainHeld 64 (consume s k p) k
  else if 1 ≤ d ∧ d ≤ 63 then
    if v.reorder.any (fun q => q.seq == p.seq) then dropDuplicate s
    else
      let s := modSession s k (fun v => { v with reorder := v.reorder ++ [p] })
      if regField s 0x6800 8 8 = 0 then expireHeld s k else s
  else if -1024 ≤ d ∧ d ≤ -1 then seenBefore s k p resend
  else refuseStale s ⟨some k, p.seq, p.src⟩ p.opcode 0x0205

/-! ### Sessionless commands (R311, R323) -/

/-- SESSION_OPENs that wait or are being served. -/
def opensPending (s : State) : Nat :=
  s.openQueue.countP (fun p => p.opcode == 0x03) + s.taken.countP (fun t => t.opcode == 0x03)

/-- Entries of the sessionless queue (R323). -/
def openQueueSize : Nat := 64

/-- A sessionless command past its checks: a SESSION_OPEN whose nonce was received in the last second is dropped; the copy is
itself one that was received. -/
def sessionless (s : State) (p : Packet) : State :=
  let r : Req := ⟨none, p.seq, p.src⟩
  if p.opcode ≠ 0x03 then admitPacket s r p openQueueSize
  else
    let nonce := slice p.payload 4 48
    let fresh := s.nonces.filter (fun n => !ended s n.2 1000)
    let kept := if nonce.length = 48 then (nonce, s.rtc) :: fresh.filter (fun n => n.1 != nonce) else fresh
    let s := { s with nonces := kept }
    if nonce.length = 48 ∧ fresh.any (fun n => n.1 == nonce) then dropDuplicate s
    else
      if (List.range 8).all (fun k => (session s k).isOpen) then refuseBusy s r p.opcode 0x020A
      else if 2 ≤ opensPending s then refuseBusy s r p.opcode 0x020F
      else admitPacket s r p openQueueSize

/-! ### Checks 2 to 6 -/

/-- The opcode may be sent without a session (R311; in recovery INFO only, 16 R481). -/
def sessionlessOk (s : State) (op : Nat) : Bool :=
  if s.power.phase = .recovery then op == 0x02
  else op == 0x02 || op == 0x03 || (op == 0x01 && regBit s 0x6800 3)

/-- The header and lengths of a command packet are right (check 2, R307, R310); `lengthOk` judges the packet's length. -/
def headerOk (h : List Byte) (total : Nat) (lengthOk : Nat → Bool) : Bool :=
  u8 h 0 == 1 && u8 h 1 == 0 && (decide (u8 h 2 < 8) || u8 h 2 == 0xFF) && decide (u16 h 8 ≤ 8192 ∧ u16 h 10 < 4) &&
  u32 h 12 == 0 && lengthOk total

/-- A Valaz packet on any carrier goes through the checks 2 to 10 (R319). -/
def receivePacket (s : State) (src : Source) (data : List Byte) (lengthOk : Nat → Bool) : State :=
  let h := fit 16 data
  let tagged := bitOf (u16 h 10) 0 == 1
  let total := 16 + u16 h 8 + (if tagged then 48 else 0)
  let k := u8 h 2
  let op := u8 h 3
  let r : Req := ⟨if k < 8 then some k else none, w32 h 4, src⟩
  let bad := fun (s : State) (detail : Nat) => refuse (bump s 0x6824 1) r op false .badPacket detail 0
  if decide (data.length < 16) || !headerOk h total lengthOk then bad s 0x0201
  else
    let p : Packet := ⟨r.session, op, w32 h 4, slice data 16 (u16 h 8), src, modesNow s⟩
    if k = 0xFF then
      if !sessionlessOk s op then refuse s r op false .accessDenied 0x0203 0
      else if tagged then bad s 0x0202
      else sessionless s p
    else if !(session s k).isOpen then refuse s r op false .accessDenied 0x0204 0
    else if !tagged || op == 0x03 then bad s 0x0202
    else if hmac384 (session s k).kH (data.take (total - 48)) ≠ slice data (total - 48) 48 then
      let f := authFailure s src
      if f.1 then refuse f.2 r op false .authFailed 0x020B 0 else f.2
    else sequence s k p (bitOf (u16 h 10) 1 == 1)

/-! ### Frames -/

/-- The front end runs: its domain is powered and out of reset (15 R473). -/
def frontEndOn (s : State) : Bool := s.power.phase != .off && s.power.phase != .reset

/-- The frame is wake source 2 (15 R461): a Whistle frame only where it names the module, any other frame that passes in Nap and
Den. -/
def frameWakes (s : State) (f : Frame) : Bool :=
  namesMe s f || (!isWhistle f && (sleepState s == .nap || sleepState s == .den))

/-- Bytes behind a packet of `total` bytes are allowed only as padding to the 64-byte minimum (R310). -/
def padded (f : Frame) (data : List Byte) (total : Nat) : Bool :=
  total == data.length || (decide (total < data.length) && decide (f.length ≤ 64))

/-- The packet of an accepted frame. -/
def framePacket (s : State) (f : Frame) : State :=
  if isWhistle f then dropDuplicate s
  else match f.body with
  | .raw _ data => receivePacket s (frameSource f) data (padded f data)
  | .udp _ _ _ _ _ _ _ _ _ udpLen data => receivePacket s (frameSource f) data (fun t => udpLen == 8 + t && padded f data t)

/-- A received frame, from check 1 on (R319). -/
def receiveFrame (s : State) (f : Frame) : State :=
  if !(frontEndOn s && (ethPort s f.port).link) then s
  else if !f.fcsOk then bump s (0x6818 + 4 * f.port) 1
  else if !frameOk s f then bump s 0x6820 1
  else match policed s f with
  | none => bump s 0x6820 1
  | some s =>
    let x := frameSource f
    let dup := match f.rTags.head? with
      | some seq => if regBit s 0x6050 6 then cbRecover s (x.addr ++ leBytes 2 x.udpPort) seq else (false, s)
      | none => (false, s)
    let t := if dup.1 then dropDuplicate dup.2 else framePacket dup.2 f
    if frameWakes s f then wakeSource t 2 f.inWindow else t

/-- R319: FRAME_RECEIVED. -/
def execFrameReceived (f : Frame) (s : State) : Result := .next (receiveFrame s f)

/-- 15 R461: ETHERNET_WHISTLE_FRAME: a frame with KIND 0x02 is dropped and counted; one that names the module wakes it. -/
def execEthernetWhistleFrame (f : Frame) (s : State) : Result := .next (if isWhistle f then receiveFrame s f else s)

/-- R303: an ARP request for the module's IPv4 address is answered. -/
def execArpRequest (port : Nat) (senderMac senderIp targetIp : List Byte) (s : State) : Result :=
  .next (if frontEndOn s && (ethPort s port).link && targetIp == ip4Of s && !allZero targetIp then
    { s with out := .arp port senderMac senderIp :: s.out } else s)

/-- R303: an IPv6 Neighbor Solicitation for the module's address is answered. -/
def execNeighborSolicitation (port : Nat) (senderMac senderIp targetIp : List Byte) (s : State) : Result :=
  .next (if frontEndOn s && (ethPort s port).link && targetIp == ip6Of s && !allZero targetIp then
    { s with out := .neighborAdv port senderMac senderIp :: s.out } else s)

/-- 18 R534: an 802.1AS message of domain 0 updates the disciplined time. -/
def execGptpMessage (port domain timeNs : Nat) (s : State) : Result :=
  .next (if frontEndOn s && (ethPort s port).link && regBit s 0x6050 7 && domain == 0 then
    { s with gptp := some (timeNs, s.rtc) } else s)

/-- R316: REORDER_WAIT_EXPIRY. -/
def execReorderWaitExpiry (k : Nat) (s : State) : Result :=
  .next (if k < 8 ∧ (session s k).isOpen then expireHeld s k else s)

/-- A reply that waited for a link is sent if its cache still holds it (R304). -/
def flushUnsent (s : State) : State :=
  let held := fun (r : Reply) => (session s r.session).isOpen && (session s r.session).cache.contains r
  each (s.unsent.filter held) { s with unsent := [] } sendReply

/-- 18 R533: a control Ethernet port completes training; replies that waited are sent (R304). -/
def execEthLinkUp (port : Nat) (speed25 : Bool) (fec gptp : BitVec 2) (eye : Nat) (s : State) : Result :=
  let ctrl := 0x6000 + 0x10 * port
  let v : EthPort := ⟨true, speed25 && regBit s ctrl 1, fec, if regBit s 0x6050 7 then gptp else 0, eye⟩
  .next (if frontEndOn s && regBit s ctrl 0 && decide (port < 2) then flushUnsent { s with eth := put s.eth port v } else s)

/-- R304: a control Ethernet link goes down. -/
def execEthLinkDown (port : Nat) (s : State) : Result := .next { s with eth := del s.eth port }

/-- 18 R535: a cycle of a port begins; its pending gate control list values take effect. -/
def execGateCycleStart (port : Nat) (s : State) : Result := .next (if port < 2 then gateBoundary s port else s)

end Sys2Proof.Machine
end

