-- ==== Sys2Proof/Machine/Fencing.lean ====
section
/-!
DEFINITION. The disabled-unit map under a fence, the fatal error, and the writing of setting generations (14 R431 to R438,
R446 to R451, 16 R488).
-/

namespace Sys2Proof.Machine

/-! ### The map (R433, R434, R436) -/

/-- A fence of a core would leave fewer than 15 active cores (R434). -/
def exhausts (m : List Byte) (p : Nat) : Bool :=
  decide (mapByte m p < 16) && (reservesOf m).isEmpty && decide (activeOf m ≤ 15)

/-- The map after a fence, the logical number the core held and the core that takes it (0xFF for none): the lowest unused
reserve takes it; with none left and 16 cores active the core of logical 15 does, and logical 15 lapses. -/
def fencePlan (m : List Byte) (p : Nat) : List Byte × Nat × Nat :=
  let l := mapByte m p
  let gone := m.set p 0xFF
  if 16 ≤ l then (gone, l, 0xFF)
  else match reservesOf m with
  | r :: _ => (gone.set r (BitVec.ofNat 8 l), l, r)
  | [] =>
    if l = 15 then (gone, l, 0xFF)
    else match physOfMap m 15 with
    | some h => (gone.set h (BitVec.ofNat 8 l), l, 0xFF)
    | none => (gone, l, 0xFF)

/-- The generation that a fence decided now will be written in: 0 when all four are used (R436, R437). -/
def fenceGeneration (s : State) : Nat := if gensUsed s.sec.otp < 4 then gensUsed s.sec.otp + 1 else 0

/-- Step 1 of a fence (R432): the CORE_FENCED record, its counter, and REPRO_STATUS.FENCE when a logical number moves (09 R300). -/
def recordFence (s : State) (p gen reason : Nat) (plan : List Byte × Nat × Nat) : State :=
  let s := event s 0x0120 1 p 0 ([plan.2.1, plan.2.2, activeOf plan.1, gen, reason].map (BitVec.ofNat 8))
  let s := bump s 0x2018 1
  if plan.2.1 < 16 then reproEvent s 4 else s

/-- The form of a fence that has been carried out: a generation is to be written for it, or it is volatile (R432 step 8, R437). -/
def settleFence (s : State) (p : Nat) : State :=
  if fenceGeneration s = 0 then modCore s p (fun c => { c with volatile := true })
  else { s with faults := { s.faults with otpPending := some (s.faults.otpPending.getD p) } }

/-! ### Setting generations (16 R488) -/

/-- The settings that apply: those of the newest valid generation, or of none (R488). -/
def settingsNow (o : Otp) : Generation :=
  ((newestGen o).map (·.2)).getD { map := o.factoryMap, settings := 1 }

/-- Writes the next free generation with what `f` makes of the settings that apply, valid unless interrupted. -/
def writeGeneration (o : Otp) (interrupted : Bool) (f : Generation → Generation) : Otp :=
  { o with gens := o.gens.set (gensUsed o) { f (settingsNow o) with used := true, valid := !interrupted } }

/-- R436: the generation being written carries the map in force; interrupted, it is used up without becoming valid. -/
def fenceOtpWritten (s : State) (interrupted : Bool) : State :=
  match s.faults.otpPending with
  | none => s
  | some p =>
    let g := gensUsed s.sec.otp + 1
    let s := event s 0x0121 0 p 0 [BitVec.ofNat 8 g, BitVec.ofNat 8 (ofBool interrupted)]
    let s := { s with
      faults := { s.faults with otpPending := none }
      sec := { s.sec with otp := writeGeneration s.sec.otp interrupted (fun c => { c with map := s.map }) } }
    if interrupted then s
    else { s with cores := s.cores.map (fun e => (e.1, { e.2 with volatile := false })) }

/-- R436: FENCE_OTP_WRITE: fences decided while the write is pending are merged into it. -/
def execFenceOtpWrite (interrupted : Bool) (s : State) : Result :=
  .next (if gensUsed s.sec.otp < 4 ∧ s.faults.due = [] then fenceOtpWritten s interrupted else s)

/-! ### Fatal errors (R446, R447, R450, R451) -/

/-- Commands accepted and not yet taken receive FATAL, but for those that the fatal state serves (R329). -/
def endQueue (s : State) (k : Nat) : State :=
  let q := (session s k).queue
  each (q.filter (fun p => !fatalServes p.opcode)) (modSession s k (fun v => { v with queue := q.filter (fun p => fatalServes p.opcode) }))
    (fun s p => answer s ⟨some k, p.seq, p.src⟩ p.opcode .fatal 0 [] 0 0)

/-- Every command taken and not yet replied receives FATAL (10 R329), those in the queues too, and the work of all of them
ends. -/
def endWork (s : State) : State :=
  let s := each s.taken { s with taken := [] } (fun s t => answer s t.r t.opcode .fatal 0 [] 0 0)
  let s := each ((List.range 8).filter (fun k => !(session s k).queue.isEmpty)) s endQueue
  { s with
    moves := [], fills := [], loads := [], saves := [], destroys := [], progs := [], drains := []
    join := { s.join with setReq := none, barriers := [] }
    ent := { s.ent with queue := s.ent.queue.filter (fun q => q.what == .challenge) } }

/-- A dump is begun, or with KEEP_FIRST a dump that is kept stays and the error is counted (R450, R451). -/
def beginDump (s : State) (cause unit trailSeq : Nat) : State :=
  let d := s.faults.dump
  if regBit s 0x2020 0 && d.kept then
    let s := { s with faults := { s.faults with dump := { d with later := d.later + 1 } } }
    writeHbm s (fetchAddr 0x30) (leBytes 4 (d.later + 1))
  else
    let img := runningImage s
    let s := if d.valid then writeHbm s (fetchAddr 0xFC) (zeros 4) else s
    { s with faults := { s.faults with dump :=
      { number := d.number + 1, writing := true, cause := cause, unit := unit, time := (trailTime s).1, trailSeq := trailSeq,
        handlerFw := (handlerSection img).version, coreFw := (coreSection img).version } } }

/-- A fatal error (R447): the Trail thaws and records it, ALERT_N is asserted, unreplied commands receive FATAL, a sleep
sequence stops (15 R463), fences not yet carried out do not start (R435), and the dump is begun. -/
def fatalError (s : State) (cause unit : Nat) : State :=
  let was := alertN s
  let s := event { s with trail := { s.trail with frozen := false } } 0x0700 3 unit 0 (leBytes 2 cause)
  if s.faults.fatal.isSome then
    if regBit s 0x2020 0 && s.faults.dump.kept then beginDump s cause unit 0 else s
  else
    let s := beginDump s cause unit (s.trail.head + s.trail.waiting.length)
    let s := { s with
      faults := { s.faults with fatal := some (cause, unit), due := [] }
      power := { s.power with entering := none, exiting := false } }
    if was then endWork s else inBand (endWork s) 1

/-- R447: FATAL_ERROR. -/
def execFatalError (cause unit : Nat) (s : State) : Result :=
  .next (if s.power.phase = .off ∨ s.power.phase = .reset then s else fatalError s cause unit)

/-! ### Fences decided, and fault counts (R431, R432, R434) -/

/-- Step 1 for the fence at the head of those decided, unless it leaves fewer than 15 active cores (R434). -/
def beginFence (s : State) : State :=
  match s.faults.due with
  | [] => s
  | (p, reason) :: _ =>
    if exhausts s.map p then fatalError s 0x0003 p
    else recordFence s p (fenceGeneration s) reason (fencePlan s.map p)

/-- A fence is decided: it begins, or waits for the end of the sequence in progress; nothing further for a core already due,
fenced or unused (R431, R435). -/
def decideFence (s : State) (p reason : Nat) : State :=
  if s.faults.fatal.isSome || decide (16 ≤ mapByte s.map p) || s.faults.due.any (fun d => d.1 == p) then s
  else
    let t := { s with faults := { s.faults with due := s.faults.due ++ [(p, reason)] } }
    if s.faults.due.isEmpty then beginFence t else t

/-- RETRY_MAX and FENCE_THRESHOLD; 0 acts as 1 (R454). -/
def retryMax (s : State) : Nat := max 1 (regField s 0x2000 0 2)
def fenceThreshold (s : State) : Nat := max 1 (regField s 0x2000 8 8)

/-- `n` faults are counted on a core, with their times within the last second. -/
def countOn (n : Nat) (s : State) (p : Nat) : State :=
  modCore s p (fun c => { c with
    faults := c.faults + n
    times := List.replicate n s.rtc ++ c.times.filter (fun t => !ended s t 1000) })

/-- `n` faults are detected on some cores. -/
def countFault (s : State) (ps : List Nat) (n : Nat) : State := each ps (bump s 0x2010 n) (countOn n)

/-- The count of a core has reached the threshold within one second of the RTC: it is fenced. -/
def checkThreshold (s : State) (p : Nat) : State :=
  if fenceThreshold s ≤ ((coreState s p).times.filter (fun t => !ended s t 1000)).length then decideFence s p 1 else s

end Sys2Proof.Machine
end

