-- ==== Sys2Proof/Machine/Reset.lean ====
section
/-!
DEFINITION. Reset and start-up: PWR_OK, RST_N, warm resets, boot, recovery, START_DONE and THERMTRIP (15 R468 to R475, 16 R479
to R482, R495, 18 R529).
-/

namespace Sys2Proof.Machine

/-! ### What a reset leaves -/

/-- Before a warm reset the waiting events are written and every open interval is closed with its record written (14 R443). -/
def flushTrail (s : State) : State :=
  if s.trail.frozen then s
  else
    let rs := s.trail.waiting.reverse ++ s.trail.intervals.map Interval.record
    each rs { s with trail := { s.trail with waiting := [], intervals := [] } } writeRec

/-- The entropy block after a reset: start-up, with the sources fenced whose three fuses are blown (07 R239, R241). -/
def entReset (o : Otp) : Entropy :=
  let src := fun n => if 3 ≤ o.entropyFails.getD n 0 then SourceState.fenced else .startup
  let sources := (List.range 7).map src
  { sources := sources, st := if sources.countP (· != .fenced) < 2 then .failed else .startup }

/-- The security block after a warm reset: OTP, the slots and the recovery buffer, which is always-on Handler SRAM (13 R413), stay; an
activation takes effect (16 R483). -/
def secReset (c : Security) (otp : Otp) (glitches : List Nat) : Security :=
  { otp := otp, slotA := c.slotA, slotB := c.slotB, preferB := if c.activate then !c.bootB else c.preferB, bootB := c.bootB,
    recovered := c.recovered, recoverBuffer := c.recoverBuffer, glitchTimes := glitches }

/-- A generation whose write is cut off is used up (14 R436). -/
def otpAfterCut (s : State) : Otp :=
  match s.faults.otpPending with
  | some _ => if gensUsed s.sec.otp < 4 then writeGeneration s.sec.otp true (fun c => { c with map := s.map }) else s.sec.otp
  | none => s.sec.otp

/-- Cold start (15 R471, R473): everything takes its reset value, every memory is sealed; OTP, the firmware slots, the levels
of the pins and the model's own fields stay. -/
def coldStart (s : State) : State :=
  let o := otpAfterCut s
  { State.reset with
    pending := s.pending, out := s.out, free := s.free
    map := otpMap o
    ent := entReset o
    sec := { secReset s.sec o [] with recoverBuffer := [] }
    power := { State.reset.power with wakeN := s.power.wakeN, joinId := s.power.joinId, pwrOk := s.power.pwrOk } }

/-- Registers that survive a warm reset: SEC_GLITCH, and the trainings of the HBM PHYs since cold start, each of which trains
again (R473). -/
def keptRegs (s : State) : Map Word :=
  let glitch := match lookup s.regs 0x5010 with
    | some v => [(0x5010, v)]
    | none => []
  glitch ++ (List.range 8).map (fun n => (retrainKey n, BitVec.ofNat 32 ((indStored s (retrainKey n) + 1) % 2 ^ 16)))

/-- The dump after a reset: one being written is cut off (14 R450, R452). -/
def dumpReset (d : Dump) : Dump := { d with writing := false, valid := d.valid && !d.writing }

/-- Warm reset of a kind (15 R471; 1 pin, 2 command, 3 glitch): HBM, the Trail and what R502 keeps survive; every session
closes and the tables empty. -/
def warmReset (s : State) (kind : Nat) : State :=
  let s := flushTrail s
  let o := otpAfterCut s
  let t : Trail := { s.trail with waiting := [], intervals := [], frozen := false, missed := 0 }
  let r : State := { State.reset with
    pending := s.pending, out := s.out, free := s.free, rtc := s.rtc
    regs := keptRegs s
    hbm := s.hbm, marks := s.marks, otherMarks := s.otherMarks.filter (fun e => decide (18 ≤ e.1 / 2 ^ 29))
    modelGens := s.modelGens, ctxGens := s.ctxGens
    map := otpMap o
    faults := { dump := dumpReset s.faults.dump }
    trail := t
    ent := entReset o
    sec := secReset s.sec o s.sec.glitchTimes
    tap := s.tap
    power := { State.reset.power with
      phase := if s.power.rstN then .reset else .starting
      resetKind := kind, resetAt := s.rtc, rstN := s.power.rstN, pwrOk := s.power.pwrOk, wakeN := s.power.wakeN
      joinId := s.power.joinId } }
  let r := match s.faults.otpPending with
    | some p => event r 0x0121 0 p 0 [BitVec.ofNat 8 (gensUsed s.sec.otp + 1), 1]
    | none => r
  event r 0x0905 0 unitHandler 0 [BitVec.ofNat 8 kind]

/-- The module without power (15 R469, R470, R475): only OTP, the firmware slots and the levels of the pins are held. -/
def powerOff (s : State) : State :=
  let t := coldStart s
  { t with trail := {}, power := { t.power with phase := .off, rstN := s.power.rstN } }

/-! ### PWR_OK, RST_N and the resets -/

/-- 15 R473, 18 R529: PWR_OK_ASSERT. -/
def execPwrOkAssert (s : State) : Result :=
  .next (if s.power.pwrOk ∨ s.power.inputBad then s
    else
      let s := { s with power := { s.power with pwrOk := true } }
      if s.power.rstN then { s with power := { s.power with phase := .reset, coldDue := true } } else coldStart s)

/-- 15 R469, 18 R529: PWR_OK_DEASSERT. -/
def execPwrOkDeassert (s : State) : Result :=
  .next (powerOff { s with power := { s.power with pwrOk := false } })

/-- 18 R529: input below 44 V or above 59 V is treated as PWR_OK deasserted, until PWR_OK itself has been. -/
def execInputUndervoltage (mv : Nat) (s : State) : Result :=
  .next (if s.power.pwrOk ∧ (mv < 44000 ∨ 59000 < mv) then
      let t := powerOff s
      { t with power := { t.power with inputBad := true } }
    else s)

/-- 15 R470, R472: RST_N_ASSERT: links go down, HBM enters self-refresh and a warm reset is due. -/
def execRstNAssert (s : State) : Result :=
  let t := { s with power := { s.power with rstN := true } }
  .next (match s.power.phase with
    | .off => t
    | .tripped => t
    | .reset => t
    | _ => { t with eth := [], power := { t.power with resetDue := some 1 } })

/-- 15 R471, R472: WARM_RESET: the reset that is due takes effect. -/
def execWarmReset (s : State) : Result :=
  .next (match s.power.resetDue with
    | some kind => warmReset s kind
    | none => s)

/-- 15 R471, R473: RST_N_DEASSERT. -/
def execRstNDeassert (s : State) : Result :=
  let t := { s with power := { s.power with rstN := false } }
  .next (if s.power.phase = .reset then
      if s.power.coldDue then coldStart t else { t with power := { t.power with phase := .starting } }
    else t)

/-- 16 R495: GLITCH_DETECTED: the keys, the DRBG state, the bottom tree and the challenge are cleared and a warm reset by
glitch is due. -/
def execGlitchDetected (kind unit : Nat) (s : State) : Result :=
  .next (match s.power.phase with
    | .off => s
    | .reset => s
    | _ =>
      let s := closeAll s
      let s := bump s 0x5010 1
      let s := event s 0x0A07 2 unitSecurity 0 [BitVec.ofNat 8 kind, BitVec.ofNat 8 unit]
      { s with
        sec := { s.sec with hss := none, challenge := none, glitchTimes := (s.rtc :: s.sec.glitchTimes).take 8 }
        ent := { s.ent with instantiated := false, outputs := [], drbg := drbgZero }
        power := { s.power with resetDue := some (s.power.resetDue.getD 3) } })

/-! ### Boot and recovery (16 R480, R481) -/

/-- After 8 glitch resets within 60 s the boot ROM waits 1 s before each further boot (R495). -/
def bootWaits (s : State) : Bool :=
  s.sec.glitchTimes.length == 8 && s.sec.glitchTimes.all (fun t => !ended s t 60000) && !ended s s.power.resetAt 1000

/-- The image in a slot runs (R480): the BOOT record names the slot, the version and the slots skipped. -/
def runSlot (s : State) (b : Bool) (skipped : Nat) : State :=
  let s := { s with
    sec := { s.sec with bootB := b }
    power := { s.power with phase := .booted } }
  event s 0x0A01 0 unitSecurity 0
    [BitVec.ofNat 8 (ofBool b), BitVec.ofNat 8 (imageVersion (runningImage s)), BitVec.ofNat 8 skipped]

/-- 16 R480, R481: BOOT: the preferred slot, then the other; neither boots: recovery. By then the Leash ports have begun training
(15 R473). -/
def execBoot (s : State) : Result :=
  .next (if s.power.phase = .starting ∧ bootWaits s = false then
      let s := startPorts s
      let ok := fun b => slotBoots s.sec.otp (if b then s.sec.slotB else s.sec.slotA)
      if ok s.sec.preferB then runSlot s s.sec.preferB 0
      else if ok !s.sec.preferB then runSlot s (!s.sec.preferB) 1
      else { s with power := { s.power with phase := .recovery } }
    else s)

/-- The bytes of the recovery buffer from its start: as many as the image there says it has (log 25). -/
def recoveryImage (s : State) : List Byte :=
  let all := (s.sec.recoverBuffer.zip (List.range maxImage)).takeWhile (fun e => e.1.1 == e.2)
  let bytes := all.map (fun e => e.1.2)
  bytes.take (imageLength bytes)

/-- 16 R481: GO: the boot ROM verifies the image in the recovery buffer and boots it from slot A, or refuses it. -/
def recover (s : State) : State :=
  let img := recoveryImage s
  if slotBoots s.sec.otp img then
    let s := { s with sec := { s.sec with slotA := img, preferB := false, recovered := true } }
    runSlot (event s 0x0A09 2 unitSecurity 0 [0]) false 0
  else event (orReg s 0x5018 4) 0x0A09 2 unitSecurity 0 [1]

/-! ### START_DONE (14 R438, 15 R473, 16 R482) -/

/-- A core that fails the start-up self-test is fenced in the map being formed (R433, R438), or the start leaves too few cores. -/
def fenceAtStart (s : State) (p : Nat) : State :=
  if s.faults.fatal.isSome ∨ mapByte s.map p = 0xFF then s
  else
    let s := if Config.generatorFailed s.free p then bump (modCore s p (fun c => { c with faults := c.faults + 1, katFail := true })) 0x2010 1 else s
    let s := { s with free := s.free + 1 }
    if exhausts s.map p then fatalError s 0x0007 unitHandler
    else
      let plan := fencePlan s.map p
      settleFence { recordFence s p (fenceGeneration s) 4 plan with map := plan.1 } p

/-- The Handler raises the rollback counter to the running image's version (16 R482). -/
def advanceRollback (s : State) : State :=
  let v := imageVersion (runningImage s)
  let old := s.sec.otp.rollback
  if regBit s 0x5004 0 && decide (old < v) then
    let s := { s with sec := { s.sec with otp := { s.sec.otp with rollback := min v 64 } } }
    event s 0x0A02 0 unitSecurity 0 [BitVec.ofNat 8 old, BitVec.ofNat 8 (min v 64)]
  else s

/-- 15 R473: START_DONE: the map is formed, and the Handler takes commands. -/
def execStartDone (failed : List Nat) (s : State) : Result :=
  .next (if s.power.phase = .booted ∧ s.faults.fatal = none then
      let t := each ((List.range 18).filter (fun p => failed.contains p)) { s with map := otpMap s.sec.otp } fenceAtStart
      if t.faults.fatal.isSome then t
      else advanceRollback { t with power := { t.power with phase := .running } }
    else s)

/-! ### THERMTRIP (15 R468) -/

/-- What a sensor reads for a temperature: TRIM is added, limited to 64 sixteenths either way (18 R539). -/
def reading (s : State) (n : Nat) (temp : Int) : Int := temp + max (-64) (min 64 (signed 8 (indStored s (trimKey n))))

/-- A sensor has converted (R539). -/
def setSensor (s : State) (n : Nat) (temp : Int) : State :=
  { s with power := { s.power with sensors := put s.power.sensors n ⟨reading s n temp, true⟩ } }

/-- 15 R468: THERMTRIP: THERMTRIP_N is asserted and the main regulators turn off, until a cold start. -/
def execThermtrip (n : Nat) (temp : Int) (s : State) : Result :=
  .next (match s.power.phase with
    | .off => s
    | .tripped => s
    | _ =>
      if n < 24 ∧ 115 * 16 ≤ reading s n temp then
        let s := event (setSensor s n temp) 0x0904 4 unitHandler 0 [BitVec.ofNat 8 n, BitVec.ofNat 8 (degrees (reading s n temp))]
        { s with hbm := [], marks := [], spad := [], spadMarks := [], power := { s.power with thermtrip := true, phase := .tripped, resetDue := none } }
      else s)

end Sys2Proof.Machine
end

