-- ==== Sys2Proof/Machine/Leash.lean ====
section
/-!
DEFINITION. Leash links: CTRL flits, acknowledgement and replay, retraining, message reception and violations (12 R371 to R387,
R398 to R401).
-/

namespace Sys2Proof.Machine

/-! ### Ports -/

/-- The SerDes are powered and out of reset (15 R456, R470, R473). -/
def serdesOn (s : State) : Bool :=
  (match s.power.phase with
    | .off => false
    | .reset => false
    | .tripped => false
    | _ => true) &&
  !s.power.rstN && (s.power.st == .run || s.power.st == .doze || s.power.exiting)

/-- A port of the module that is ACTIVE. -/
def linkActive (s : State) (n : Nat) : Bool := decide (n < 4) && serdesOn s && (port s n).st == .active

/-- The CTRL flit that a receiver sends: NAK_SEQ always names the SEQ expected next (R380). -/
def ctrlFlit (p : Port) (nak : Bool) (notice : Nat) : CtrlFlit :=
  { ok := true, ackValid := p.accepted, ackSeq := (p.rxSeq + 4095) % 4096, nak := nak, nakSeq := p.rxSeq,
    freed := p.freed, notice := notice, reservedZero := true }

/-- A CTRL flit's 64 bytes (R373, R380). -/
def ctrlBytes (f : CtrlFlit) : List Byte :=
  flitBytes 0 0 0 (leBytes 2 (f.ackSeq + 0x8000 * ofBool f.ackValid) ++ leBytes 2 (f.nakSeq + 0x8000 * ofBool f.nak) ++
    (List.range 4).flatMap (fun v => leBytes 2 (f.freed.getD v 0)) ++ leBytes 1 f.notice)

def sendCtrl (s : State) (n : Nat) (nak : Bool) (notice : Nat) : State :=
  let p := port s n
  { setPort s n { p with sinceCtrl := 0 } with out := .ctrl n (ctrlFlit p nak notice) :: s.out }

/-- A discarded sequenced flit: the first discard sends a NAK naming the expected SEQ (R381). -/
def discardFlit (s : State) (n : Nat) : State :=
  if (port s n).nakSent then s else sendCtrl (modPort s n (fun p => { p with nakSent := true })) n true 0

/-- A violation with its Trail record: port, VL and row of R398, counted from 0 (R379, R398). -/
def violation (s : State) (n vl row : Nat) : State :=
  coalesce (bump s (portReg n 0x28) 1) (.link n) 0x0600 2 (unitLeash n) [BitVec.ofNat 8 vl, BitVec.ofNat 8 row]

/-- A credit overrun of one flit (R379): after 16 within 1 ms the port retrains. -/
def creditOverrun (s : State) (n vl : Nat) : State :=
  let s := discardFlit (violation s n vl 0) n
  let times := s.rtc :: (port s n).overruns.filter (fun t => !ended s t 1)
  let s := modPort s n (fun p => { p with overruns := times })
  if 16 ≤ times.length then startTraining s n else s

/-- R381, R398: FLIT_CRC_ERROR. -/
def execFlitCrcError (n _seq _vl : Nat) (why : FlitError) (s : State) : Result :=
  .next (if !linkActive s n then s
    else match why with
    | .crc => discardFlit (bump s (portReg n 0x20) 1) n
    | .ctrlCrc => bump s (portReg n 0x20) 1
    | .fec => discardFlit (bump s (portReg n 0x24) 1) n
    | .type3 => bump s (portReg n 0x28) 1
    | .ctrlReserved => bump s (portReg n 0x28) 1
    | .unexpectedSeq => discardFlit s n
    | .seqWindow => discardFlit (bump s (portReg n 0x28) 1) n)

/-! ### Acknowledgement and replay (R380 to R382) -/

/-- How far a SEQ lies behind the oldest flit of the replay buffer, if it is there. -/
def replayPlace (p : Port) (seq : Nat) : Option Nat :=
  match p.replay with
  | [] => none
  | x :: _ => if (seq + 4096 - x.seq) % 4096 < p.replay.length then some ((seq + 4096 - x.seq) % 4096) else none

/-- The flits up to an acknowledged SEQ leave the replay buffer. -/
def acknowledge (p : Port) (seq : Nat) : Port :=
  match replayPlace p seq with
  | none => p
  | some k => { p with replay := p.replay.drop (k + 1), lastAck := seq }

/-- Flits of the replay buffer are sent again, in order. -/
def sendAgain (s : State) (n : Nat) (fs : List Sent) : State :=
  { s with out := (fs.map (fun x => Out.flit n (msgFlit x.msg x.index x.seq))).reverse ++ s.out }

/-- Sends again every flit from a SEQ onward (LK_RETRY counts the replay). -/
def replayFrom (s : State) (n seq : Nat) : State :=
  sendAgain (bump s (portReg n 0x30) 1) n (((replayPlace (port s n) seq).map (fun k => (port s n).replay.drop k)).getD [])

/-- LEASH_NAK_REPLAY (R381, R382): a NAK replays; 8 consecutive NAKs for one SEQ retrain the port. -/
def nakReplay (s : State) (n seq : Nat) : State :=
  let p := port s n
  let k := if p.naks ≠ 0 ∧ p.nakSeq = seq then p.naks + 1 else 1
  let s := setPort s n { p with naks := k, nakSeq := seq }
  if 8 ≤ k then startTraining s n else replayFrom s n seq

/-- R381: CTRL_FLIT_DUE. -/
def execCtrlFlitDue (n : Nat) (s : State) : Result := .next (if linkActive s n then sendCtrl s n false 0 else s)

/-- R381: LEASH_REPLAY_TIMEOUT: everything unacknowledged is sent again from the oldest flit. -/
def execLeashReplayTimeout (n : Nat) (s : State) : Result :=
  .next (if linkActive s n then
    match (port s n).replay with
    | [] => s
    | m :: _ => replayFrom s n m.seq
    else s)

/-- R382: LEASH_CTRL_TIMEOUT. -/
def execLeashCtrlTimeout (n : Nat) (s : State) : Result := .next (if linkActive s n then startTraining s n else s)

/-- R382: LANE_SIGNAL_LOSS on a lane of the trained width. -/
def execLaneSignalLoss (n lane : Nat) (s : State) : Result :=
  .next (if linkActive s n && (port s n).lanes.getLsbD lane then startTraining s n else s)

/-- R383: LEASH_TRAINING_TIMEOUT: training starts again. -/
def execLeashTrainingTimeout (n : Nat) (s : State) : Result :=
  .next (if decide (n < 4) && serdesOn s && (port s n).st == .training then startTraining s n else s)

/-- R400: LEASH_FRAME_BOUNDARY: LK_CTRL takes effect; with EN at 0 the port is DOWN, and with EN at 1 again it trains. A joined port
that goes DOWN stays joined until its member is lost (R394). -/
def execLeashFrameBoundary (n : Nat) (s : State) : Result :=
  .next (if n < 4 then
    let s := frameBoundary s n
    if regBit s (portReg n 0) 0 then
      (if (port s n).st == .down && serdesOn s && s.power.phase != .starting then startTraining s n else s)
    else modPort s n (fun p => { p with st := .down, lanes := 0, width := 0, carry := false, whistling := false })
    else s)

/-! ### Reception (R374 to R379, R398) -/

/-- Data bytes of a message: a READ_REQ asks for LENGTH bytes and carries none (R375). -/
def dataLen (m : LeashMsg) : Nat := if m.kind = 0x03 then 0 else m.length

/-- Flits that a run of a message brings. -/
def runFlits (m : LeashMsg) : Nat := if m.first = 0 then flitsOf m.data.length else (m.data.length + 59) / 60

/-- A message for another member stays in the receive buffer until it is forwarded (R378, R391). -/
def staysHeld (s : State) (m : LeashMsg) : Bool := (m.kind == 0x01 || m.kind == 0x02) && m.destMember != s.join.self

/-- Flits of a port's buffer that messages to be forwarded hold. -/
def heldFlits (s : State) (n vl : Nat) : Nat :=
  (s.ports.map (fun e => ((e.2.waiting.filter (fun o => o.origin == some n && o.msg.vl == vl)).map (·.held)).sum)).sum +
  (lookup (port s n).partials vl).elim 0 (fun m => if staysHeld s m then runFlits m else 0)

/-- Free flits of a port's buffer. -/
def bufferRoom (s : State) (n vl : Nat) : Nat := vlBuffer vl - heldFlits s n vl

/-- The kind travels in the virtual lane (R375). -/
def kindInVl (kind vl : Nat) : Bool :=
  match kind with
  | 0x01 => vl == 0 || vl == 1
  | 0x02 => vl == 2
  | 0x03 => vl == 1
  | 0x04 => vl == 1
  | 0x05 => vl == 2
  | 0x06 => vl == 3
  | 0x07 => vl == 3
  | 0x08 => vl == 3
  | 0x09 => vl == 0
  | _ => false

/-- The module is joined (R393). -/
def joined (s : State) : Bool := s.join.st == .complete || s.join.st == .incomplete

/-- DEST_MEMBER is this member, or for a WRITE and its answer another member of a glueless join (R391); on a port without
PARTNER_JOINED only VL2 and bridge traffic is carried (R385). -/
def destKnown (s : State) (m : LeashMsg) : Bool :=
  ((port s m.port).partnerJoined || m.vl == 2 || m.srcMember == bridge) &&
  (m.destMember == s.join.self ||
    ((m.kind == 0x01 || m.kind == 0x02) && joined s && s.join.topology != 4 && decide (m.destMember < s.join.count)))

/-- The message keeps the rules of R374 and R375 (R398). -/
def messageOk (s : State) (m : LeashMsg) : Bool :=
  kindInVl m.kind m.vl && decide (m.length ≤ 4096) && destKnown s m

/-- Flits of a run that are accepted: those in sequence while the buffer has room; the flits of a message that is not forwarded leave
it at once (R379, R381). -/
def acceptedOf (s : State) (m : LeashMsg) : Nat :=
  if m.seq ≠ (port s m.port).rxSeq ∨ bufferRoom s m.port m.vl = 0 then 0
  else if staysHeld s m then min (runFlits m) (bufferRoom s m.port m.vl) else runFlits m

/-- Flits are accepted in order: SEQ, acknowledgement and, unless they stay held, freed buffer. -/
def acceptFlits (s : State) (m : LeashMsg) (k : Nat) : State :=
  let s := modPort s m.port (fun p => { p with
    rxSeq := (p.rxSeq + k) % 4096, accepted := true, nakSent := false, sinceCtrl := p.sinceCtrl + k })
  let s := if staysHeld s m then s else freeFlits s m.port m.vl k
  if 64 ≤ (port s m.port).sinceCtrl then sendCtrl s m.port false 0 else s

/-- The message as far as it has arrived with the first `k` flits of a run; none for BODY flits that continue nothing. -/
def joinRun (s : State) (m : LeashMsg) (k : Nat) : Option LeashMsg :=
  let data := if k = runFlits m then m.data else m.data.take (if m.first = 0 then 60 * k - 24 else 60 * k)
  if m.first = 0 then some { m with data := data }
  else ((lookup (port s m.port).partials m.vl).filter (fun h => runFlits h == m.first)).map (fun h => { h with data := h.data ++ data })

/-- The message under way in a virtual lane of a port. -/
def setPartial (s : State) (n vl : Nat) (m : Option LeashMsg) : State :=
  modPort s n (fun p => { p with partials := m.elim (del p.partials vl) (put p.partials vl) })

/-- A message that breaks R374, R375 or R399 is discarded, with every segment of its Valaz packet (R398). -/
def brokenMsg (s : State) (m : LeashMsg) : State :=
  let s := if staysHeld s m then freeFlits s m.port m.vl (runFlits m) else s
  let s := if m.kind = 0x05 then modPort s m.port (fun p => { p with partial? := none }) else s
  violation s m.port m.vl 5

/-- A message has arrived as far as its data go: it is kept until its last flit, and then handled by `f`. -/
def arrived (s : State) (m : LeashMsg) (f : LeashMsg → State → State) : State :=
  if runFlits m < flitsOf (dataLen m) then setPartial s m.port m.vl (some m)
  else
    let s := setPartial s m.port m.vl none
    if messageOk s m then f m s else brokenMsg s m

/-- A run of flits of a message of a kind arrives: buffer and SEQ are checked flit by flit (R379, R381); a row of another kind than its
own takes only a reserved one (R398). -/
def receiveMsg (s : State) (kind : Nat) (m : LeashMsg) (f : LeashMsg → State → State) : State :=
  if !linkActive s m.port || (m.kind != kind && decide (1 ≤ m.kind ∧ m.kind ≤ 9)) then s
  else
    let full := bufferRoom s m.port m.vl = 0
    let k := acceptedOf s m
    let t := if k = 0 then s else ((joinRun s m k).elim (acceptFlits s m k) (fun h => arrived (acceptFlits s m k) h f))
    if k = runFlits m then t
    else if k = 0 ∧ !full then discardFlit t m.port
    else each (List.range (runFlits m - k)) t (fun t _ => creditOverrun t m.port m.vl)

/-! ### Routes (R390, R391) -/

/-- The lowest bit in which two numbers differ, among 18. -/
def lowestDiff (a b : Nat) : Option Nat := (List.range 18).find? (fun i => bitOf a i != bitOf b i)

/-- The member at the other end of a joined port. -/
def memberAt (s : State) (n : Nat) : Option Nat := if (port s n).partnerJoined then (port s n).partner.map (·.selfIndex) else none

/-- Ports joined to other members. -/
def joinedPorts (s : State) : List Nat := (List.range 4).filter (fun n => (port s n).partnerJoined)

/-- The ports on which a message to a member may leave: every ACTIVE one to a PAIR partner, the one of dimension order in the
other glueless topologies, the lowest joined one in SWITCHED (R390, R391). -/
def routesTo (s : State) (dest : Nat) : List Nat :=
  let ready := (joinedPorts s).filter (fun n => (port s n).st == .active || (port s n).st == .asleep || (port s n).st == .training)
  match s.join.topology with
  | 1 => if (ready.filter (fun n => (port s n).st == .active)).isEmpty then ready.take 1
         else ready.filter (fun n => (port s n).st == .active)
  | 2 => ready.filter (fun n => n + 1 == Nat.xor s.join.self dest)
  | 3 => (match lowestDiff s.join.self dest with
      | some d => ready.filter (fun n => n == d)
      | none => [])
  | 4 => ready.take 1
  | _ => []

/-- A message to a member leaves by its first route; without one it is dropped. -/
def sendTo (s : State) (dest : Nat) (m : LeashMsg) : State :=
  match routesTo s dest with
  | n :: _ => sendMsg s n m
  | [] => s

/-- A WRITE or WRITE_ACK for another member is forwarded (R391, R396); one for which there is no route is dropped. -/
def forward (s : State) (m : LeashMsg) : State :=
  match routesTo s m.destMember with
  | n :: _ => if s.join.lost.contains m.destMember then freeFlits s m.port m.vl (runFlits m)
      else queueMsg s n m (some m.port)
  | [] => freeFlits s m.port m.vl (runFlits m)

/-- The answer to a message: to its sender, on the port it came from when that is a bridge. -/
def answerMsg (s : State) (m : LeashMsg) (vl kind : Nat) (data : List Byte) : State :=
  let a := leashMsg s m.port vl kind m.srcMember m.tag.toNat 0 data
  if m.srcMember = bridge then sendMsg s m.port a else sendTo s m.srcMember a

/-! ### WRITE (R375, R396, R398) -/

/-- R375: WRITE. -/
def execWrite (m : LeashMsg) (s : State) : Result :=
  .next (receiveMsg s 0x01 m (fun m s =>
    if m.destMember ≠ s.join.self then forward s m
    else
      let n := m.data.length
      if inMap m.addr n && !writeProtected s m.addr n then answerMsg (writeHbm s m.addr m.data) m 2 0x02 [0x00]
      else answerMsg s m 2 0x02 [0x04]))

/-- R375: READ_REQ: it asks a bridge for host memory; this module is none, so the message is a violation (R398). -/
def execReadReq (m : LeashMsg) (s : State) : Result :=
  .next (receiveMsg s 0x03 m (fun m s => brokenMsg s m))

/-! ### Valaz over the bridge (R399) -/

/-- What a VALAZ segment leads to: a violation, more to come, or a whole packet. -/
inductive Joining
  | broken
  | more (next : Word × Nat × List Byte)
  | whole (bytes : List Byte)
deriving DecidableEq, Repr

/-- Joins a segment to what has arrived (R399); a segment that breaks the rule is discarded with those that have arrived. -/
def joinSegment (held : Option (Word × Nat × List Byte)) (m : LeashMsg) : Joining :=
  let index := m.segment % 4
  let last := bitOf m.segment 7 == 1
  let shapeOk := m.segment % 128 < 3 && (last || m.data.length == 4096)
  let start := if last then Joining.whole m.data else .more (m.tag, 1, m.data)
  match held with
  | none => if shapeOk && index == 0 then start else .broken
  | some (tag, next, bytes) =>
    if tag ≠ m.tag || !shapeOk || index != next then .broken
    else if last then .whole (bytes ++ m.data)
    else .more (tag, next + 1, bytes ++ m.data)

/-- R399: VALAZ. -/
def execValaz (m : LeashMsg) (s : State) : Result :=
  .next (receiveMsg s 0x05 m (fun m s =>
    let keep := fun (s : State) (v : Option (Word × Nat × List Byte)) => modPort s m.port (fun p => { p with partial? := v })
    match joinSegment (port s m.port).partial? m with
    | .broken => violation (keep s none) m.port m.vl 5
    | .more v => keep s (some v)
    | .whole bytes => receivePacket (keep s none) ⟨.leash, m.port, [], 0, m.srcMember, none, []⟩ bytes (fun t => t == bytes.length)))

end Sys2Proof.Machine
end

