-- ==== Sys2Proof/Machine/Moves.lean ====
section
/-!
DEFINITION. MOVE and the Leash messages that carry it (11 R336, R359, R361, 12 R375, R391, R396).
-/

namespace Sys2Proof.Machine

/-! ### Regions (R336) -/

/-- The checks of a region: inside the map and aligned (0x0303), and clear of what may not be written (0x0304). -/
def regionChecks (s : State) (a n align : Nat) (write : Bool) : List (Bool × Status × Nat) :=
  [(!inMap a n || a % align != 0, badRegion), (write && writeProtected s a n, badOverlap)]

/-! ### Work in progress -/

def findMove (s : State) (r : Req) : Option Move := s.moves.find? (fun m => m.r == r)

def setMove (s : State) (v : Move) : State := { s with moves := s.moves.map (fun m => if m.r == v.r then v else m) }

/-- A WRITE or READ_REQ of this member's own MOVEs with one of some TAGs. -/
def ownPiece (tags : List Word) (o : Outgoing) : Bool :=
  o.origin.isNone && (o.msg.kind == 0x01 || o.msg.kind == 0x03) && tags.contains o.msg.tag

/-- A MOVE replies with BYTES_MOVED and is over; its messages that have not begun are dropped (R359, R396). -/
def endMove (s : State) (m : Move) (st : Status) (detail : Nat) : State :=
  let tags := m.tags.map (·.1)
  let s := { s with
    moves := s.moves.filter (fun x => !(x.r == m.r))
    ports := s.ports.map (fun e => (e.1, { e.2 with waiting := e.2.waiting.filter (fun o => !(o.next == 0 && ownPiece tags o)) })) }
  reply s m.r 0x60 st detail (leBytes 8 m.done)

/-- The last byte has been acknowledged: OK, or DATA_ERROR after a bad source word. -/
def finishIfDone (s : State) (m : Move) : State :=
  if m.tags.isEmpty then (if m.bad then endMove s m .dataError 0x0307 else endMove s m .ok 0) else s

/-- The port of the bridge: the lowest ACTIVE one whose other end is none of the system's (12 R385, R390). -/
def bridgePort (s : State) : Option Nat :=
  (List.range 4).find? (fun n => (port s n).st == .active && (port s n).partner.isNone)

/-- Takes the next TAG. -/
def newTag (s : State) : Word × State :=
  (s.join.nextTag, { s with join := { s.join with nextTag := s.join.nextTag + 1 } })

/-- Sends the messages of a MOVE over Leash, one for each piece of at most 4,096 bytes, round robin over the routes (R391):
the pieces' offsets and lengths. -/
def sendPieces (s : State) (m : Move) (routes : List Nat) (pieces : List (Nat × Nat)) : State × Move :=
  pieces.foldl (fun (acc : State × Move) p =>
    let t := newTag acc.1
    let n := routes.getD (p.1 / 4096 % max 1 routes.length) 0
    let base := leashMsg t.2 n (if m.kind = 3 then 0 else 1) (if m.kind = 5 then 0x03 else 0x01)
      (if m.kind = 3 then m.member else bridge) t.1.toNat ((if m.kind = 5 then m.src else m.dst) + p.1)
      (if m.kind = 5 then [] else slice m.data p.1 p.2)
    (sendMsg t.2 n { base with length := p.2 }, { acc.2 with tags := acc.2.tags ++ [(t.1, p.1, p.2)] })) (s, m)

/-- Offsets and lengths of the pieces of `n` bytes. -/
def piecesOf (n : Nat) : List (Nat × Nat) := (List.range ((n + 4095) / 4096)).map (fun k => (4096 * k, min 4096 (n - 4096 * k)))

/-- A MOVE over Leash starts: its WRITEs or READ_REQs wait for their ports. -/
def startRemote (s : State) (m : Move) (routes : List Nat) : State :=
  let got := if m.kind = 5 then ([], true, s) else readPart s m.src m.len
  let m := { m with data := got.1, bad := !got.2.1 }
  let sent := sendPieces got.2.2 m routes (piecesOf (if m.kind = 5 then m.len else got.1.length))
  finishIfDone { sent.1 with moves := sent.1.moves ++ [sent.2] } sent.2

/-- R359, R361: MOVE. -/
def execMove (r : Req) (p : List Byte) (s : State) : Result :=
  serve s r 0x60 none none (fun s =>
    let kind := u8 p 0
    let member := u32 p 4
    let src := u64 p 8
    let dst := u64 p 16
    let len := u64 p 24
    checked s r 0x60
      ([(decide (p.length < 32) || (kind != 1 && p.length != 32), badLength),
        (!allZero (slice p 1 3), badReserved),
        (decide (5 < kind), badRange),
        ((kind == 1 && src != 0) || (kind == 2 && dst != 0), badReserved),
        (kind == 1 && len + 32 != p.length, badLength),
        ((member == bridge) == (kind == 3) || (kind == 2 && decide (8184 < len)) ||
          (kind == 3 && joined s && decide (s.join.count ≤ member)), badRange)] ++
       (if kind = 0 ∨ kind = 2 ∨ kind = 3 ∨ kind = 4 then regionChecks s src len 1 false else []) ++
       (if kind = 0 ∨ kind = 1 ∨ kind = 5 then regionChecks s dst len 1 true else []) ++
       (if kind = 3 then [(!inMap dst len, badRegion)] else []) ++
       [(kind == 3 && s.join.st == .incomplete, .joinIncomplete, 0x0350),
        (kind == 3 && (!joined s || (routesTo s member).isEmpty), .notReady, 0x0351),
        ((kind == 4 || kind == 5) && (bridgePort s).isNone, .notReady, 0x0351)]) (fun s =>
      let m : Move := { r := r, kind := kind, member := member, src := src, dst := dst, len := len,
                        data := if kind = 1 then p.drop 32 else [], done := 0, bad := false, tags := [] }
      let s := hold s r 0x60 none none
      if kind < 3 then { s with moves := s.moves ++ [m] }
      else startRemote s m (if kind = 3 then routesTo s member else (bridgePort s).toList)))

/-- R359: MOVE_COMPLETE: a local MOVE finishes its last byte and replies. -/
def execMoveComplete (r : Req) (s : State) : Result :=
  .next (match findMove s r with
    | none => s
    | some m =>
      if 3 ≤ m.kind then s
      else
        let got := if m.kind = 1 then (m.data, true, s) else readPart s m.src m.len
        let s := if m.kind = 2 then got.2.2 else writeHbm got.2.2 m.dst got.1
        let s := { s with moves := s.moves.filter (fun x => !(x.r == m.r)) }
        let out := leBytes 8 got.1.length ++ (if m.kind = 2 then got.1 else [])
        if got.2.1 then reply s r 0x60 .ok 0 out else reply s r 0x60 .dataError 0x0307 out)

/-- The MOVE of a kind that waits for an answer with a TAG, and the piece. -/
def moveOf (s : State) (tag : Word) (read : Bool) : Option (Move × Nat × Nat) :=
  s.moves.findSome? (fun m =>
    if (m.kind == 5) == read then (m.tags.find? (fun t => t.1 == tag)).map (fun t => (m, t.2.1, t.2.2)) else none)

/-- R375: WRITE_ACK completes its WRITE, or is forwarded (R391). -/
def execWriteAck (m : LeashMsg) (s : State) : Result :=
  .next (receiveMsg s 0x02 m (fun m s =>
    if m.destMember ≠ s.join.self then forward s m
    else
      match moveOf s m.tag false with
      | none => s
      | some (v, _, len) =>
        let v := { v with tags := v.tags.filter (fun t => t.1 != m.tag) }
        if u8 m.data 0 = 0 then
          let v := { v with done := v.done + len }
          finishIfDone (setMove s v) v
        else endMove s v .badParam 0x0304))

/-- R375: READ_DATA delivers host data of a MOVE kind 5. -/
def execReadData (m : LeashMsg) (s : State) : Result :=
  .next (receiveMsg s 0x04 m (fun m s =>
    match moveOf s m.tag true with
    | none => s
    | some (v, off, len) =>
      let data := m.data.take len
      let v := { v with tags := v.tags.filter (fun t => t.1 != m.tag), done := v.done + data.length }
      finishIfDone (setMove (writeHbm s (v.dst + off) data) v) v))

end Sys2Proof.Machine
end

