-- ==== Sys2Proof/Machine/Models.lean ====
section
/-!
DEFINITION. MODEL_LOAD, MODEL_VERIFY, MODEL_FREE: the placements of a model, the place of its shares in HBM and scratchpad
(02 R80 to R83, 08 R267, R273, R541, 11 R338, R344 to R346).
-/

namespace Sys2Proof.Machine

/-! ### Handles (R338) -/

def modelHandle (i : Nat) (m : Model) : Nat := i + 2 ^ 12 * m.gen

/-- The index that a model handle names, when it names a loaded model. -/
def modelOfHandle (s : State) (h : Nat) : Option (Nat × Model) :=
  match lookup s.models (h % 2 ^ 12) with
  | some m => if m.gen = h / 2 ^ 12 then some (h % 2 ^ 12, m) else none
  | none => none

/-- The generation of the next load into an index: 1 to 0xFFFFF, then 1 again. -/
def nextModelGen (s : State) (i : Nat) : Nat :=
  match lookup s.modelGens i with
  | some g => if g = 0xFFFFF then 1 else g + 1
  | none => 1

/-! ### Places in the model region (R80, R407; log 16) -/

/-- Ranges of the model region in use: shares and descriptors. -/
def modelRanges (s : State) : List (Nat × Nat) :=
  s.models.flatMap (fun e => (e.2.descAddr, 4096) :: e.2.blocks.map (fun b => (b.addr, b.size)))

/-- The lowest address from `lo` at which `n` bytes fit below `hi`, clear of the ranges in use. -/
def lowestGap (lo hi n align : Nat) (uses : List (Nat × Nat)) : Option Nat :=
  (sortBy id (lo :: uses.map (fun u => roundUp (u.1 + u.2) align))).find? (fun c =>
    decide (lo ≤ c ∧ c + n ≤ hi) && !uses.any (fun u => overlap c n u.1 u.2))

def gapInStack (uses : List (Nat × Nat)) (stack n : Nat) : Option Nat :=
  lowestGap (modelBase stack) (modelBase stack + modelSize) n 64 uses

/-- Free bytes of a stack's model region. -/
def modelFreeBytes (uses : List (Nat × Nat)) (stack : Nat) : Nat :=
  modelSize - ((uses.filter (fun u => stackOf u.1 == stack)).map (·.2)).sum

/-- The stacks by their free bytes, the most first, the lowest-numbered among equals (R80). -/
def byRoom (uses : List (Nat × Nat)) : List Nat := sortBy (fun n => modelSize - modelFreeBytes uses n) (List.range 8)

/-- The stack of a share: the one named, or with 0xFF the first by its free bytes that has room. -/
def shareStack (uses : List (Nat × Nat)) (named size : Nat) : Nat :=
  if named = 0xFF then ((byRoom uses).find? (fun n => (gapInStack uses n size).isSome)).getD 0 else named

/-- Gives every block its stack and address, then the descriptor in block 0's stack; none where there is no room (check 12). -/
def placeShares (m : Model) : List Block → Nat → List (Nat × Nat) → List Block → Option (List Block × Nat)
  | [], _, uses, out => (gapInStack uses (out.headD default).stack 4096).map (fun a => (out, a))
  | b :: rest, n, uses, out =>
    let size := shareSize m n
    let stack := shareStack uses b.stack size
    match gapInStack uses stack size with
    | none => none
    | some a => placeShares m rest (n + 1) (uses ++ [(a, size)]) (out ++ [{ b with stack := stack, addr := a, size := size }])

/-- Where the seats of a core lie (13 R405). -/
def seatRanges (s : State) (p : Nat) : List (Nat × Nat) :=
  s.ctxs.flatMap (fun e => (e.2.seat.elim [] (·.places)).filterMap (fun u => if u.2.1 = p then some u.2.2 else none))

/-- The number of the next use of a share on a core (08 R273). -/
def nextUse (c : Core) : Nat := 1 + (c.shares.map (·.used)).foldl max 0

/-- A share that retained banks have kept through Den, of a model's digest and block, whose words are all clean; reading them goes
through the decoder (15 R460). -/
def keptClean (s : State) (m : Model) (b p : Nat) : Option KeptShare × State :=
  match (coreState s p).kept.find? (fun k => k.digest == m.digest && k.block == b && k.size == (blockAt m b).size) with
  | none => (none, s)
  | some k =>
    let r := readSpad s p k.addr k.size
    let marked := s.spadMarks.any (fun e => p * 2 ^ 26 + k.addr ≤ e.1 && e.1 < p * 2 ^ 26 + k.addr + k.size)
    (if r.1.isNone && !marked then some k else none, r.2)

/-- A share becomes resident in a core: one kept through Den in its place, another copied from the model region to the lowest
free range that holds it (13 R405; log 16). -/
def addShare (s : State) (i b p : Nat) : State :=
  match lookup s.models i with
  | none => s
  | some m =>
    let n := (blockAt m b).size
    let k := keptClean s m b p
    let s := k.2
    match k.1 with
    | some k => modCore s p (fun c => { c with
        shares := c.shares ++ [⟨i, b, k.addr, n, nextUse c⟩], kept := c.kept.filter (fun x => x != k) })
    | none =>
      let uses := (coreState s p).shares.map (fun h => (h.addr, h.size)) ++ seatRanges s p
      let a := (lowestGap 0 spadSize n 64 uses).getD 0
      modCore (writeSpad s p a (rawBytes s (blockAt m b).addr n)) p (fun c => { c with
        shares := c.shares ++ [⟨i, b, a, n, nextUse c⟩], kept := c.kept.filter (fun x => !overlap x.addr x.size a n) })

def addShares (s : State) (i : Nat) (absent : List (Nat × Nat)) : State := each absent s (fun s e => addShare s i e.1 e.2)

/-- MODEL_LOAD makes the shares of every placement resident when they fit (R273). -/
def placeResident (s : State) (i : Nat) (m : Model) : State :=
  let absent := m.placements.flatMap (blockCores s)
  if sharesFit s m absent then addShares s i absent else s

/-! ### Slots and schedules (01 R25, R32) -/

/-- A pair or a dense factor crosses from one block to another (R80). -/
def coupled (m : Model) (a b : Nat) : Bool :=
  let in_ := fun (k i : Nat) => inRange (blockAt m k).first (blockAt m k).count i
  a != b && ((imported m b).any (in_ a) || m.dense.any (fun d =>
    ((groupA d).any (in_ a) && (groupB d).any (in_ b)) || ((groupA d).any (in_ b) && (groupB d).any (in_ a))))

/-- The transfers of blocks on the cores that a list of logical cores gives them: each core with the controller of its block's
home stack, and with the cores of coupled blocks and of the lowest-numbered one (R80, 04 R143; log 69). -/
def placeTransfers (s : State) (m : Model) (cores : List Nat) : List (Node × Node) :=
  let bc := blockCores s cores
  bc.flatMap (fun e => coreStacks [e.2] [(blockAt m e.1).stack] ++
    (bc.filter (fun d => d.2 != e.2 && (coupled m e.1 d.1 || d.1 == 0))).map (fun d => (nodeOf (.core e.2), nodeOf (.core d.2))))

/-- The model's slots and schedules, for its placements and the map in force. -/
def giveModelWork (s : State) (i : Nat) (m : Model) : State :=
  giveWork s (.model i) ((m.placements.flatMap (blockCores s)).map (·.2)).eraseDups (m.placements.flatMap (placeTransfers s m))

/-! ### MODEL_LOAD -/

/-- The shares and the descriptor as the module writes them, in the internal form (log 15). -/
def writeShares (s : State) (m : Model) : State :=
  each ((m.descAddr, 4096) :: m.blocks.map (fun b => (b.addr, b.size))) { s with free := s.free + 1 } (fun t u =>
    writeHbm t u.1 ((span u.1 u.2).map (Config.shareByte s.free)))

/-- A checked and placed model becomes a loaded one: its shares stand in HBM, its slots are assigned and its schedules loaded
(01 R25, R32), and its shares are resident when they fit. -/
def installModel (s : State) (i : Nat) (m : Model) : State :=
  let g := nextModelGen s i
  let m := { m with gen := g }
  let s := { s with models := put s.models i m, modelGens := put s.modelGens i g }
  placeResident (giveModelWork (writeShares s m) i m) i m

/-- The image bytes that MODEL_LOAD reads (R82): the header, and the rest when IMAGE_SIZE lies from 128 to REGION_LEN. -/
def readImage (s : State) (a len : Nat) : Option (List Byte) × State :=
  let h := readHbm s a (min 128 (hbmEnd - a))
  match h.1 with
  | none => (none, h.2)
  | some hdr =>
    let n := u64 hdr 8
    if 128 ≤ n ∧ n ≤ len then
      let r := readHbm h.2 (a + 128) (n - 128)
      (r.1.map (hdr ++ ·), r.2)
    else (some hdr, h.2)

/-- The model that an image gives, with its placements and places, or the first check that fails (R83). -/
def buildModel (s : State) (img : Option (List Byte)) (region : Nat) : Except LoadErr Model :=
  match img with
  | none => .error ⟨.dataError, 0x0C, 0xFFFF, 0xFFFFFFFFFFFFFFFF⟩
  | some img =>
    match checkImage img region s.models.length with
    | .error e => .error e
    | .ok m =>
      match placeShares m m.blocks 0 (modelRanges s) [] with
      | none => .error ⟨.badParam, 0x0B, 0xFFFF, 0xFFFFFFFFFFFFFFFF⟩
      | some (bs, desc) =>
        .ok { m with blocks := bs, descAddr := desc, codedSize := (bs.map (·.size)).sum + 4096,
                     placements := placementsOf s.map m.blocks,
                     lists := (placementsOf s.map m.blocks).map (fun _ => []) }

/-- The reply of a load (R344). -/
def loadReply (handle conflicts record sec places : Nat) (report : List Byte) (coded : Nat) : List Byte :=
  leBytes 4 handle ++ leBytes 4 conflicts ++ leBytes 8 record ++ leBytes 2 sec ++ leBytes 1 places ++ zeros 5 ++
  fit 48 report ++ leBytes 8 coded ++ zeros 16

/-- A failed load writes one Trail event (R83). -/
def loadFailed (s : State) (e : LoadErr) : State :=
  event s 0x0300 2 unitHandler 0 (leBytes 1 e.st.code ++ leBytes 2 e.detail ++ leBytes 2 e.section_ ++ leBytes 8 e.record)

/-- Replies with the first failing check of a load's payload and region, and records it, or goes on with `ok`. -/
def loadChecked (s : State) (r : Req) (cs : List (Bool × Status × Nat)) (ok : State → State) : State :=
  match firstErr cs with
  | some e => reply (loadFailed s ⟨e.1, e.2, 0xFFFF, 0xFFFFFFFFFFFFFFFF⟩) r 0x20 e.1 e.2
  | none => ok s

/-- 02 R82, R83: MODEL_LOAD: the model is loaded, or the first check that fails is recorded; the reply leaves with
MODEL_LOAD_COMPLETE. -/
def execModelLoad (r : Req) (p : List Byte) (s : State) : Result :=
  serve s r 0x20 none none (fun s =>
    let a := u64 p 0
    let len := u64 p 8
    loadChecked s r ((p.length != 16, badLength) :: regionChecks s a len 64 false) (fun s =>
      let got := readImage s a len
      let s := hold got.2 r 0x20 none none
      match buildModel s got.1 len with
      | .error e =>
        let s := loadFailed s e
        { s with loads := s.loads ++ [⟨r, e.st, e.detail, loadReply 0 0 e.record e.section_ 0 [] 0⟩] }
      | .ok m =>
        let i := (lowestFree s.models 4096 0).getD 0
        let s := installModel s i m
        let h := i + 2 ^ 12 * nextModelGen got.2 i
        { s with loads := s.loads ++ [⟨r, .ok, 0, loadReply h (conflicts m) 0xFFFFFFFFFFFFFFFF 0xFFFF m.placements.length
            (scaleReport (got.1.getD [])) m.codedSize⟩] }))

/-- 02 R82: MODEL_LOAD_COMPLETE. -/
def execModelLoadComplete (r : Req) (s : State) : Result :=
  .next (match s.loads.find? (fun l => l.r == r) with
    | none => s
    | some l => reply { s with loads := s.loads.filter (fun x => !(x.r == r)) } r 0x20 l.status l.detail l.payload)

/-! ### MODEL_VERIFY and MODEL_FREE -/

/-- The event that MEM_LAST keeps of the words of one burst that are not clean: that of highest rank, the lowest address among
equals (13 R427). -/
def burstKeeps (es : List (Nat × WordClass)) : Option (Nat × WordClass) :=
  ([.uncorrectable, .poisoned, .sealed, .correctable].filterMap (fun c => es.find? (fun e => e.2 == c))).head?

/-- KIND of a read of a word of a class. -/
def classKind (c : WordClass) : Nat :=
  match c with
  | .correctable => kindCorrected
  | .uncorrectable => kindUncorrectable
  | .poisoned => kindPoisoned
  | .sealed => kindSealed

/-- The last burst with a word that is not clean leaves its event of highest rank in MEM_LAST. -/
def lastBurst (s : State) (es : List (Nat × WordClass)) : State :=
  match es.getLast? with
  | none => s
  | some l => (burstKeeps (es.filter (fun e => e.1 / 64 == l.1 / 64))).elim s (fun e => recordLast s (.hbm (stackOf e.1)) e.1 (classKind e.2))

/-- Reads every word of a range: words corrected, whether none was bad, and the state after. -/
def scrubRange (s : State) (a n : Nat) : Nat × Bool × State :=
  let es := s.marks.filter (fun e => a ≤ e.1 && e.1 < a + n)
  let r := es.foldl (fun acc e =>
    if e.2 = .correctable then (acc.1 + 1, acc.2.1, corrected acc.2.2 (.hbm (stackOf e.1)) e.1)
    else (acc.1, false, badRead acc.2.2 (.hbm (stackOf e.1)) e.1 (some e.2))) (0, true, s)
  (r.1, r.2.1, lastBurst r.2.2 es)

/-- Reads every word of a coded model. -/
def scrubModel (s : State) (m : Model) : Nat × Bool × State :=
  (m.blocks.map (fun (b : Block) => (b.addr, b.size)) ++ [(m.descAddr, 4096)]).foldl (fun acc (u : Nat × Nat) =>
    let r := scrubRange acc.2.2 u.1 u.2
    (acc.1 + r.1, acc.2.1 && r.2.1, r.2.2)) (0, true, s)

/-- 11 R345, R346: MODEL_VERIFY. -/
def execModelVerify (r : Req) (p : List Byte) (s : State) : Result :=
  serve s r 0x21 none (some (u32 p 0 % 2 ^ 12)) (fun s =>
    let a := u64 p 8
    checked s r 0x21
      ([(p.length != 16, badLength), (!allZero (slice p 4 4), badReserved), ((modelOfHandle s (u32 p 0)).isNone, badModel)] ++
       (if a = 0 then [] else regionChecks s a 128 64 false)) (fun s =>
      match modelOfHandle s (u32 p 0) with
      | none => s
      | some (i, m) =>
        let v := scrubModel s m
        let out := m.digest ++ m.modelId ++ leBytes 8 v.1 ++ zeros 8
        let s := if v.2.1 then v.2.2 else { v.2.2 with models := adjust v.2.2.models i (fun m => { m with bad := true }) }
        let h := if a = 0 then (some [], s) else readHbm s a 128
        let s := h.2
        if !v.2.1 || h.1.isNone then reply s r 0x21 .dataError 0x0307 out
        else if a ≠ 0 ∧ slice (h.1.getD []) 0x40 48 ≠ m.digest then reply s r 0x21 .badParam 0x0308 out
        else reply s r 0x21 .ok 0 out))

/-- A model is gone: its table entry, its resident shares, its slots and its schedules (R346). -/
def dropModel (s : State) (i : Nat) : State :=
  let s := dropWork s (.model i)
  { s with models := del s.models i,
           cores := s.cores.map (fun e => (e.1, { e.2 with shares := e.2.shares.filter (fun h => h.model != i) })) }

/-- 11 R346, 08 R254: MODEL_FREE. -/
def execModelFree (r : Req) (p : List Byte) (s : State) : Result :=
  serve s r 0x22 none (some (u32 p 0 % 2 ^ 12)) (fun s =>
    checked s r 0x22
      [(p.length != 8, badLength), (!allZero (slice p 4 4), badReserved), ((modelOfHandle s (u32 p 0)).isNone, badModel),
       (s.ctxs.any (fun e => e.2.model == u32 p 0 % 2 ^ 12), .contextBusy, 0x0360)]
      (fun s => reply (dropModel s (u32 p 0 % 2 ^ 12)) r 0x22 .ok))

end Sys2Proof.Machine
end

