-- ==== Sys2Proof/Machine/ContextImage.lean ====
section
/-!
DEFINITION. The layout of a context: header, sections, size class, and the bytes of a context and back (08 R255 to R263).
-/

namespace Sys2Proof.Machine

/-! ### Sizes (R256, R257, R261) -/

/-- Bytes of packed 4-bit slots. -/
def halfBytes (n : Nat) : Nat := (n + 1) / 2

def latentCount (m : Model) : Nat := (latents m).length
def clampedCount (m : Model) : Nat := (clampeds m).length

/-- S_l. -/
def latentStates (m : Model) : Nat := ((latents m).map (stateCount m)).sum

/-- Bytes of one replica's state, padded. -/
def replicaBytes (m : Model) : Nat := roundUp (halfBytes (latentCount m)) 64

/-- The ten sections' lengths before padding. -/
def sectionSizes (m : Model) (replicas cap : Nat) : List Nat :=
  [halfBytes (clampedCount m), featureWords m, 33 * ((fieldCodes m + 31) / 32), replicas * replicaBytes m, 48 * replicas,
   4 + 4 * latentStates m, 64 + halfBytes (latentCount m), 768, 8 * cap, genSize * (streams m).length * replicas]

/-- USED. -/
def usedBytes (m : Model) (replicas cap : Nat) : Nat := 256 + ((sectionSizes m replicas cap).map (fun n => roundUp n 64)).sum

/-- Where section `k` starts, empty or not. -/
def sectionStart (m : Model) (replicas cap k : Nat) : Nat :=
  256 + (((sectionSizes m replicas cap).take k).map (fun n => roundUp n 64)).sum

/-- SECTION_OFFSET: 0 for an empty section. -/
def sectionOffsets (m : Model) (replicas cap : Nat) : List Nat :=
  (List.range 10).map (fun k => if (sectionSizes m replicas cap).getD k 0 = 0 then 0 else sectionStart m replicas cap k)

/-- Size class and span (R257). -/
def classOf (used : Nat) : Nat × Nat :=
  match (List.range 9).find? (fun c => decide (used ≤ classBytes c 0)) with
  | some c => (c, 0)
  | none => (9, (used + 2 ^ 20 - 1) / 2 ^ 20)

/-! ### Slots and numbers -/

/-- 4-bit slots, the lower index in bits 3:0 (R262). -/
def packNibbles : List Nat → List Byte
  | [] => []
  | [a] => [BitVec.ofNat 8 (a % 16)]
  | a :: b :: rest => BitVec.ofNat 8 (a % 16 + 16 * (b % 16)) :: packNibbles rest

/-- The first `n` slots. -/
def unpackNibbles (n : Nat) (bs : List Byte) : List Nat := (bs.flatMap (fun b => [b.toNat % 16, b.toNat / 16])).take n

def energyFrom (bs : List Byte) : Int := signed 384 (leNat (bs.take 48))

/-- Evidence-field groups: a scale byte and 32 codes (R261). -/
def fieldBytes (cs : List Coded) : List Byte :=
  (chunks 32 cs).flatMap (fun g =>
    BitVec.ofNat 8 (g.headD default).exp :: fit 32 (g.map (fun c => BitVec.ofNat 8 (twos 8 c.code))))

def fieldsFrom (n : Nat) (bs : List Byte) : List Coded :=
  ((chunks 33 bs).flatMap (fun g => (g.drop 1).map (fun b => ⟨b.toInt, u8 g 0⟩))).take n

/-! ### The RUN section (R263) -/

def runBytes (d : CtxData) : List Byte :=
  fit 128 d.params ++ leBytes 8 d.sweep ++ leBytes 4 d.schedPos ++ leBytes 4 d.schedLeft ++ leBytes 4 d.exchEvents ++
  leBytes 4 d.patience ++ leBytes 4 d.betaCur.toNat ++ zeros 4 ++ fit 64 (d.rungMap.map (BitVec.ofNat 8)) ++
  (List.range 63).flatMap (fun k => leBytes 4 (d.exchAttempt.getD k 0) ++ leBytes 4 (d.exchAccept.getD k 0)) ++ zeros 40

/-! ### The bytes of a context (R260 to R262) -/

/-- RUN_STATE. -/
def RunState.code : RunState → Nat
  | .idle => 0
  | .running => 1
  | .paused => 2

/-- The content of each section, before padding. -/
def sectionData (m : Model) (d : CtxData) : List (List Byte) :=
  [packNibbles d.evidence, fit (featureWords m) d.features, fieldBytes d.fields,
   d.latent.flatMap (fun l => fit (replicaBytes m) (packNibbles l)), d.energy.flatMap energyBytes,
   leBytes 4 d.nMarg ++ d.mc.flatMap (fun r => r.flatMap (leBytes 4)),
   energyBytes d.bestEnergy ++ leBytes 8 d.bestSweep ++ leBytes 1 d.bestReplica ++ zeros 7 ++ packNibbles d.bestState,
   runBytes d, d.schedule, d.gens.flatMap Gen.bytes]

/-- The 256-byte header. -/
def ctxHeader (m : Model) (replicas cap runState : Nat) (d : CtxData) : List Byte :=
  let used := usedBytes m replicas cap
  leBytes 4 0x43374E47 ++ leBytes 2 1 ++ leBytes 1 (classOf used).1 ++ leBytes 1 replicas ++ leBytes 1 runState ++
  leBytes 1 d.runKind ++ leBytes 2 cap ++ leBytes 4 used ++ fit 48 m.digest ++ fit 16 m.modelId ++
  leBytes 8 d.runSeed.toNat ++ leBytes 8 d.evidenceVersion ++ leBytes 8 d.sweepsTotal ++ leBytes 4 (classOf used).2 ++ zeros 4 ++
  (sectionOffsets m replicas cap).flatMap (leBytes 4) ++ zeros 8 ++ zeros 48 ++ zeros 48

/-- The first USED bytes of a live context. -/
def ctxBytes (m : Model) (replicas cap runState : Nat) (d : CtxData) : List Byte :=
  ctxHeader m replicas cap runState d ++
  (List.zipWith (fun n bs => fit (roundUp n 64) bs) (sectionSizes m replicas cap) (sectionData m d)).flatten

/-- A saved image: IMAGE_DIGEST over the bytes with the digest zero (R277). -/
def sealImage (bs : List Byte) : List Byte :=
  let z := overlay bs 0xA0 (zeros 48)
  overlay z 0xA0 (sha384 z)

/-- The bytes of a context's share of a block in a seat: the parts of R268 one after another (13 R405; log 74). -/
def shareBytes (m : Model) (replicas cap runState : Nat) (d : CtxData) (b : Nat) : List Byte :=
  let lat := blockLatents m b
  let at_ := lat.map (fun i => ((latents m).takeWhile (· != i)).length)
  let mine := fun (xs : List Nat) => packNibbles (at_.map (fun k => xs.getD k 0))
  let clamped := (blockVars m b).filter (fun i => !isLatent m i)
  let codes := (fieldVars m).flatMap (fun i => (List.range (stateCount m i)).map (fun _ => lat.contains i))
  (if b = 0 then ctxHeader m replicas cap runState d ++ fit (featureWords m) d.features ++ d.energy.flatMap energyBytes ++
    energyBytes d.bestEnergy ++ leBytes 8 d.bestSweep ++ leBytes 1 d.bestReplica ++ zeros 7 ++ runBytes d ++ d.schedule ++
    leBytes 4 d.nMarg else []) ++
  packNibbles (clamped.map (fun i => d.evidence.getD (((clampeds m).takeWhile (· != i)).length) 0)) ++
  fieldBytes ((d.fields.zip codes).filterMap (fun e => if e.2 then some e.1 else none)) ++ d.latent.flatMap mine ++
  at_.flatMap (fun k => (d.mc.getD k []).flatMap (leBytes 4)) ++ mine d.bestState ++
  (d.gens.filter (fun g => lat.any (fun i => streamOf i == g.stream))).flatMap Gen.bytes

/-! ### Back from bytes -/

/-- The content of a context from the bytes of an image of a model. -/
def ctxFrom (m : Model) (replicas cap : Nat) (img : List Byte) : CtxData :=
  let sec := fun k => slice img (sectionStart m replicas cap k) ((sectionSizes m replicas cap).getD k 0)
  let run := sec 7
  let ks := (latents m).map (stateCount m)
  { evidence := unpackNibbles (clampedCount m) (sec 0)
    features := sec 1
    fields := fieldsFrom (fieldCodes m) (sec 2)
    latent := (List.range replicas).map (fun r => unpackNibbles (latentCount m) (slice (sec 3) (r * replicaBytes m) (replicaBytes m)))
    energy := (List.range replicas).map (fun r => energyFrom (slice (sec 4) (48 * r) 48))
    nMarg := u32 (sec 5) 0
    mc := splitBy ks ((chunks 4 ((sec 5).drop 4)).map leNat)
    bestState := unpackNibbles (latentCount m) ((sec 6).drop 64)
    bestEnergy := energyFrom (sec 6)
    bestSweep := u64 (sec 6) 48
    bestReplica := u8 (sec 6) 56
    runKind := u8 img 9
    params := run.take 128
    sweep := u64 run 128
    schedPos := u32 run 136
    schedLeft := u32 run 140
    exchEvents := u32 run 144
    patience := u32 run 148
    betaCur := w32 run 152
    rungMap := (slice run 160 64).map BitVec.toNat
    exchAttempt := (List.range 63).map (fun k => u32 run (224 + 8 * k))
    exchAccept := (List.range 63).map (fun k => u32 run (228 + 8 * k))
    schedule := sec 8
    gens := (chunks genSize (sec 9)).map Gen.ofBytes
    runSeed := w64 img 0x50
    evidenceVersion := u64 img 0x58
    sweepsTotal := u64 img 0x60 }

/-- The values of every variable in a replica, and in the best state. -/
def valuesOf (m : Model) (d : CtxData) (rep : Nat) : List Nat := mergeVals m.vars d.evidence (d.latent.getD rep [])
def bestValues (m : Model) (d : CtxData) : List Nat := mergeVals m.vars d.evidence d.bestState

/-- Full energies of every replica (R133). -/
def fullEnergies (m : Model) (d : CtxData) : List Int :=
  (List.range d.latent.length).map (fun r => energyOf m d.fields (valuesOf m d r))

/-- The replica with the lowest energy, the lowest number among equals (R134). -/
def lowestReplica (es : List Int) : Nat :=
  (List.range es.length).foldl (fun b r => if es.getD r 0 < es.getD b 0 then r else b) 0

/-- The best record takes a replica's state (R134, R135). -/
def takeBest (d : CtxData) (r sweep : Nat) : CtxData :=
  { d with bestState := d.latent.getD r [], bestEnergy := d.energy.getD r 0, bestSweep := sweep, bestReplica := r }

end Sys2Proof.Machine
end

