-- ==== Sys2Proof/Machine/Contexts.lean ====
section
/-!
DEFINITION. The context table and its commands: CTX_CREATE, CTX_UPDATE, CTX_SAVE, CTX_RESTORE, CTX_DESTROY, CTX_QUERY,
STATS_READ (08 R251 to R266, R277 to R281, 11 R347 to R350, R355).
-/

namespace Sys2Proof.Machine

/-! ### Handles (R252) -/

def ctxHandle (i : Nat) (c : Ctx) : Nat := i + 2 ^ 18 * c.gen

/-- The index that a handle names. -/
def ctxIndex (h : Nat) : Nat := h % 2 ^ 18

/-- The live context of a handle. -/
def ctxOf (s : State) (h : Nat) : Option Ctx :=
  match lookup s.ctxs (ctxIndex h) with
  | some c => if c.gen = h / 2 ^ 18 then some c else none
  | none => none

/-- NO_CONTEXT. -/
def noContext : Status × Nat := (.noContext, 0)

def nextCtxGen (s : State) (i : Nat) : Nat :=
  match lookup s.ctxGens i with
  | some g => if g = 16383 then 1 else g + 1
  | none => 1

def setCtx (s : State) (i : Nat) (c : Ctx) : State := { s with ctxs := put s.ctxs i c }

def modCtx (s : State) (i : Nat) (f : Ctx → Ctx) : State := { s with ctxs := adjust s.ctxs i f }

/-- The bytes of a context as its HBM copy holds them. -/
def imageOf (s : State) (c : Ctx) (d : CtxData) : List Byte := ctxBytes (ctxModel s c) c.replicas c.tableCap c.st.code d

/-! ### Narrow rewriting (13 R417) -/

/-- Runs of bytes that differ, with their offsets. -/
def diffRuns : Nat → List Byte → List Byte → List (Nat × List Byte)
  | off, a :: as, b :: bs =>
    let rest := diffRuns (off + 1) as bs
    if a = b then rest
    else match rest with
    | (o, ds) :: t => if o = off + 1 then (off, b :: ds) :: t else (off, [b]) :: rest
    | [] => [(off, [b])]
  | _, _, _ => []

/-- Writes only the bytes that change. -/
def writeDiff (s : State) (a : Nat) (old new : List Byte) : State :=
  each (diffRuns 0 old new) s (fun s d => writeHbm s (a + d.1) d.2)

/-- What the move of a context transfers: its class whole, or the shares of a spanning one at their own lengths (R269). -/
def moveLen (c : Ctx) : Nat := if c.sizeClass ≤ 8 then classBytes c.sizeClass c.span else c.used

/-- The bytes of a context as a seat or its HBM copy holds them, reserved and padding bytes as they were stored, when its content
and state become those of `new`. -/
def movedBytes (s : State) (old new : Ctx) : List Byte :=
  (diffRuns 0 (imageOf s old old.data) (imageOf s new new.data)).foldl (fun b d => overlay b d.1 d.2)
    (rawBytes s old.addr (moveLen old))

/-- Rewrites the HBM copy whole (R269). -/
def writeBack (s : State) (i : Nat) (old new : Ctx) : State := writeHbm (setCtx s i new) new.addr (movedBytes s old new)

/-- Reads ranges of a context's HBM copy up to the first bad word. -/
def readSpans (s : State) (base : Nat) : List (Nat × Nat) → Bool × State
  | [] => (true, s)
  | u :: rest =>
    let r := readHbm s (base + u.1) u.2
    if r.1.isSome then readSpans r.2 base rest else (false, r.2)

/-- Section `k` of a context: offset and length. -/
def sectionSpan (m : Model) (c : Ctx) (k : Nat) : Nat × Nat :=
  (sectionStart m c.replicas c.tableCap k, (sectionSizes m c.replicas c.tableCap).getD k 0)

/-! ### The pool (R258; log 16) -/

def poolRanges (s : State) (skip : Option Nat) : List (Nat × Nat) :=
  (s.ctxs.filter (fun e => some e.1 != skip)).map (fun e => (e.2.addr, classBytes e.2.sizeClass e.2.span))

/-- A free place in a stack's pool: for at most 1 MiB the place of the entry's own, so that every entry can hold such a context at
the default HOME_STACK (R258); else the lowest free one. -/
def poolPlace (s : State) (i : Nat) (skip : Option Nat) (home n : Nat) : Option Nat :=
  let own := poolBase home + i / 8 * 2 ^ 20
  if n ≤ 2 ^ 20 ∧ home = i % 8 ∧ !(poolRanges s skip).any (fun u => overlap own n u.1 u.2) then some own
  else lowestGap (poolBase home) (poolBase home + poolSize) n 4096 (poolRanges s skip)

/-- Size class and span exist: SPAN is at most 4,096. -/
def homeOf (home i : Nat) : Nat := if home = 0xFF then i % 8 else home

/-! ### Neural evaluation in a context -/

/-- Counts the replays and saturated elements of neural factors on the core of the block that holds OUT_FIRST (log 43). -/
def countNeural (s : State) (m : Model) (outs : List (Neural × NeuralOut)) : State :=
  each outs s (fun s o =>
    match physOf s ((m.placements.getD 0 []).getD (blockOf m o.1.outFirst) 0) with
    | none => s
    | some p => bump (bump s (coreReg p 0x310) o.2.replays) (coreReg p 0x314) o.2.saturated)

/-- INFO_FLAGS of a neural evaluation. -/
def neuralFlags (outs : List (Neural × NeuralOut)) : Nat := if outs.any (fun o => o.2.replays != 0) then flagReplayed else 0

/-- The reply of a command that evaluated neural factors (R350). -/
def neuralReply (s : State) (r : Req) (op : Nat) (outs : List (Neural × NeuralOut)) (payload : List Byte) : State :=
  if outsSaturated outs then reply s r op .overflowSaturated 0x0343 payload (neuralFlags outs)
  else reply s r op .ok 0 payload (neuralFlags outs)

/-! ### CTX_CREATE (R264, R347) -/

/-- The lengths of the data of CTX_CREATE: EVIDENCE, FEATURES and, with INIT 1, STATE, each padded. -/
def createLens (m : Model) (replicas init : Nat) : List Nat :=
  [roundUp (halfBytes (clampedCount m)) 64, roundUp (featureWords m) 64, if init = 1 then replicas * replicaBytes m else 0]

/-- Evidence, features and state that the data gives. -/
def createEvidence (m : Model) (data : List Byte) : List Nat := unpackNibbles (clampedCount m) data
def createFeatures (m : Model) (data : List Byte) : List Byte := slice data (roundUp (halfBytes (clampedCount m)) 64) (featureWords m)
def createLatent (m : Model) (replicas init : Nat) (data : List Byte) : List (List Nat) :=
  let o := roundUp (halfBytes (clampedCount m)) 64 + roundUp (featureWords m) 64
  (List.range replicas).map (fun r =>
    if init = 1 then unpackNibbles (latentCount m) (slice data (o + r * replicaBytes m) (replicaBytes m))
    else List.replicate (latentCount m) 0)

/-- Every value lies below its K_i. -/
def belowK (m : Model) (is xs : List Nat) : Bool := (List.zipWith (fun i x => decide (x < stateCount m i)) is xs).all id

/-- The content of a new context (R264). -/
def newCtxData (m : Model) (replicas cap : Nat) (seed : DWord) (ev : List Nat) (feats : List Byte) (lat : List (List Nat))
    (fields : List Coded) : CtxData :=
  let d : CtxData :=
    { evidence := ev, features := feats, fields := fields, latent := lat, energy := [], nMarg := 0,
      mc := (latents m).map (fun i => List.replicate (stateCount m i) 0), bestState := [], bestEnergy := 0, bestSweep := 0,
      bestReplica := 0, runKind := 0, params := zeros 128, sweep := 0, schedPos := 0, schedLeft := 0, exchEvents := 0,
      patience := 0, betaCur := 0, rungMap := List.replicate 64 0, exchAttempt := List.replicate 63 0,
      exchAccept := List.replicate 63 0, schedule := zeros (8 * cap),
      gens := (streams m).flatMap (fun t => (List.range replicas).map (seedGen seed t)), runSeed := seed, evidenceVersion := 0,
      sweepsTotal := 0 }
  let d := { d with energy := fullEnergies m d }
  takeBest d (lowestReplica d.energy) 0

/-- A new context enters the table and its class is written (R259). -/
def installCtx (s : State) (i : Nat) (c : Ctx) (bytes : List Byte) : State :=
  let g := nextCtxGen s i
  let s := { setCtx s i { c with gen := g } with ctxGens := put s.ctxGens i g }
  writeHbm s c.addr (fit (classBytes c.sizeClass c.span) bytes)

/-- The context table entry of a new context. -/
def newCtx (model home addr replicas cap used : Nat) (st : RunState) (d : CtxData) : Ctx :=
  { gen := 0, model := model, sizeClass := (classOf used).1, span := (classOf used).2, home := home, addr := addr, used := used,
    replicas := replicas, tableCap := cap, st := st, placement := 0, data := d, seat := none, run := none, sat := 0 }

/-- The place of CTX_CREATE and CTX_RESTORE (R253, R258): the index and the checks it gives, before the pool. -/
def targetIndex (s : State) (target : Nat) : Option Nat :=
  if target = 0xFFFFFFFF then lowestFree s.ctxs 262144 0 else some (ctxIndex target)

/-- The steps of R264 after every check, and the reply. -/
def createCtx (s : State) (r : Req) (p : List Byte) (mi : Nat) (m : Model) (data : List Byte) (i : Nat) : State :=
  let replicas := u8 p 9
  let cap := if u16 p 12 = 0 then 64 else u16 p 12
  let home := homeOf (u8 p 8) i
  let used := usedBytes m replicas cap
  let n := classBytes (classOf used).1 (classOf used).2
  match poolPlace s i none home n with
  | none => reply s r 0x30 .badParam 0x0103
  | some a =>
    if 4096 < (classOf used).2 then reply s r 0x30 .badParam 0x0103
    else
      let ev := createEvidence m data
      let feats := createFeatures m data
      let outs := neuralOuts m (mergeVals m.vars ev []) feats
      let d := newCtxData m replicas cap (w64 p 16) ev feats (createLatent m replicas (u8 p 10) data) (codeFields m outs)
      let c := newCtx mi home a replicas cap used .idle d
      let s := countNeural (installCtx s i c (ctxBytes m replicas cap 0 d)) m outs
      neuralReply s r 0x30 outs
        (leBytes 4 (ctxHandle i { c with gen := (lookup s.ctxGens i).getD 0 }) ++ leBytes 1 c.sizeClass ++ leBytes 1 home ++
         zeros 2 ++ leBytes 4 c.span ++ leBytes 4 used ++ leBytes 8 a ++ leBytes 8 (energyFp64 d.bestEnergy))

/-- The data of CTX_CREATE: inline, or from HBM; none for an unreadable region. -/
def createData (s : State) (p : List Byte) (n : Nat) : Option (List Byte) × State :=
  if u64 p 24 = 0 then (some (p.drop 32), s) else readHbm s (u64 p 24) n

/-- The checks of CTX_CREATE once the model is known, and its steps. -/
def createWith (s : State) (r : Req) (p : List Byte) (mi : Nat) (m : Model) : State :=
  let replicas := u8 p 9
  let init := u8 p 10
  let target := u32 p 4
  let n := (createLens m replicas init).sum
  checked s r 0x30
    ([(replicas == 0 || decide (m.maxReplicas < replicas) || decide (1 < init) || decide (4096 < u16 p 12) ||
        !(decide (u8 p 8 < 8) || u8 p 8 == 0xFF) || (target != 0xFFFFFFFF && decide (2 ^ 18 ≤ target)), badRange)] ++
     (if u64 p 24 = 0 then [(p.length != 32 + n, badLength)] else regionChecks s (u64 p 24) n 64 false)) (fun s =>
    let got := createData s p n
    match got.1 with
    | none => reply got.2 r 0x30 .dataError 0x0307
    | some data =>
      checked got.2 r 0x30
        [(!belowK m (clampeds m) (createEvidence m data) ||
            !(createLatent m replicas init data).all (belowK m (latents m)), .badParam, 0x0312),
         (target != 0xFFFFFFFF && (lookup s.ctxs target).isSome, .contextBusy, 0x0115),
         ((targetIndex s target).isNone, .badParam, 0x0101)]
        (fun s => createCtx s r p mi m data ((targetIndex s target).getD 0)))

/-- 08 R264, 11 R347: CTX_CREATE. -/
def execCtxCreate (r : Req) (p : List Byte) (s : State) : Result :=
  serve s r 0x30 none (some (u32 p 0 % 2 ^ 12)) (fun s =>
    checked s r 0x30
      [(decide (p.length < 32) || (u64 p 24 != 0 && p.length != 32), badLength),
       (u8 p 11 != 0 || u16 p 14 != 0, badReserved),
       ((modelOfHandle s (u32 p 0)).isNone, badModel)] (fun s =>
      match modelOfHandle s (u32 p 0) with
      | none => s
      | some (mi, m) => createWith s r p mi m))

/-! ### CTX_UPDATE (R265, R266, R348) -/

/-- Items of the payload. -/
def updateItems (p : List Byte) : List (List Byte) := chunks 8 (p.drop 16)

/-- An item breaks R266. -/
def itemBad (m : Model) (c : Ctx) (b : List Byte) : Bool :=
  let i := u32 b 4
  match u8 b 0 with
  | 0 => !(decide (i < m.vars.length)) || isLatent m i || decide (stateCount m i ≤ u8 b 2)
  | 1 => decide (featureWords m ≤ i)
  | 2 => !(decide (i < m.vars.length)) || !isLatent m i || decide (stateCount m i ≤ u8 b 2) || decide (c.replicas ≤ u8 b 1)
  | _ => true

/-- The position of a variable among those of its kind. -/
def rankOf (is : List Nat) (i : Nat) : Nat := (is.takeWhile (· != i)).length

/-- One item. -/
def applyItem (m : Model) (d : CtxData) (b : List Byte) : CtxData :=
  let i := u32 b 4
  match u8 b 0 with
  | 0 => { d with evidence := d.evidence.set (rankOf (clampeds m) i) (u8 b 2) }
  | 1 => { d with features := d.features.set i (BitVec.ofNat 8 (u8 b 2)) }
  | _ => { d with latent := modAt d.latent (u8 b 1) (fun l => l.set (rankOf (latents m) i) (u8 b 2)) }

/-- A neural factor's inputs differ. -/
def inputsChanged (m : Model) (f : Neural) (a b : CtxData) : Bool :=
  neuralInput m f (mergeVals m.vars a.evidence []) a.features != neuralInput m f (mergeVals m.vars b.evidence []) b.features

/-- What CTX_UPDATE makes of a context's content, but for the evidence fields: items, marginals, energies (R265). -/
def updateData (m : Model) (d : CtxData) (items : List (List Byte)) (clear : Bool) (outs : CtxData → List (Neural × NeuralOut)) :
    CtxData :=
  let d := items.foldl (applyItem m) d
  let d := if clear then { d with nMarg := 0, mc := d.mc.map (fun r => r.map (fun _ => 0)) } else d
  let d := { d with fields := codeFields m (outs d) }
  let d := { d with energy := fullEnergies m d, evidenceVersion := (d.evidenceVersion + 1) % 2 ^ 64 }
  { d with bestEnergy := energyOf m d.fields (bestValues m d) }

/-- The bytes of a context that CTX_UPDATE reads: header, evidence, features, fields, state, best record. -/
def updateSpans (m : Model) (c : Ctx) : List (Nat × Nat) :=
  (0, 256) :: [0, 1, 2, 3, 6].map (sectionSpan m c)

/-- The ranges that CTX_UPDATE stores anew whatever they held: the energies, and the marginals that it clears (R265). -/
def updateStores (m : Model) (c : Ctx) (clear : Bool) : List (Nat × Nat) :=
  ((if clear then [5] else []) ++ [4]).map (sectionSpan m c)

/-- Writes the ranges given whole and, elsewhere, the bytes that change. -/
def writeUpdate (s : State) (a : Nat) (old new : List Byte) (stores : List (Nat × Nat)) : State :=
  let rest := stores.foldl (fun b u => b.take u.1 ++ slice new u.1 u.2 ++ b.drop (u.1 + u.2)) old
  each stores (writeDiff s a rest new) (fun s u => writeHbm s (a + u.1) (slice new u.1 u.2))

/-- 08 R265, R266: CTX_UPDATE. -/
def execCtxUpdate (r : Req) (p : List Byte) (s : State) : Result :=
  let h := u32 p 0
  serve s r 0x31 (some (ctxIndex h)) none (fun s =>
    checked s r 0x31
      [(decide (p.length < 16) || p.length != 16 + 8 * u16 p 6, badLength),
       (decide (1 < u16 p 4) || !allZero (slice p 8 8) || (updateItems p).any (fun b => u8 b 3 != 0), badReserved),
       ((ctxOf s h).isNone, noContext),
       (u16 p 6 == 0 || decide (1022 < u16 p 6), badRange)] (fun s =>
      match ctxOf s h with
      | none => s
      | some c =>
        let m := ctxModel s c
        checked s r 0x31
          [((updateItems p).any (itemBad m c), .badParam, 0x0312), (c.st != .idle, .contextBusy, 0x0360)] (fun s =>
          let got := readSpans s c.addr (updateSpans m c)
          let s := got.2
          if !got.1 then reply s r 0x31 .dataError 0x0307
          else
            let d := updateData m c.data (updateItems p) (u16 p 4 == 1)
              (fun d => neuralOuts m (mergeVals m.vars d.evidence []) d.features)
            let ran := (neuralOuts m (mergeVals m.vars d.evidence []) d.features).filter (fun o => inputsChanged m o.1 c.data d)
            let s := writeUpdate s c.addr (imageOf s c c.data) (imageOf s c d) (updateStores m c (u16 p 4 == 1))
            let s := countNeural (setCtx s (ctxIndex h) { c with data := d }) m ran
            neuralReply s r 0x31 ran (leBytes 8 d.evidenceVersion ++ leBytes 8 (energyFp64 d.bestEnergy)))))

/-! ### CTX_SAVE (R277, R278, R281) -/

/-- The image of a context as it stands now, RUN_STATE that of `st`: its first USED bytes (R277). -/
def savedImage (s : State) (c : Ctx) (st : RunState) : List Byte :=
  sealImage ((movedBytes s c { c with data := ctxNow c, st := st }).take c.used)

/-- The save region breaks R278. -/
def badSaveRegion (s : State) (c : Ctx) (a n : Nat) : Bool := decide (n < c.used) || writeProtected s a n

/-- 08 R277: CTX_SAVE. The image of an Idle or Paused context is taken at once and written by CTX_SAVE_COMPLETE; that of a
Running one waits for the boundary. -/
def execCtxSave (r : Req) (p : List Byte) (s : State) : Result :=
  let h := u32 p 0
  let a := u64 p 8
  let n := u64 p 16
  serve s r 0x32 (some (ctxIndex h)) none (fun s =>
    checked s r 0x32
      ([(p.length != 24, badLength), (!allZero (slice p 4 4), badReserved), ((ctxOf s h).isNone, noContext)] ++
       regionChecks s a n 64 false) (fun s =>
      match ctxOf s h with
      | none => s
      | some c =>
        checked s r 0x32 [(badSaveRegion s c a n, .badParam, 0x0104)] (fun s =>
          let v : Save := ⟨r, ctxIndex h, a, none, false, false⟩
          if c.st = .running then
            { hold s r 0x32 (some (ctxIndex h)) none with saves := s.saves ++ [{ v with deferred := true }] }
          else
            let got := readHbm s c.addr c.used
            let s := got.2
            if got.1.isNone then reply s r 0x32 .dataError 0x0307
            else { hold s r 0x32 (some (ctxIndex h)) none with saves := s.saves ++ [{ v with image := some (savedImage s c c.st) }] })))

/-- INFO_FLAGS of a CTX_SAVE. -/
def saveFlags (v : Save) : Nat := (if v.deferred then flagDeferred else 0) + (if v.repaired then flagRepaired else 0)

/-- Takes the image of a save that waits: from the seat, or from HBM, where a bad word fails the save (R277, R350). -/
def takeSave (c : Ctx) (st : RunState) (repaired : Bool) (s : State) (v : Save) : State :=
  let got := if c.seat.isSome then (some [], s) else readHbm s c.addr c.used
  let v := { v with repaired := repaired }
  let s := got.2
  match got.1 with
  | none => reply { s with saves := s.saves.filter (fun x => !(x.r == v.r)) } v.r 0x32 .dataError 0x0307 [] (saveFlags v)
  | some _ => { s with saves := s.saves.map (fun x => if x.r = v.r then { v with image := some (savedImage s c st) } else x) }

/-- Takes the images of the saves that wait on a context, with RUN_STATE as given (R281: in acceptance order). -/
def takeSaves (s : State) (i : Nat) (st : RunState) (repaired : Bool) : State :=
  match lookup s.ctxs i with
  | none => s
  | some c => each (s.saves.filter (fun v => v.ctx == i && v.image.isNone)) s (takeSave c st repaired)

/-- Frees a context's entry (R349). -/
def dropCtx (s : State) (i : Nat) : State := { s with ctxs := del s.ctxs i }

/-- CTX_DESTROY of a handle (R281, R349): its context as it is now. -/
def destroyNow (s : State) (r : Req) (h : Nat) : State :=
  match ctxOf s h with
  | none => reply s r 0x34 .noContext
  | some c => if c.st = .idle then reply (dropCtx s (ctxIndex h)) r 0x34 .ok else reply s r 0x34 .contextBusy 0x0360

/-- Destroys that waited for a save go on when no save reads the context any more. -/
def finishDestroys (s : State) (i : Nat) : State :=
  if s.saves.any (fun v => v.ctx == i) then s
  else
    each (s.destroys.filter (fun d => ctxIndex d.2 == i))
      { s with destroys := s.destroys.filter (fun d => ctxIndex d.2 != i) } (fun s d => destroyNow s d.1 d.2)

/-- 08 R281: CTX_SAVE_COMPLETE. -/
def execCtxSaveComplete (r : Req) (s : State) : Result :=
  .next (match s.saves.find? (fun v => v.r == r) with
    | none => s
    | some v =>
      match v.image with
      | none => s
      | some img =>
        let s := { writeHbm s v.addr img with saves := s.saves.filter (fun x => !(x.r == r)) }
        let s := reply s r 0x32 .ok 0 (leBytes 8 img.length ++ slice img 0xA0 48) (saveFlags v)
        finishDestroys s v.ctx)

/-! ### CTX_RESTORE (R279, R280) -/

/-- The bytes that CTX_RESTORE reads: the header, and on to USED rounded up when that lies within REGION_LEN. -/
def readSaved (s : State) (a n : Nat) : Option (List Byte) × State :=
  let h := readHbm s a (min 256 (hbmEnd - a))
  match h.1 with
  | none => (none, h.2)
  | some hdr =>
    let used := roundUp (u32 hdr 0x0C) 64
    if used ≤ n ∧ 256 < used then
      let r := readHbm h.2 (a + 256) (used - 256)
      (r.1.map (hdr ++ ·), r.2)
    else (some hdr, h.2)

/-- Checks 2 and 3 over the bytes read. -/
def savedHeaderBad (img : List Byte) (n : Nat) : Bool :=
  u32 img 0 != 0x43374E47 || u16 img 4 != 1 || decide (n < roundUp (u32 img 0x0C) 64) || decide (img.length < 256) ||
  (u8 img 6, u32 img 0x68) != classOf (u32 img 0x0C) || decide (4096 < u32 img 0x68)

def savedDigestBad (img : List Byte) : Bool :=
  let z := (overlay img 0xA0 (zeros 48)).take (roundUp (u32 img 0x0C) 64)
  sha384 z != slice img 0xA0 48

/-- The loaded model with the image's digest, the lowest index among equals. -/
def savedModel (s : State) (img : List Byte) : Option (Nat × Model) := s.models.find? (fun e => e.2.digest == slice img 0x10 48)

/-- Check 5. -/
def savedBodyBad (m : Model) (img : List Byte) : Bool :=
  let replicas := u8 img 7
  let cap := u16 img 0x0A
  replicas == 0 || decide (m.maxReplicas < replicas) || decide (4096 < cap) || !(u8 img 8 == 0 || u8 img 8 == 2) ||
  u32 img 0x0C != usedBytes m replicas cap ||
  (List.range 10).any (fun k => u32 img (0x70 + 4 * k) != (sectionOffsets m replicas cap).getD k 0) ||
  (let d := ctxFrom m replicas cap img
   !belowK m (clampeds m) d.evidence || !d.latent.all (belowK m (latents m)) || !belowK m (latents m) d.bestState ||
   d.gens.map (fun g => (g.stream, g.replica)) != (streams m).flatMap (fun t => (List.range replicas).map (fun k => (t, k))) ||
   d.gens.any (fun g => decide (ringSize ≤ g.pos)))

/-- Check 6: TARGET (R253). -/
def restoreTarget (s : State) (target : Nat) : Option (Status × Nat) :=
  if target = 0xFFFFFFFF then none
  else if target < 2 ^ 18 then (if (lookup s.ctxs target).isSome then some (.contextBusy, 0x0115) else none)
  else match ctxOf s target with
  | none => some (.noContext, 0x0115)
  | some c => if c.st = .idle then none else some (.contextBusy, 0x0115)

/-- The restored context holds the image's bytes (R280). -/
def restoreCtx (s : State) (r : Req) (mi : Nat) (m : Model) (img : List Byte) (i : Nat) (home : Nat) : State :=
  let used := u32 img 0x0C
  match poolPlace s i (some i) home (classBytes (classOf used).1 (classOf used).2) with
  | none => reply s r 0x33 .badParam 0x0103
  | some a =>
    let st := if u8 img 8 = 2 then RunState.paused else .idle
    let c := newCtx mi home a (u8 img 7) (u16 img 0x0A) used st (ctxFrom m (u8 img 7) (u16 img 0x0A) img)
    let s := installCtx s i c (overlay img 0xA0 (zeros 48))
    reply s r 0x33 .ok 0 (leBytes 4 (ctxHandle i { c with gen := (lookup s.ctxGens i).getD 0 }) ++
      leBytes 1 (st.code + 1) ++ zeros 3)

/-- 08 R279, R280: CTX_RESTORE. -/
def execCtxRestore (r : Req) (p : List Byte) (s : State) : Result :=
  let a := u64 p 0
  let n := u64 p 8
  let target := u32 p 16
  serve s r 0x33 (if 2 ^ 18 ≤ target ∧ target ≠ 0xFFFFFFFF then some (ctxIndex target) else none) none (fun s =>
    checked s r 0x33
      ([(p.length != 24, badLength), (!allZero (slice p 21 3), badReserved),
        (!(decide (u8 p 20 < 8) || u8 p 20 == 0xFF), badRange)] ++ regionChecks s a n 64 false) (fun s =>
      let got := readSaved s a n
      let s := got.2
      match got.1 with
      | none => reply s r 0x33 .dataError 0x0110
      | some img =>
        checked s r 0x33
          [(savedHeaderBad img n, .badParam, 0x0111), (savedDigestBad img, .badParam, 0x0112),
           ((savedModel s img).isNone, .badParam, 0x0113)] (fun s =>
          match savedModel s img with
          | none => s
          | some (mi, m) =>
            if savedBodyBad m img then reply s r 0x33 .badParam 0x0114
            else match restoreTarget s target with
            | some e => reply s r 0x33 e.1 e.2
            | none =>
              match targetIndex s target with
              | none => reply s r 0x33 .badParam 0x0101
              | some i => restoreCtx s r mi m img i (homeOf (u8 p 20) i))))

/-! ### CTX_DESTROY, CTX_QUERY (R349) -/

/-- 11 R349, 08 R281: CTX_DESTROY waits until a save of the context is written. -/
def execCtxDestroy (r : Req) (p : List Byte) (s : State) : Result :=
  let h := u32 p 0
  serve s r 0x34 (some (ctxIndex h)) none (fun s =>
    checked s r 0x34
      [(p.length != 8, badLength), (!allZero (slice p 4 4), badReserved), ((ctxOf s h).isNone, noContext),
       ((ctxOf s h).any (fun c => c.st != .idle), .contextBusy, 0x0360)] (fun s =>
      if s.saves.any (fun v => v.ctx == ctxIndex h) then
        { hold s r 0x34 (some (ctxIndex h)) none with destroys := s.destroys ++ [(r, h)] }
      else reply (dropCtx s (ctxIndex h)) r 0x34 .ok))

/-- STATE of the context table: 1 Idle, 2 Running, 3 Paused (R255). -/
def stateCode (c : Ctx) : Nat := c.st.code + 1

/-- The 64 bytes of CTX_QUERY. -/
def queryBytes (s : State) (h : Nat) (c : Ctx) : List Byte :=
  let d := ctxNow c
  leBytes 4 h ++ leBytes 1 (stateCode c) ++ leBytes 1 c.sizeClass ++ leBytes 1 c.home ++ leBytes 1 (ofBool c.seat.isSome) ++
  leBytes 4 (modelHandle c.model (ctxModel s c)) ++ leBytes 4 c.span ++ leBytes 8 c.addr ++ leBytes 2 c.placement ++ zeros 2 ++
  leBytes 8 d.sweepsTotal ++ leBytes 8 d.evidenceVersion ++ leBytes 4 c.used ++ leBytes 1 d.runKind ++ zeros 3 ++
  leBytes 8 d.sweep ++ zeros 4

/-- 11 R349: CTX_QUERY. -/
def execCtxQuery (r : Req) (p : List Byte) (s : State) : Result :=
  let h := u32 p 0
  serve s r 0x35 (some (ctxIndex h)) none (fun s =>
    checked s r 0x35
      [(p.length != 8, badLength), (!allZero (slice p 4 4), badReserved), ((ctxOf s h).isNone, noContext)] (fun s =>
      match ctxOf s h with
      | none => s
      | some c => reply s r 0x35 .ok 0 (queryBytes s h c)))

/-! ### STATS_READ (R355) -/

/-- Latent variables of a range. -/
def latentIn (m : Model) (first count : Nat) : List Nat := (latents m).filter (inRange first count)

/-- The smallest state with the largest count (R115). -/
def mostProbable (row : List Nat) : Nat :=
  (List.range row.length).foldl (fun b k => if row.getD b 0 < row.getD k 0 then k else b) 0

/-- Counts of a latent variable. -/
def countsOf (m : Model) (d : CtxData) (i : Nat) : List Nat := d.mc.getD (rankOf (latents m) i) []

/-- The data of a SELECT value. -/
def statsData (m : Model) (c : Ctx) (d : CtxData) (sel rep first count : Nat) : List Byte :=
  let is := latentIn m first count
  match sel with
  | 0 => leBytes 4 d.nMarg ++ leBytes 1 c.replicas ++ zeros 3 ++ leBytes 8 d.sweepsTotal ++ leBytes 8 d.evidenceVersion ++
      leBytes 8 d.bestSweep ++ leBytes 1 d.bestReplica ++ zeros 7 ++ energyBytes d.bestEnergy ++
      d.energy.flatMap (fun e => energyBytes e ++ leBytes 8 (energyFp64 e))
  | 1 => is.flatMap (fun i => (countsOf m d i).flatMap (leBytes 4))
  | 2 => is.map (fun i => BitVec.ofNat 8 (mostProbable (countsOf m d i)))
  | 3 => packNibbles (is.map (fun i => d.bestState.getD (rankOf (latents m) i) 0))
  | 4 => packNibbles (is.map (fun i => (d.latent.getD rep []).getD (rankOf (latents m) i) 0))
  | _ => slice (runBytes d) 160 568

/-- The bytes of the HBM copy that hold the data. -/
def statsSpans (m : Model) (c : Ctx) (sel rep first count : Nat) : List (Nat × Nat) :=
  let is := latentIn m first count
  let lo := rankOf (latents m) (is.headD 0)
  let at_ := fun k => (sectionSpan m c k).1
  match sel with
  | 0 => [(0x58, 16), (at_ 4, 48 * c.replicas), (at_ 5, 4), (at_ 6, 57)]
  | 5 => [(at_ 7 + 160, 568)]
  | _ =>
    if is.isEmpty then []
    else match sel with
    | 3 => [(at_ 6 + 64 + lo / 2, (lo + is.length - 1) / 2 - lo / 2 + 1)]
    | 4 => [(at_ 3 + rep * replicaBytes m + lo / 2, (lo + is.length - 1) / 2 - lo / 2 + 1)]
    | _ => [(at_ 5 + 4 + 4 * (((latents m).take lo).map (stateCount m)).sum, 4 * (is.map (stateCount m)).sum)]

/-- 11 R355: STATS_READ. -/
def execStatsRead (r : Req) (p : List Byte) (s : State) : Result :=
  let h := u32 p 0
  let sel := u8 p 4
  let rep := u8 p 5
  let first := u32 p 8
  let count := u32 p 12
  let dest := u64 p 16
  serve s r 0x46 (some (ctxIndex h)) none (fun s =>
    checked s r 0x46
      [(p.length != 24, badLength),
       (u16 p 6 != 0 || (sel != 4 && decide (sel < 6) && rep != 0) || ((sel == 0 || sel == 5) && (first != 0 || count != 0)), badReserved),
       ((ctxOf s h).isNone, noContext), (decide (5 < sel), badRange)] (fun s =>
      match ctxOf s h with
      | none => s
      | some c =>
        let m := ctxModel s c
        let out := statsData m c (ctxNow c) sel rep first count
        checked s r 0x46
          ([(decide (m.vars.length < first + count) || (sel == 4 && decide (c.replicas ≤ rep)) ||
              (dest == 0 && decide (8192 < out.length)), badRange)] ++
           (if dest = 0 then [] else regionChecks s dest out.length 64 true)) (fun s =>
          let got := if c.seat.isSome then (true, s) else readSpans s c.addr (statsSpans m c sel rep first count)
          let s := got.2
          if !got.1 then reply s r 0x46 .dataError 0x0307
          else if dest = 0 then reply s r 0x46 .ok 0 out
          else reply (writeHbm s dest out) r 0x46 .ok 0 (leBytes 8 out.length))))

end Sys2Proof.Machine
end

