-- ==== Sys2Proof/Machine/Runs.lean ====
section
/-!
DEFINITION. The run commands: parameters and their checks, the start of a run, pause, resume, abort, and the replies
(04 R121 to R129, R133, R134, R138, R139, R142, 08 R271, R274, 11 R351 to R354).
-/

namespace Sys2Proof.Machine

/-! ### The parameter block (R351) -/

def pSweeps (p : List Byte) : Nat := u32 p 0
def pSchedule (p : List Byte) : Nat := u8 p 4
def pSeedMode (p : List Byte) : Nat := u8 p 5
def pKeepBest (p : List Byte) : Bool := u8 p 7 == 1
def pBeta0 (p : List Byte) : Word := w32 p 8
def pStep (p : List Byte) : Word := w32 p 12
def pTableAddr (p : List Byte) : Nat := u64 p 16
def pTableLen (p : List Byte) : Nat := u16 p 24
def pExchInterval (p : List Byte) : Nat := orElse (u16 p 26) 1
def pRotSweeps (p : List Byte) : Nat := orElse (u16 p 28) 1
def pStopEnergyEn (p : List Byte) : Bool := u8 p 30 == 1
def pMargAdd (p : List Byte) : Bool := u8 p 31 == 1
def pBurnIn (p : List Byte) : Nat := u32 p 32
def pThin (p : List Byte) : Nat := orElse (u32 p 36) 1
def pPatience (p : List Byte) : Nat := u32 p 40
def pSeed (p : List Byte) : DWord := w64 p 48
def pStopEnergy (p : List Byte) : Nat := u64 p 56

/-- Run kinds: 1 RUN_SAMPLE, 2 RUN_ANNEAL, 3 RUN_TEMPER. -/
def kindOf (op : Nat) : Nat := op - 0x3F

/-- Bytes of the block that the kind, the schedule kind or the seed mode does not use (R122, R126, R334; log 44). -/
def unusedSpans (kind : Nat) (p : List Byte) : List (Nat × Nat) :=
  [(44, 4), (64, 64)] ++
  (if kind = 3 then [(4, 1), (8, 4)] else [(26, 2)]) ++
  (if kind = 2 then [(31, 1), (32, 8)] else []) ++
  (if pSchedule p = 0 ∨ pSchedule p = 3 then [(12, 4)] else []) ++
  (if pSchedule p < 3 then [(16, 10)] else []) ++
  (if pSeedMode p = 1 ∨ pSeedMode p = 2 then [(48, 8)] else [])

def unusedBad (kind : Nat) (p : List Byte) : Bool := (unusedSpans kind p).any (fun u => !allZero (slice p u.1 u.2))

/-- A field of R351 out of range. -/
def rangesBad (kind : Nat) (p : List Byte) : Bool :=
  pSweeps p == 0 || decide (3 < pSchedule p) || (kind == 1 && pSchedule p != 0) || decide (2 < pSeedMode p) ||
  decide (15 < pSubset p) || decide (1 < u8 p 7) || decide (256 < pRotSweeps p) || decide (1 < u8 p 30) ||
  decide (1 < u8 p 31) || (pSchedule p == 3 && !(decide (1 ≤ pTableLen p ∧ pTableLen p ≤ 4096)))

/-! ### Schedules (R87, R123, R124) -/

/-- An inverse temperature that R87 allows. -/
def betaAllowed (w : Word) : Bool := !fpIsNan w && (!fpSign w || fpMag w == 0)

/-- LINEAR: the value of sweep n. -/
def linearBeta (p : List Byte) (n : Nat) : Word := fpAdd (pBeta0 p) (fpMul (fpRound ⟨(n : Int) - 1, 0⟩) (pStep p))

/-- Entries of a schedule table: value and COUNT. -/
def tableEntry (t : List Byte) (k : Nat) : Word × Nat := (w32 t (8 * k), u32 t (8 * k + 4))
def tableEntries (t : List Byte) (n : Nat) : List (Word × Nat) := (List.range n).map (tableEntry t)

/-- The schedule breaks R87 or R124. -/
def scheduleBad (p tbl : List Byte) : Bool :=
  match pSchedule p with
  | 0 => !betaAllowed (pBeta0 p)
  | 1 => !fpIsFinite (pBeta0 p) || !fpIsFinite (pStep p) || !betaAllowed (linearBeta p 1) || !betaAllowed (linearBeta p (pSweeps p))
  | 2 => !betaAllowed (pBeta0 p) || !fpIsFinite (pStep p) || fpSign (pStep p) || fpMag (pStep p) == 0
  | _ =>
    let es := tableEntries tbl (pTableLen p)
    es.any (fun e => !betaAllowed e.1 || e.2 == 0) || (es.map (·.2)).sum != pSweeps p

/-- LADDER breaks R138, or TABLE_CAP is too small for it. -/
def ladderBad (c : Ctx) (l : List Byte) : Bool :=
  let ws := wordsOf l
  decide (c.replicas < 2) || ws.length != c.replicas || decide (8 * c.tableCap < 4 * c.replicas) ||
  ws.any (fun w => !fpIsFinite w || !betaAllowed w) ||
  (List.zipWith (fun a b => !fpLt b a) ws (ws.drop 1)).any id

/-- N_MARG would exceed its limit (R114). -/
def margBad (c : Ctx) (kind : Nat) (p : List Byte) : Bool :=
  let counted := (pSweeps p - pBurnIn p) / pThin p * (if kind = 1 then c.replicas else if kind = 3 then 1 else 0)
  decide (0xFFFFFFFF < (if pMargAdd p then c.data.nMarg else 0) + counted)

/-- EXCH_ATTEMPT would exceed its limit (R142): pair 0 takes part in every second event, from the first. -/
def exchBad (kind : Nat) (p : List Byte) : Bool :=
  kind == 3 && decide (0xFFFFFFFF < ((pSweeps p - 1) / pExchInterval p + 1) / 2)

/-! ### Run lists (R271, R274) -/

/-- Takes a context out of every run list of its model. -/
def leaveLists (s : State) (mi i : Nat) : State :=
  { s with models := adjust s.models mi (fun m => { m with lists := m.lists.map (fun l => l.filter (· != i)) }) }

/-- Puts a context at the tail of a list. -/
def joinList (s : State) (mi place i : Nat) : State :=
  { s with models := adjust s.models mi (fun m => { m with lists := modAt m.lists place (· ++ [i]) }) }

/-- A run is admitted: it takes the next number and goes to placement number mod P. A run that goes on counts from the saturated
field vectors of its part before the pause (06 R185). -/
def admitRun (s : State) (i : Nat) (c : Ctx) (r : Req) (op : Nat) (md : Modes) (seeded : Bool) (before : Option CtxData) :
    Ctx × State :=
  let m := ctxModel s c
  let place := m.nextRun % max 1 m.placements.length
  let run : Run := { r := r, opcode := op, placement := place, number := m.nextRun, satVars := if seeded then c.sat else 0, repaired := false,
                     replayed := false, pauses := [], seeded := seeded, stop := none, before := before, first := c.data.sweep,
                     repro := md.repro }
  let c := { c with st := .running, run := some run, sat := 0 }
  let s := { s with models := adjust s.models c.model (fun m => { m with nextRun := m.nextRun + 1 }) }
  (c, joinList s c.model place i)

/-- A context takes a new content and state, and the bytes that change are written to its HBM copy. -/
def rewriteCtx (s : State) (i : Nat) (old new : Ctx) : State :=
  writeDiff (setCtx s i new) old.addr (imageOf s old old.data) (imageOf s new new.data)

/-! ### Starting (R126, R133, R134, R139, R142) -/

/-- The generators and RUN_SEED of a run: seeded, or those that the context holds (R126). -/
def seedRun (m : Model) (d : CtxData) (seed : Option DWord) : CtxData :=
  match seed with
  | none => d
  | some k => { d with
      runSeed := k
      gens := (streams m).flatMap (fun t => (List.range d.latent.length).map (seedGen k t)) }

/-- The content at the start of a run: run state cleared, counts cleared unless they are kept, energies in full, best record. -/
def startData (m : Model) (d : CtxData) (kind : Nat) (p tbl ladder : List Byte) (seed : Option DWord) : CtxData :=
  let d := seedRun m d seed
  let d := { d with
    runKind := kind
    params := p
    sweep := 0
    schedPos := 0
    schedLeft := if kind != 3 && pSchedule p == 3 then (tableEntry tbl 0).2 else 0
    exchEvents := 0
    patience := 0
    betaCur := 0
    rungMap := List.range d.latent.length ++ List.replicate (64 - d.latent.length) 0
    exchAttempt := List.replicate 63 0
    exchAccept := List.replicate 63 0
    schedule := overlay d.schedule 0 (if kind = 3 then ladder else tbl) }
  let d := if kind != 2 && !pMargAdd p then { d with nMarg := 0, mc := d.mc.map (fun r => r.map (fun _ => 0)) } else d
  let d := { d with energy := fullEnergies m d }
  if pKeepBest p then d else takeBest d (lowestReplica d.energy) 0

/-- A run starts: its context becomes Running and joins a run list. -/
def beginRun (s : State) (r : Req) (op : Nat) (md : Modes) (i : Nat) (c : Ctx) (p tbl ladder : List Byte) (seed : Option DWord) :
    State :=
  let d := startData (ctxModel s c) c.data (kindOf op) p tbl ladder seed
  let a := admitRun (hold s r op (some i) none md) i { c with data := d, sat := 0 } r op md seed.isNone (some c.data)
  rewriteCtx a.2 i c a.1

/-- The seed of a run: that of SEEDED mode, that of the DRBG, or none for CONTINUE. -/
def runSeedOf (p : List Byte) (drawn : Option DWord) : Option DWord :=
  match pSeedMode p with
  | 0 => some (pSeed p)
  | 1 => none
  | _ => drawn

/-- What the DRBG has delivered to a run in ENTROPY mode: its seed, and the schedule table read before (R124). -/
abbrev Drawn := DWord × List Byte

/-- A request for a run's seed waits at consumer order 3 (07 R244); the context stays Idle (log 45). -/
def awaitSeed (s : State) (r : Req) (op : Nat) (md : Modes) (i : Nat) (payload tbl : List Byte) : State :=
  let s := hold s r op (some i) none md
  { s with ent := { s.ent with queue := s.ent.queue ++ [⟨.seed r op payload tbl, 8, []⟩] } }

/-- Step 9: the schedule table, read once (R124). -/
def runTable (s : State) (op : Nat) (p : List Byte) (drawn : Option Drawn) : Option (List Byte) × State :=
  match drawn with
  | some d => (some d.2, s)
  | none => if kindOf op != 3 && pSchedule p == 3 then readHbm s (pTableAddr p) (8 * pTableLen p) else (some [], s)

/-- Steps 9 to 14 of R354, then the start. -/
def runWith (s : State) (r : Req) (op : Nat) (md : Modes) (i : Nat) (c : Ctx) (payload : List Byte) (drawn : Option Drawn) :
    State :=
  let p := slice payload 8 128
  let kind := kindOf op
  let got := runTable s op p drawn
  match got.1 with
  | none => reply got.2 r op .dataError 0x0307
  | some tbl =>
    checked got.2 r op
      [(kind != 3 && scheduleBad p tbl, .badParam, 0x0320), (kind == 3 && ladderBad c (payload.drop 136), .badParam, 0x0321),
       (margBad c kind p, .badParam, 0x0322), (exchBad kind p, .badParam, 0x0323),
       (pSeedMode p == 2 && drawn.isNone && s.ent.st == .failed, .entropyFailed, 0),
       (pSeedMode p == 2 && drawn.isNone && s.ent.st != .ready, .entropyNotReady, 0)] (fun s =>
      if pSeedMode p = 2 ∧ drawn = none then awaitSeed s r op md i payload tbl
      else beginRun s r op md i c p tbl (payload.drop 136) (runSeedOf p (drawn.map (·.1))))

/-- Steps 4 to 8 of R354 for the context named. -/
def runChecks (s : State) (op : Nat) (c : Ctx) (payload : List Byte) : List (Bool × Status × Nat) :=
  let p := slice payload 8 128
  let kind := kindOf op
  let table := kind != 3 && pSchedule p == 3
  [(rangesBad kind p, badRange), (kind == 3 && payload.length != 136 + 4 * c.replicas, badLength),
   (table && decide (c.tableCap < pTableLen p), .badParam, 0x0324)] ++
  (if table then regionChecks s (pTableAddr p) (8 * pTableLen p) 64 false else []) ++
  [(c.st != .idle, .contextBusy, 0x0360)]

/-- A run command (R354). `drawn` is what the DRBG has delivered to it, `md` the modes it was accepted under. -/
def runCommand (s : State) (r : Req) (op : Nat) (md : Modes) (payload : List Byte) (drawn : Option Drawn) : State :=
  let h := u32 payload 0
  let len := payload.length
  checked s r op
    [(decide (len < 136) || (op != 0x42 && len != 136) || decide (392 < len) || len % 4 != 0, badLength),
     (!allZero (slice payload 4 4) || unusedBad (kindOf op) (slice payload 8 128), badReserved),
     ((ctxOf s h).isNone, noContext)] (fun s =>
    match ctxOf s h with
    | none => s
    | some c => checked s r op (runChecks s op c payload) (fun s => runWith s r op md (ctxIndex h) c payload drawn))

/-- 04 R121, 11 R354: RUN_SAMPLE. -/
def execRunSample (r : Req) (p : List Byte) (s : State) : Result :=
  serve s r 0x40 (some (ctxIndex (u32 p 0))) none (fun t => runCommand t r 0x40 (modesOf s r 0x40) p none)

/-- 04 R121, 11 R354: RUN_ANNEAL. -/
def execRunAnneal (r : Req) (p : List Byte) (s : State) : Result :=
  serve s r 0x41 (some (ctxIndex (u32 p 0))) none (fun t => runCommand t r 0x41 (modesOf s r 0x41) p none)

/-- 04 R121, 11 R354: RUN_TEMPER. -/
def execRunTemper (r : Req) (p : List Byte) (s : State) : Result :=
  serve s r 0x42 (some (ctxIndex (u32 p 0))) none (fun t => runCommand t r 0x42 (modesOf s r 0x42) p none)

/-! ### Ending (R272, R274, R352, R353) -/

/-- The 96 bytes of a run's reply. -/
def runPayload (reason : Nat) (d : CtxData) (satVars : Nat) : List Byte :=
  leBytes 1 reason ++ leBytes 1 d.bestReplica ++ zeros 2 ++ leBytes 4 d.nMarg ++ leBytes 8 d.sweep ++ leBytes 8 d.bestSweep ++
  leBytes 8 d.runSeed.toNat ++ leBytes 8 (energyFp64 d.bestEnergy) ++ energyBytes d.bestEnergy ++
  leBytes 4 (min satVars 0xFFFFFFFF) ++ zeros 4

/-- The run with the saturated field vectors of its residency counted (R352). -/
def runNow (c : Ctx) (v : Run) : Run := { v with satVars := v.satVars + (c.seat.elim 0 (·.sat)) }

/-- INFO_FLAGS of a run. -/
def runFlags (v : Run) : Nat := (if v.repaired then flagRepaired else 0) + (if v.replayed then flagReplayed else 0)

/-- The run command replies: OK, or OVERFLOW_SATURATED for a completed run with a saturated field vector (R354). -/
def runReply (s : State) (v : Run) (reason : Nat) (d : CtxData) : State :=
  if v.satVars ≠ 0 ∧ reason < 3 then
    reply s v.r v.opcode .overflowSaturated 0x0326 (runPayload reason d v.satVars) (runFlags v)
  else reply s v.r v.opcode .ok 0 (runPayload reason d v.satVars) (runFlags v)

/-- RUN_PAUSEs that waited for a boundary at which the run ended complete with NOT_READY (R129). -/
def failPauses (s : State) (v : Run) : State :=
  each v.pauses s (fun s q => reply s q 0x43 .notReady 0x0361 [] flagDeferred)

/-- Speculative updates of a sweep that is abandoned and has not been validated (R108), counted on their cores. -/
def countAbandoned (s : State) (w : Sweep) : State :=
  each w.shares s (fun s h =>
    match physOf s h.core with
    | none => s
    | some p => bump64 s (coreReg p 0x410) (h.vecs.countP (·.spec)))

/-- The sweep in progress of a context is abandoned; the seat keeps the last boundary. -/
def abandonSweep (s : State) (i : Nat) : State :=
  match (lookup s.ctxs i).bind (·.seat) with
  | none => s
  | some seat =>
    match seat.sweep with
    | none => s
    | some w => modCtx (countAbandoned s w) i (fun c => { c with seat := some { seat with sweep := none } })

/-- A context leaves its seat and its list, in a new state, its content as at the last boundary. -/
def unseat (s : State) (i : Nat) (c : Ctx) (st : RunState) : State :=
  let d := { c with data := ctxNow c, seat := none, run := none, st := st
                    sat := if st = .paused then c.run.elim 0 (fun v => (runNow c v).satVars) else 0 }
  let s := forgetItems (leaveLists s c.model i) (itemOfCtx i)
  if c.seat.isSome then writeBack s i c d else rewriteCtx s i c d

/-- 04 R128, 08 R274, 11 R353: RUN_ABORT. -/
def abortRun (s : State) (r : Req) (i : Nat) : State :=
  let s := abandonSweep s i
  match lookup s.ctxs i with
  | none => s
  | some c =>
    let s := takeSaves (unseat s i c .idle) i .idle (c.run.any (·.repaired))
    let s := match c.run with
      | none => s
      | some v => failPauses (runReply s (runNow c v) 4 (ctxNow c)) v
    reply s r 0x45 .ok

/-- The checks that RUN_PAUSE, RUN_RESUME and RUN_ABORT share. -/
def handleChecks (s : State) (p : List Byte) : List (Bool × Status × Nat) :=
  [(p.length != 8, badLength), (!allZero (slice p 4 4), badReserved), ((ctxOf s (u32 p 0)).isNone, noContext)]

/-- The run of a context has met its last boundary (R129). -/
def runOver (c : Ctx) : Bool := c.run.any (fun v => v.stop.isSome)

/-- 04 R128, R129, 11 R353: RUN_PAUSE waits for the next boundary of a Running context. -/
def execRunPause (r : Req) (p : List Byte) (s : State) : Result :=
  let i := ctxIndex (u32 p 0)
  serve s r 0x43 (some i) none (fun s =>
    checked s r 0x43 (handleChecks s p) (fun s =>
      match ctxOf s (u32 p 0) with
      | none => s
      | some c =>
        match c.st with
        | .idle => reply s r 0x43 .notReady 0x0361
        | .paused => reply s r 0x43 .ok
        | .running =>
          if runOver c then reply s r 0x43 .notReady 0x0361
          else modCtx (hold s r 0x43 (some i) none) i (fun c =>
            { c with run := c.run.map (fun v => { v with pauses := v.pauses ++ [r] }) })))

/-- 04 R127, R128, 08 R274, 11 R353: RUN_RESUME admits a Paused context again. -/
def execRunResume (r : Req) (p : List Byte) (s : State) : Result :=
  let i := ctxIndex (u32 p 0)
  let md := modesOf s r 0x44
  serve s r 0x44 (some i) none (fun s =>
    checked s r 0x44 (handleChecks s p) (fun s =>
      match ctxOf s (u32 p 0) with
      | none => s
      | some c =>
        if c.st = .paused then
          let d := { c.data with energy := fullEnergies (ctxModel s c) c.data }
          let a := admitRun (hold s r 0x44 (some i) none md) i { c with data := d } r 0x44 md true (some c.data)
          rewriteCtx a.2 i c a.1
        else reply s r 0x44 .notReady 0x0361))

/-- 04 R128, 11 R353: RUN_ABORT. -/
def execRunAbort (r : Req) (p : List Byte) (s : State) : Result :=
  let i := ctxIndex (u32 p 0)
  serve s r 0x45 (some i) none (fun s =>
    checked s r 0x45 (handleChecks s p) (fun s =>
      match ctxOf s (u32 p 0) with
      | none => s
      | some c =>
        if c.st = .idle ∨ runOver c then reply s r 0x45 .notReady 0x0361 else abortRun s r i))

/-- A run ends with DATA_ERROR (R354): its context returns to its last boundary, or to what it held before the run when no
sweep has begun to count, and becomes Idle; the bad word is not written over. -/
def failRun (s : State) (i : Nat) : State :=
  let s := abandonSweep s i
  match lookup s.ctxs i with
  | none => s
  | some c =>
    match c.run with
    | none => s
    | some v =>
      let d := if (ctxNow c).sweep = v.first then v.before.getD (ctxNow c) else ctxNow c
      let s := rewriteCtx (forgetItems (leaveLists s c.model i) (itemOfCtx i)) i c { c with data := d, seat := none, run := none, st := .idle }
      let s := reply s v.r v.opcode .dataError 0x0325 [] (runFlags v)
      failPauses (takeSaves s i .idle v.repaired) v

end Sys2Proof.Machine
end

