-- ==== Sys2Proof/Machine/Halves.lean ====
section
/-!
DEFINITION. Which half each piece of work uses, work that spans both halves, and the CORE_CLK gates (01 R41, R46, 09 R291 to R293,
15 R465).
-/

namespace Sys2Proof.Machine

/-! ### Spanning work (09 R292) -/

/-- Nodes in both halves. -/
def bothHalves (ns : List Node) : Bool := (ns.map halfOfNode).contains 0 && (ns.map halfOfNode).contains 1

/-- Nodes of the routes both ways between a core and an HBM controller. -/
def stackRoutes (p n : Nat) : List Node :=
  routeNodes (nodeOf (.core p)) (nodeOf (.hbm n)) ++ routeNodes (nodeOf (.hbm n)) (nodeOf (.core p))

/-- Nodes that an owner's slots touch on the way from or to some cores. -/
def slotNodes (s : State) (o : Owner) (cores : List Nat) : List Node :=
  let here := cores.map (fun p => nodeOf (.core p))
  (s.slots.filter (fun e => e.owner == o && (here.contains e.src || here.contains e.dst))).flatMap (fun e =>
    [e.src, e.dst, (linkEnds e.link).1, (linkEnds e.link).2])

/-- Physical cores whose schedule memory holds an owner's schedule. -/
def scheduledOn (s : State) (o : Owner) : List Nat :=
  (List.range 18).filter (fun p => (coreState s p).schedules.any (fun e => e.1 == o))

/-- Physical cores of a sweep's shares. -/
def sweepCores (s : State) (w : Sweep) : List Nat := w.shares.filterMap (fun h => physOf s h.core)

/-- The sweep of a context spans both halves: its cores, its home stack, the routes between them, and its model's slots there. -/
def sweepSpans (s : State) (c : Ctx) (w : Sweep) : Bool :=
  let ps := sweepCores s w
  bothHalves (ps.flatMap (fun p => stackRoutes p c.home) ++ slotNodes s (.model c.model) ps)

/-- A program spans both halves: its cores and its slots. -/
def progSpans (s : State) (p : Prog) : Bool :=
  let ps := scheduledOn s (.prog p.r)
  bothHalves (ps.map (fun q => nodeOf (.core q)) ++ slotNodes s (.prog p.r) ps)

/-- A fence and COMBINE span both halves: the cores they name. -/
def drainSpans (s : State) (d : Drain) : Bool :=
  bothHalves ((d.cores.filterMap (physOf s)).map (fun p => nodeOf (.core p)))

/-- Work in progress, accepted in reproducible mode, spans both halves. -/
def spanningWork (s : State) : Bool :=
  s.ctxs.any (fun e => e.2.run.any (·.repro) && ((e.2.seat.bind (·.sweep)).any (sweepSpans s e.2))) ||
  s.progs.any (fun p => p.repro && progSpans s p) || s.drains.any (fun d => d.combine && d.repro && drainSpans s d)

/-- Spanning work runs while the halves differ in frequency: recorded (R46, R291, R293). -/
def seamEvent (s : State) : State := workEvent (spanningWork s && !halvesEqual s) s 2

/-! ### Work of a half (R41, R465) -/

/-- A work's stretch of HBM lies in a stack of the half. -/
def stackHere (h a : Nat) : Bool := decide (a < hbmEnd) && halfOfUnit (.hbm (stackOf a)) == h

/-- A Leash port has messages to send or to see acknowledged. -/
def portBusy (s : State) (n : Nat) : Bool := hasTraffic (port s n)

/-- The half has work: a sweep, a tensor program or a COMBINE on one of its cores, a transfer at one of its HBM controllers, or
messages at one of its Leash ports (R465). -/
def halfBusy (s : State) (h : Nat) : Bool :=
  (List.range 18).any (fun p => halfOfCore p == h &&
    (coreActive s p || s.progs.any (fun q => (scheduledOn s (.prog q.r)).contains p) ||
      s.drains.any (fun d => d.combine && (d.cores.filterMap (physOf s)).contains p))) ||
  s.moves.any (fun m => stackHere h m.src || stackHere h m.dst) || s.fills.any (fun f => stackHere h f.dst) ||
  s.saves.any (fun v => stackHere h v.addr) ||
  (List.range 4).any (fun n => halfOfUnit (.leash n) == h && portBusy s n)

/-- A queued command needs cores or HBM: it is none of those that the Handler serves alone. -/
def queuedWork (s : State) : Bool :=
  (List.range 9).any (fun q => (queueAt s q).any (fun p => !servedEarly p.opcode))

/-- An exit starts the core and mesh clocks of the halves that the pending work needs; the other half's CORE_CLK stays gated
(R41; log 72). -/
def startHalves (s : State) : State :=
  let gate := fun h (v : Half) => { v with gated := !(queuedWork s || halfBusy s h) }
  { s with power := { s.power with north := gate 0 s.power.north, south := gate 1 s.power.south } }

end Sys2Proof.Machine
end

