-- ==== Sys2Proof/Machine/Joining.lean ====
section
/-!
DEFINITION. Training results, barriers, time, joining and the loss of a member (12 R383 to R397, 11 R367, R368).
-/

namespace Sys2Proof.Machine

/-! ### Loss (R394 to R396) -/

/-- The reply of JOIN_CONFIG (11 R367). -/
def joinBytes (s : State) : List Byte :=
  leBytes 1 s.join.st.code ++ zeros 3 ++ leBytes 4 (membersPresent s) ++ leBytes 4 s.join.systemId.toNat ++ leBytes 4 s.join.self

/-- The Leash message that names a lost member (the layout is the model's, log 29). -/
def lostMsg (s : State) (n j : Nat) : LeashMsg := leashMsg s n 3 0x08 ((memberAt s n).getD 0) 0 0 (leBytes 4 j)

/-- A barrier completes with a status; one of the joined self-test replies to nobody. -/
def barrierReply (s : State) (b : Barrier) (st : Status) (detail : Nat) (payload : List Byte) : State :=
  b.r.elim s (fun r => reply s r 0xA1 st detail payload)

/-- What a loss ends (R396): member-to-member MOVEs, barriers, and a SET that waits. -/
def endJoinedWork (s : State) : State :=
  let s := each (s.moves.filter (fun m => m.kind == 3)) s (fun s m => endMove s m .joinIncomplete 0x0350)
  let s := each s.join.barriers { s with join := { s.join with barriers := [] } } (fun s b => barrierReply s b .joinIncomplete 0x0350 [])
  match s.join.setReq with
  | some r => reply { s with join := { s.join with setReq := none, selfTest := false } } r 0xA0 .joinIncomplete 0x0350 (joinBytes s)
  | none => s

/-- What a port that led to a lost member still carries: bridge traffic alone; forwarded messages leave the buffers that hold them. -/
def dropTraffic (s : State) (n : Nat) : State :=
  let kept := fun (o : Outgoing) => o.msg.destMember == bridge
  let s := each ((port s n).waiting.filter (fun o => !kept o)) s (fun s o => o.origin.elim s (fun k => freeFlits s k o.msg.vl o.held))
  modPort s n (fun p => { p with
    st := if p.st == .active then .active else .lost, partnerJoined := false, carry := false, whistling := false
    waiting := p.waiting.filter kept, replay := if p.st == .active then p.replay else p.replay.filter (fun x => x.msg.destMember == bridge) })

/-- A member declares or learns of a loss (R395): once for each lost member. `from_` is the port the news came from; LOST leaves on
every other joined port. -/
def declareLost (s : State) (j unit : Nat) (from_ : Option Nat) : State :=
  if s.join.st = .single ∨ s.join.lost.contains j then s
  else
    let s := each ((joinedPorts s).filter (fun n => some n != from_)) s (fun s n => sendMsg s n (lostMsg s n j))
    let s := each ((joinedPorts s).filter (fun n => memberAt s n == some j))
      { s with join := { s.join with lost := s.join.lost ++ [j], lostFirst := some (s.join.lostFirst.getD j), st := .incomplete } } dropTraffic
    endJoinedWork (event s 0x0601 2 (unitLeash unit) 0 (leBytes 4 j))

/-- R395: LOST; one that names no member of the join is ignored (log 80). -/
def execLost (m : LeashMsg) (s : State) : Result :=
  .next (receiveMsg s 0x08 m (fun m s => if u32 m.data 0 < s.join.count then declareLost s (u32 m.data 0) m.port (some m.port) else s))

/-- R394: LOSS_TIMEOUT: a joined port left ACTIVE for a reason other than SLEEP and is not ACTIVE again. -/
def execLossTimeout (n : Nat) (s : State) : Result :=
  .next (match memberAt s n with
    | some j =>
      if n < 4 ∧ ((port s n).st = .training ∨ (port s n).st = .down) ∧ (port s n).sleepNotice = false then declareLost s j n none else s
    | none => s)

/-! ### Whistle (R386, R387) -/

/-- R387: WHISTLE_REPEAT. -/
def execWhistleRepeat (n : Nat) (s : State) : Result :=
  .next (if n < 4 ∧ serdesOn s ∧ (port s n).st = .asleep ∧ hasTraffic (port s n) = true ∧ regBit s (portReg n 0) 3 then
    { modPort s n (fun p => { p with whistling := true }) with out := .whistle n :: s.out } else s)

/-- R387: WHISTLE_TIMEOUT: the sleeping member is lost. -/
def execWhistleTimeout (n : Nat) (s : State) : Result :=
  .next (if n < 4 ∧ (port s n).st = .asleep ∧ (port s n).whistling then
    match memberAt s n with
    | some j => declareLost s j n none
    | none => modPort s n (fun p => { p with st := .lost, whistling := false })
    else s)

/-! ### CTRL flits (R378, R380, R398) -/

/-- R380: LEASH_CTRL_FLIT: credit, acknowledgement, NAK, and the notices SLEEP and LEAVE. -/
def execLeashCtrlFlit (n : Nat) (f : CtrlFlit) (s : State) : Result :=
  .next (if !linkActive s n then s
    else if !f.ok then bump s (portReg n 0x20) 1
    else if !f.reservedZero then bump s (portReg n 0x28) 1
    else
      let s := modPort s n (fun p =>
        let p := { p with freedByPartner := (List.range 4).map (fun v => f.freed.getD v 0 % 4096) }
        if f.ackValid then acknowledge p (f.ackSeq % 4096) else p)
      let s := if f.nak then nakReplay s n (f.nakSeq % 4096) else modPort s n (fun p => { p with naks := 0 })
      let s := if f.notice = 1 then firstWhistle (modPort s n (fun p => { p with st := .asleep, carry := false, sleepNotice := true })) n
        else if f.notice = 2 then
          match memberAt s n with
          | some j => declareLost s j n (some n)
          | none => s
        else s
      pump s n)

/-! ### Training (R383 to R385, R390, R397) -/

/-- The lane groups of a width code, lowest first, as lane masks (R384). -/
def laneGroups (width : Nat) : List Nat :=
  match width with
  | 3 => [0xFF]
  | 2 => [0x0F, 0xF0]
  | 1 => [0x03, 0x0C, 0x30, 0xC0]
  | _ => [0x01, 0x02, 0x04, 0x08, 0x10, 0x20, 0x40, 0x80]

/-- The width and group that a port trains at: the largest width up to WIDTH_MAX with a whole group, the lowest such group. -/
def chooseWidth (lanes widthMax : Nat) : Option (Nat × Nat) :=
  [3, 2, 1, 0].findSome? (fun w =>
    if w ≤ widthMax then ((laneGroups w).find? (fun g => lanes &&& g == g)).map (fun g => (w, g)) else none)

/-- The other end's parameters agree with this member's configuration and wiring (R385, R390). -/
def partnerAgrees (s : State) (n : Nat) (q : LinkParams) : Bool :=
  s.join.st != .single && q.systemId == s.join.systemId && q.topology == s.join.topology &&
  !s.join.lost.contains q.selfIndex &&
  (match s.join.topology with
    | 1 => decide (n < 3) && q.port == n && q.selfIndex == Nat.xor s.join.self 1
    | 2 => decide (n < 3) && q.port == n && q.selfIndex == Nat.xor s.join.self (n + 1)
    | 3 => decide (n < 3) && q.port == n && q.selfIndex == Nat.xor s.join.self (2 ^ n)
    | 4 => true
    | _ => false)

/-- The ports that must be joined (R390). -/
def requiredPorts (s : State) : List Nat :=
  match s.join.topology with
  | 1 => [0]
  | 2 => [0, 1, 2]
  | 3 => [0, 1, 2]
  | _ => []

/-- The port has passed R385. -/
def portPassed (s : State) (n : Nat) : Bool := (port s n).partnerJoined && (port s n).st == .active

/-- Every member's port of this module has passed R385; a join of one member has none. -/
def joinReady (s : State) : Bool :=
  s.join.topology == 0 || ((requiredPorts s).all (portPassed s) && (List.range 4).any (portPassed s))

/-- Members that this module does not find: one for each required port that has not passed; all others where no port has
(log 67). -/
def membersMissing (s : State) : Nat :=
  if (List.range 4).any (portPassed s) then (requiredPorts s).countP (fun n => !portPassed s n)
  else s.join.count - 1

/-! ### Barriers (R388, R389) -/

/-- Rounds of a barrier: n for a scope of 2^n members, ceil(log2 M) for all of M. -/
def roundsOf (s : State) (scope : Nat) : Nat :=
  if scope = 0 then ((List.range 19).find? (fun n => s.join.count ≤ 2 ^ n)).getD 18 else scope

/-- The member that a round sends to (R389). -/
def roundPartner (s : State) (scope r : Nat) : Nat :=
  if scope = 0 ∧ 2 ^ roundsOf s 0 ≠ s.join.count then (s.join.self + 2 ^ r) % s.join.count else Nat.xor s.join.self (2 ^ r)

/-- The arrival notice of a round: TAG carries BARRIER_ID, the data SCOPE and the round (log 29). -/
def sendRound (s : State) (b : Barrier) : State :=
  let dest := roundPartner s b.scope b.round
  sendTo s dest (leashMsg s 0 3 0x06 dest b.id.toNat 0 (leBytes 4 b.scope ++ leBytes 1 b.round))

def setBarrier (s : State) (b : Barrier) : State :=
  { s with join := { s.join with barriers := s.join.barriers.map (fun x => if x.id == b.id then b else x) } }

/-- Completes every round whose arrival has been seen, sending the next; the last releases the barrier with the 802.1AS time
of the release (R389). -/
def advance : Nat → State → Barrier → State
  | 0, s, _ => s
  | k + 1, s, b =>
    if roundsOf s b.scope ≤ b.round then
      let s := { s with join := { s.join with barriers := s.join.barriers.filter (fun x => x.id != b.id) } }
      barrierReply s b .ok 0 (leBytes 8 (trailTime s).1 ++ zeros 8)
    else if b.seen.contains b.round then
      let b := { b with round := b.round + 1 }
      let s := setBarrier s b
      advance k (if b.round < roundsOf s b.scope then sendRound s b else s) b
    else s

/-- The member that a round waits for (R389). -/
def roundSource (s : State) (scope r : Nat) : Nat :=
  if scope = 0 ∧ 2 ^ roundsOf s 0 ≠ s.join.count then (s.join.self + s.join.count - 2 ^ r % s.join.count) % s.join.count
  else Nat.xor s.join.self (2 ^ r)

/-- An arrival notice belongs to a barrier: its ID and SCOPE, and the sender of its round (R389). -/
def noticeFor (s : State) (id : Word) (scope : Nat) (m : LeashMsg) : Bool :=
  m.tag == id && u32 m.data 0 == scope && m.srcMember == roundSource s scope (u8 m.data 4)

/-- Rounds whose arrival notices are held for a barrier (R389). -/
def heldRounds (s : State) (id : Word) (scope : Nat) : List Nat :=
  s.ports.flatMap (fun e => (e.2.barrierMsgs.filter (noticeFor s id scope)).map (fun m => u8 m.data 4))

/-- A member enters a barrier: arrival notices held for its ID count, and its first round is sent. -/
def enterBarrier (s : State) (id : Word) (scope : Nat) (r : Option Req) : State :=
  let b : Barrier := ⟨id, scope, r, 0, heldRounds s id scope⟩
  let s := { s with
    join := { s.join with barriers := s.join.barriers ++ [b] }
    ports := s.ports.map (fun e => (e.1, { e.2 with barrierMsgs := e.2.barrierMsgs.filter (fun m => m.tag != id) })) }
  advance 20 (if 0 < roundsOf s scope then sendRound s b else s) b

/-- R389: BARRIER. -/
def execBarrier (r : Req) (p : List Byte) (s : State) : Result :=
  serve s r 0xA1 none none (fun s =>
    let id := w32 p 0
    let scope := u32 p 4
    let mine := s.join.barriers.any (fun b => b.id == id)
    let cs := [(p.length != 16, badLength), (!allZero (slice p 12 4), badReserved),
      (decide (18 < scope) || mine, badRange),
      (!joined s, Status.notReady, 0x0380),
      (decide (s.join.count < 2 ^ min scope 19), badRange),
      (s.join.st == .incomplete, .joinIncomplete, 0x0350)]
    checked s r 0xA1 cs (fun s =>
      if 16 ≤ s.join.barriers.length then replyBusy s r 0xA1 0x0382 0xFFFFFFFF
      else enterBarrier (hold s r 0xA1 none none) id scope (some r)))

/-- R389: BARRIER_MESSAGE: completes a round, or is held, up to 64 on a port. -/
def execBarrierMessage (m : LeashMsg) (s : State) : Result :=
  .next (receiveMsg s 0x06 m (fun m s =>
    match s.join.barriers.find? (fun b => b.id == m.tag) with
    | some b =>
      if noticeFor s b.id b.scope m then
        let b := { b with seen := b.seen ++ [u8 m.data 4] }
        advance 20 (setBarrier s b) b
      else s
    | none =>
      if (port s m.port).barrierMsgs.length < 64 then
        modPort s m.port (fun p => { p with barrierMsgs := p.barrierMsgs ++ [m] })
      else s))

/-! ### The joined self-test (R393) -/

/-- Barriers of the joined self-test, and the IDs that they use (log 80). -/
def selfBarriers : Nat := 16
def selfBarrierId (k : Nat) : Word := BitVec.ofNat 32 (0xFFFFFFF0 + k)

/-- The joined self-test starts: 1 MiB of SELFTEST traffic on every member link, and 16 barriers of SCOPE 0 (R393). -/
def startSelfTest (s : State) : State :=
  if s.join.st = .joining ∧ s.join.selfTest = false ∧ joinReady s then
    let s := { s with join := { s.join with selfTest := true, selfBytes := 0 } }
    let s := each (joinedPorts s) s (fun s n => each (List.range 256) s (fun s _ =>
      sendMsg s n (leashMsg s n 0 0x09 ((memberAt s n).getD 0) 0 0 (zeros 4096))))
    each (List.range selfBarriers) s (fun s k => enterBarrier s (selfBarrierId k) 0 none)
  else s

/-- What the joined self-test asks for has come: every barrier is released, and 1 MiB from each member link. -/
def selfTestDone (s : State) : Bool :=
  !s.join.barriers.any (fun b => b.r.isNone) && s.join.selfBytes == (joinedPorts s).length * 2 ^ 20

/-! ### Ports that have trained -/

/-- A port's message is still wanted: not a piece of a MOVE of this member that is over (R396). -/
def stillWanted (s : State) (o : Outgoing) : Bool :=
  !((o.msg.kind == 0x01 || o.msg.kind == 0x03) && o.msg.srcMember == s.join.self) || s.moves.any (fun m => ownPiece (m.tags.map (·.1)) o)

/-- What a port sends from the start after a training that was no retrain: messages not acknowledged whole, then the others. -/
def restartMessages (s : State) (p : Port) : List Outgoing :=
  let begun := (p.replay.map (·.msg)).eraseDups.filter (fun m => !p.waiting.any (fun o => o.next != 0 && o.msg == m))
  (begun.map (fun m => Outgoing.mk m 0 none 0) ++ p.waiting.map (fun o => ({ o with next := 0 } : Outgoing))).filter (fun o => o.origin.isSome || stillWanted s o)

/-- A port becomes ACTIVE (R383 step 5): unless it retrains, SEQ and the counters are 0, and what was not acknowledged waits again. -/
def becomeActive (s : State) (p : Port) : Port :=
  if p.carry then { p with st := .active, everActive := true }
  else { p with
    st := .active, everActive := true, carry := true, txSeq := 0, rxSeq := 0, lastAck := 0, waiting := restartMessages s p
    replay := [], sentFlits := [0, 0, 0, 0], freedByPartner := [0, 0, 0, 0], freed := [0, 0, 0, 0], accepted := false
    nakSent := false, sinceCtrl := 0, partials := [], partial? := none }

/-- R383: LEASH_TRAINING_DONE. -/
def execLeashTrainingDone (n : Nat) (lanes : BitVec 8) (partner : Option LinkParams) (words : List LaneWord) (s : State) : Result :=
  .next (if n < 4 ∧ serdesOn s ∧ (port s n).st ≠ .active ∧ regBit s (portReg n 0) 0 then
    let s := if (port s n).st = .training then s else startTraining s n
    match chooseWidth lanes.toNat (regField s (portReg n 0) 1 2) with
    | none => s
    | some (w, g) =>
      let agrees := match partner with
        | some q => partnerAgrees s n q
        | none => false
      let s := modPort s n (fun p => { becomeActive s p with
        width := w, lanes := BitVec.ofNat 8 g, partner := partner, partnerJoined := agrees, laneWords := words, whistling := false
        sleepNotice := false })
      let s := { s with out := .training n ⟨s.join.systemId, s.join.self, s.join.topology, n⟩ :: s.out }
      startSelfTest (pump (sendAgain s n (port s n).replay) n)
    else s)

/-! ### Joining (R393, 11 R367, R368) -/

/-- TOPOLOGY, MEMBER_COUNT and SELF_INDEX agree (R390, R391). -/
def joinRange (s : State) (topology count self : Nat) : Bool :=
  decide (self < count) &&
  (match topology with
    | 0 => count == 1
    | 1 => count == 2 && self == s.power.joinId.toNat
    | 2 => count == 4 && self == s.power.joinId.toNat
    | 3 => count == 8 && self == s.power.joinId.toNat
    | 4 => decide (2 ≤ count ∧ count ≤ 262144)
    | _ => false)

/-- Runs, moves or barriers are in progress (11 R368), or a join is. -/
def joinBusy (s : State) : Bool :=
  s.ctxs.any (fun e => e.2.st == .running) || !s.moves.isEmpty || !s.join.barriers.isEmpty || s.join.setReq.isSome

/-- Ports whose other end takes part in the join exchange parameters again by training (R385, log 30). -/
def retrainMembers (s : State) : State :=
  each ((List.range 4).filter (fun n => (port s n).st == .active && (port s n).partner.isSome)) s startTraining

/-- What the ends of the ports have exchanged agrees with no join any more, or not yet with the new one (R385). -/
def unjoinPorts (s : State) : State := { s with ports := s.ports.map (fun e => (e.1, { e.2 with partnerJoined := false })) }

/-- The paths from receive port to transmit port that a glueless join forwards on: one slot for each ordered pair (R391). -/
def forwardPaths (topology : Nat) : List (Node × Node) :=
  if topology ∈ [1, 2, 3] then
    (List.range 4).flatMap (fun a => ((List.range 4).filter (· != a)).map (fun b => (nodeOf (.leash a), nodeOf (.leash b))))
  else []

/-- 11 R367: JOIN_CONFIG. -/
def execJoinConfig (r : Req) (p : List Byte) (s : State) : Result :=
  serve s r 0xA0 none none (fun s =>
    let action := u8 p 0
    let topology := u8 p 1
    let count := u32 p 8
    let self := u32 p 12
    checked s r 0xA0
      [(p.length != 16, badLength), (!allZero (slice p 2 2), badReserved),
       (decide (2 < action), badRange),
       (action != 1 && !allZero (p.drop 1), badReserved),
       (action == 1 && !joinRange s topology count self, badRange),
       (action != 0 && joinBusy s, .contextBusy, 0x0360)] (fun s =>
      if action = 0 then reply s r 0xA0 .ok 0 (joinBytes s)
      else if action = 2 then
        let s := each (joinedPorts s) s (fun s n => if (port s n).st == .active then sendCtrl s n false 2 else s)
        let s := unjoinPorts (dropSlots { s with join :=
          { nextTag := s.join.nextTag, lost := s.join.lost, lostFirst := s.join.lostFirst } } .join)
        reply s r 0xA0 .ok 0 (joinBytes s)
      else
        let s := { s with join :=
          { nextTag := s.join.nextTag, st := .joining, topology := topology, systemId := w32 p 4, count := count, self := self,
            setReq := some r } }
        startSelfTest (retrainMembers (giveSlots (unjoinPorts (hold s r 0xA0 none none)) .join (forwardPaths topology)))))

/-- SET replies and the join enters COMPLETE or INCOMPLETE (R393). -/
def endJoin (s : State) (ok : Bool) : State :=
  let r := s.join.setReq
  let s := { s with join := { s.join with st := if ok then .complete else .incomplete, setReq := none, selfTest := false } }
  match r with
  | some r => if ok then reply s r 0xA0 .ok 0 (joinBytes s) else reply s r 0xA0 .joinIncomplete 0x0350 (joinBytes s)
  | none => s

/-- R393: JOIN_WAIT_TIMEOUT: after 1 s the self-test runs, or a member is missing. -/
def execJoinWaitTimeout (s : State) : Result :=
  .next (if s.join.st = .joining ∧ s.join.selfTest = false then
    if joinReady s then startSelfTest s
    else endJoin { s with join := { s.join with missing := membersMissing s } } false
    else s)

/-- R393: JOIN_SELFTEST_DONE: the test passes when its traffic has come as it should and every barrier is released. -/
def execJoinSelftestDone (passed : Bool) (s : State) : Result :=
  .next (if s.join.st = .joining ∧ s.join.selfTest then
      let ok := passed && selfTestDone s
      endJoin { s with join := { s.join with barriers := s.join.barriers.filter (fun b => b.r.isSome) } } ok
    else s)

/-- R393: SELFTEST traffic of a member during the joined self-test. -/
def execSelftest (m : LeashMsg) (s : State) : Result :=
  .next (receiveMsg s 0x09 m (fun m s =>
    { s with join := { s.join with selfBytes := s.join.selfBytes + m.data.length } }))

/-- 18 R525: JOIN_ID_CHANGE. -/
def execJoinIdChange (level : BitVec 3) (s : State) : Result :=
  .next { s with power := { s.power with joinId := level } }

/-! ### Barriers that end (11 R368) -/

/-- 11 R368: BARRIER_TIMEOUT. -/
def execBarrierTimeout (id : Word) (s : State) : Result :=
  .next (match s.join.barriers.find? (fun b => b.id == id) with
    | some b => barrierReply { s with join := { s.join with barriers := s.join.barriers.filter (fun x => x.id != id) } } b
        .joinIncomplete 0x0381 []
    | none => s)

/-! ### Time (R389) -/

/-- A control Ethernet port has a grandmaster: its 802.1AS port is a slave (18 R536). -/
def hasGrandmaster (s : State) : Bool := s.eth.any (fun e => e.2.link && e.2.gptp == 1)

/-- R389: TIME: the delay of the link is measured, and a member without a grandmaster follows the time of member 0, which a member
nearer to it passes on in its own TIME. The manual does not say how the delay is found (log 81). -/
def execTime (m : LeashMsg) (s : State) : Result :=
  .next (receiveMsg s 0x07 m (fun m s =>
    let t := u64 m.data 0
    let delay := if hasGrandmaster s then (trailTime s).1 - t else Config.linkDelay m.port
    let s := { s with join := { s.join with linkDelay := put s.join.linkDelay m.port delay } }
    if !hasGrandmaster s && s.join.self != 0 && (m.srcMember == 0 || (routesTo s 0).contains m.port) then
      { s with gptp := some (t + delay, s.rtc) }
    else s))

/-- R389: TIME_SEND: every 1 ms the member's 802.1AS time on every joined port. -/
def execTimeSend (s : State) : Result :=
  .next (each ((joinedPorts s).filter (fun n => (port s n).st == .active && serdesOn s)) s (fun s n =>
    sendMsg s n (leashMsg s n 3 0x07 ((memberAt s n).getD 0) 0 0 (leBytes 8 (trailTime s).1))))

end Sys2Proof.Machine
end

