-- ==== Sys2Proof/Machine/Sleep.lean ====
section
/-!
DEFINITION. Power states: entry, wake sources, exit (11 R362, R363, 15 R456 to R464, R542).
-/

namespace Sys2Proof.Machine

/-! ### Entering -/

/-- Work that keeps the module from entering a sleep state or a warm reset by command (11 R363, R370). -/
def workInProgress (s : State) : Bool :=
  s.ctxs.any (fun e => e.2.st == .running) || !s.progs.isEmpty || !s.drains.isEmpty || !s.moves.isEmpty || !s.fills.isEmpty ||
  !s.loads.isEmpty

/-- An armed level source that R462 samples is present: WAKE_N, the RTC alarm or the thermal source. -/
def wakeActive (s : State) : Bool := s.power.wakeN || alarmPresent s || thermalPresent s

/-- The state of a code of POWER_SET (R362). -/
def stateOfCode (n : Nat) : PState :=
  match n with
  | 1 => .doze
  | 2 => .nap
  | 3 => .den
  | _ => .run

/-- NOTICE SLEEP on every ACTIVE port; the transmit lanes then float, and a port that trained stops (12 R387). -/
def leashSleep (s : State) : State :=
  let s := each ((List.range 4).filter (linkActive s)) s (fun s n =>
    modPort (sendCtrl s n false 1) n (fun p => { p with st := .down, lanes := 0, carry := false, sleepNotice := true }))
  each ((List.range 4).filter (fun n => (port s n).st == .training)) s (fun s n => modPort s n (fun p => { p with st := .down }))

/-- Entry begins (R458): level sources present are marked (R478). -/
def beginEntry (s : State) (r : Req) (target : PState) (retain : DWord) : State :=
  let s := hold s r 0x80 none none
  let s := { s with power := { s.power with entering := some ⟨target, r, none⟩, retain := retain, edgeLost := false } }
  let s := if target = .doze then s else leashSleep s
  markWake s (levelSources s)

/-- 15 R458, R542: POWER_SET. A POWER_SET to Run in Doze, or any in Nap or Den, first wakes the module (R457). -/
def execPowerSet (r : Req) (p : List Byte) (s : State) : Result :=
  serveEarly s r 0x80 false (dozeServes s 0x80 p) (fun s =>
    let state := u8 p 0
    let target := stateOfCode state
    checked s r 0x80
      [(p.length != 16, badLength), (!allZero (slice p 1 7), badReserved),
       (decide (3 < state) || (decide (state < 2) && u64 p 8 != 0), badRange)] (fun s =>
      if target = s.power.st then reply s r 0x80 .ok
      else if target = .run then reply s r 0x80 .ok
      else checked s r 0x80 [(workInProgress s, .contextBusy, 0x0360), (wakeActive s, .wakeSourceActive, 0x0361)]
        (fun s => beginEntry s r target (w64 p 8))))

/-- Every seat is released before entry (R460): a context on-core is written back. -/
def releaseSeats (s : State) : State :=
  each s.ctxs s (fun s e => if e.2.seat.isSome then unseat s e.1 e.2 e.2.st else s)

/-- A range of a scratchpad lies wholly in retained banks (13 R405, 15 R460). -/
def rangeRetained (s : State) (a n : Nat) : Bool :=
  decide (0 < n) && (List.range 64).all (fun k => !overlap a n (k * 0xA0000) 0xA0000 || s.power.retain.getLsbD k)

/-- The model shares that a core keeps through Den: those held wholly in retained banks, named by their digests (R460). -/
def keepShares (s : State) (c : Core) : List KeptShare :=
  c.kept ++ c.shares.filterMap (fun h =>
    if rangeRetained s h.addr h.size then (lookup s.models h.model).map (fun m => ⟨m.digest, h.block, h.addr, h.size⟩) else none)

/-- What a sleep state loses on entry: Den empties the tables and loses HBM (08 R254, 15 R456). -/
def loseOnEntry (s : State) (target : PState) : State :=
  if target = .den then
    { s with
      hbm := [], marks := [], models := [], ctxs := []
      slots := []
      cores := s.cores.map (fun e => (e.1, { e.2 with shares := [], kept := keepShares s e.2, schedules := [] }))
      writeBacks := s.writeBacks.filter (fun e => match e.1 with
        | .hbm _ => false
        | _ => true) }
  else s

/-- 15 R458, R459: SLEEP_ENTRY_COMPLETE: the state is entered, the reply leaves, and a source that is present starts the exit
at once (R463). -/
def execSleepEntryComplete (s : State) : Result :=
  .next (match s.power.entering with
    | none => s
    | some e =>
      let s := loseOnEntry (releaseSeats s) e.target
      let s := { s with power := { s.power with st := e.target, entering := none } }
      let s := event s 0x0901 0 unitHandler 0 (leBytes 1 e.target.code ++ leBytes 8 s.power.retain.toNat)
      let s := reply s e.r 0x80 .ok
      match levelSources s ++ e.edge.toList with
      | [] => s
      | c :: rest => markWake (beginExit s (rest.foldl min c)) (levelSources s))

/-! ### Wake sources (R461, R462) -/

/-- 15 R461: WAKE_N_ASSERT, after the filter. -/
def execWakeNAssert (s : State) : Result :=
  .next (match s.power.phase with
    | .off => s
    | .reset => s
    | _ => wakeSource { s with power := { s.power with wakeN := true } } 4 false)

/-- 15 R462: WAKE_N_DEASSERT. -/
def execWakeNDeassert (s : State) : Result := .next { s with power := { s.power with wakeN := false } }

/-- 15 R461: RTC_ALARM: the count is at or above an armed ALARM. -/
def execRtcAlarm (s : State) : Result := .next (if alarmPresent s then wakeSource s 5 false else s)

/-- 15 R461: THERMAL_WAKE: a junction sensor converts, and is at or above THERM_WAKE. -/
def execThermalWake (n : Nat) (temp : Int) (s : State) : Result :=
  .next (if n < 24 then
    let s := setSensor s n temp
    if thermalPresent s then wakeSource s 6 false else s
    else s)

/-- 15 R461: LEASH_ACTIVITY: signal on a receive lane wakes a sleeping module; a port that is not ACTIVE finds its partner training, and
begins too (12 R383 step 1, R397). -/
def execLeashActivity (n lane : Nat) (inWindow : Bool) (s : State) : Result :=
  .next (if n < 4 ∧ lane < 8 then
      let t := wakeSource s 3 inWindow
      if serdesOn s && s.power.phase != .starting && (port s n).st != .active && (port s n).st != .training && regBit s (portReg n 0) 0 then
        startTraining t n
      else t
    else s)

/-- 11 R362: WAKE_ARM. -/
def execWakeArm (r : Req) (p : List Byte) (s : State) : Result :=
  serveEarly s r 0x81 true true (fun s =>
    let alarm := u64 p 0
    let therm := u8 p 8
    checked s r 0x81
      [(p.length != 16, badLength), (!allZero (slice p 9 7), badReserved),
       ((alarm != 0 && decide (alarm ≤ s.rtc)) || decide (105 < therm), badRange)] (fun s =>
      let s := { s with power := { s.power with alarm := w64 p 0, thermWake := therm } }
      reply s r 0x81 .ok 0 (leBytes 8 s.rtc)))

/-! ### Leaving (R413, R464) -/

/-- A scratchpad address lies in a retained bank (13 R405). -/
def retained (s : State) (a : Nat) : Bool := s.power.retain.getLsbD (a / 0xA0000)

/-- After Nap or Den: banks that were not retained are sealed, and the shares they held are no longer resident (13 R413). -/
def sealUnretained (s : State) : State :=
  { s with
    cores := s.cores.map (fun e => (e.1, { e.2 with
      shares := e.2.shares.filter (fun h => rangeRetained s h.addr h.size)
      kept := e.2.kept.filter (fun k => rangeRetained s k.addr k.size) }))
    spad := s.spad.filter (fun c => retained s (c.1 % 2 ^ 26))
    spadMarks := s.spadMarks.filter (fun e => retained s (e.1 % 2 ^ 26))
    otherMarks := s.otherMarks.filter (fun e => decide (18 ≤ e.1 / 2 ^ 29))
    writeBacks := s.writeBacks.filter (fun e => match e.1 with
      | .spad _ => retained s e.2
      | .hbm _ => true
      | .other _ _ => false) }

/-- The checkers that are tested before memories are sealed (13 R421): a failure is a detected fault of its core, counted there, or
loses an HBM controller (14 R431, R446). Exit from Doze seals nothing and from Nap no HBM. -/
def checkersFailed (s : State) (left : PState) (cores hbms : List Nat) : State :=
  let s := if left = .doze then s
    else each ((List.range 18).filter (fun p => cores.contains p && decide (mapByte s.map p < 16))) s
      (fun s p => checkThreshold (countFault s [p] 1) p)
  match if left = .den then (List.range 8).find? hbms.contains else none with
  | none => s
  | some n => fatalError s 0x0005 (unitHbm n)

/-- 15 R464: SLEEP_EXIT_COMPLETE: the module is in Run; the exit from Den has sealed and trained HBM and the Trail's spill
region is lost (14 R445). -/
def execSleepExitComplete (s : State) (cores hbms : List Nat := []) : Result :=
  .next (if !s.power.exiting then s
    else
      let left := s.power.st
      let lost := s.power.edgeLost
      let s := if left = .doze then s else sealUnretained s
      let s := if left = .den then
          { s with
            trail := { s.trail with spilled := s.trail.head - s.trail.unspilled, spillFirst := s.trail.head - s.trail.unspilled + 1 }
            faults := { s.faults with dump := { s.faults.dump with valid := false, kept := false } }
            regs := (List.range 8).foldl (fun m n =>
              put m (retrainKey n) (BitVec.ofNat 32 ((indStored s (retrainKey n) + 1) % 2 ^ 16))) s.regs }
        else s
      let s := if lost then orReg s 0x1004 0x40 else s
      let s := startHalves { s with power := { s.power with st := .run, exiting := false, edgeLost := false } }
      let s := event s 0x0902 0 unitHandler 0 (leBytes 1 left.code ++ leBytes 1 s.power.wake ++ leBytes 1 (ofBool lost))
      checkersFailed s left cores hbms)

end Sys2Proof.Machine
end

