-- ==== Sys2Proof/Machine/Thermal.lean ====
section
/-!
DEFINITION. Clocks, throttle steps and temperatures (15 R465 to R467).
-/

namespace Sys2Proof.Machine

/-- The half a junction sensor lies in (18 R532). -/
def halfOfSensor (n : Nat) : Nat := if n < 12 then 0 else 1

/-- THROTTLE_TEMP, HYST and ALERT_TEMP in sixteenths of a degree (R478). -/
def throttleTemp (s : State) : Int := 16 * (regField s 0x1014 0 8 : Nat)
def hystTemp (s : State) : Int := 16 * (max 1 (regField s 0x1014 8 4) : Nat)
def alertTempOf (s : State) : Int := 16 * (min 105 (regField s 0x1014 16 8) : Nat)

/-- The thermal detectors run while the module is powered. -/
def thermalOn (s : State) : Bool := s.power.phase == .running || s.power.phase == .booted || s.power.phase == .starting

/-- 15 R466: RELOCK_DONE: the clocks of every half in a relock run at the step being entered; spanning
work then in flight crosses an asynchronous seam while the halves differ (09 R291). -/
def execRelockDone (s : State) : Result :=
  let done := fun (h : Half) => { h with step := namedStep h, relock := none }
  let t := { s with power := { s.power with north := done s.power.north, south := done s.power.south } }
  .next (if s.power.north.relock.isSome ∨ s.power.south.relock.isSome then
    seamEvent t else s)

/-- 15 R467: THROTTLE_TEMP_REACHED: the hottest sensor of a half reaches the threshold; the thermal step rises by 1. -/
def execThrottleTempReached (n : Nat) (temp : Int) (s : State) : Result :=
  .next (if n < 24 ∧ thermalOn s then
    let was := decide (throttleTemp s ≤ hottest s (12 * halfOfSensor n) 12)
    let s := setSensor s n temp
    if !was && decide (throttleTemp s ≤ reading s n temp) then
      let h := half s (halfOfSensor n)
      retarget (setHalf s (halfOfSensor n) { h with thermal := min 5 (h.thermal + 1) })
    else s
    else s)

/-- 15 R467: THROTTLE_STEP_TIMER: 1 ms more at or above the threshold, or 10 ms below it less HYST. -/
def execThrottleStepTimer (h : Nat) (s : State) : Result :=
  .next (if h < 2 ∧ thermalOn s then
    let t := hottest s (12 * h) 12
    let v := half s h
    if throttleTemp s ≤ t then retarget (setHalf s h { v with thermal := min 5 (v.thermal + 1) })
    else if t < throttleTemp s - hystTemp s then retarget (setHalf s h { v with thermal := v.thermal - 1 })
    else s
    else s)

/-- 15 R467: ALERT_TEMP: a sensor at or above ALERT_TEMP sets its half to step 5 and asserts ALERT_N. -/
def execAlertTemp (n : Nat) (temp : Int) (s : State) : Result :=
  .next (if n < 24 ∧ thermalOn s then
    let was := alertN s
    let s := setSensor s n temp
    if alertTempOf s ≤ reading s n temp ∧ s.power.alertTemps.contains n = false then
      let s := { s with power := { s.power with alertTemps := insertBy id n s.power.alertTemps } }
      let s := event s 0x0906 2 unitHandler 0 [BitVec.ofNat 8 (halfOfSensor n), BitVec.ofNat 8 (degrees (reading s n temp))]
      let s := retarget s
      if was then s else inBand s 2
    else s
    else s)

/-- 15 R467: ALERT_TEMP_RELEASE: the sensor has fallen below ALERT_TEMP less HYST. -/
def execAlertTempRelease (n : Nat) (temp : Int) (s : State) : Result :=
  .next (if n < 24 ∧ thermalOn s then
    let s := setSensor s n temp
    if reading s n temp < alertTempOf s - hystTemp s then
      retarget { s with power := { s.power with alertTemps := s.power.alertTemps.filter (· != n) } }
    else s
    else s)

/-- 15 R465: CORE_CLK_GATE: in Run a half without work has its CORE_CLK gated; it reopens with the next work. -/
def execCoreClkGate (h : Nat) (s : State) : Result :=
  .next (if h < 2 ∧ s.power.st = .run ∧ s.power.phase = .running ∧ halfBusy s h = false then
    setHalf s h { half s h with gated := true } else s)

end Sys2Proof.Machine
end

