-- ==== Sys2Proof/Machine/Sweeping.lean ====
section
/-!
DEFINITION. The sweep: how work on a colour begins, field vectors, samples, speculation, validation, commits, remote commits
(03 R84 to R112, 04 R132, R145, 06 R184 to R186, 07 R222, R223). Each row is one micro-step of one core.
-/

namespace Sys2Proof.Machine

/-- Cores work: Run, after START_DONE, no fatal error, no power sequence. -/
def engineOn (s : State) : Bool :=
  s.faults.fatal.isNone && s.power.phase == .running && s.power.st == .run && s.power.entering.isNone && !s.power.exiting

/-! ### The shape of a run (R144, R145) -/

/-- Q. -/
def subsetCount (m : Model) (p : List Byte) : Nat := (m.blocks.length + pSubset p - 1) / pSubset p

/-- Sweeps per subset turn: 1 without rotation. -/
def turnSweeps (m : Model) (p : List Byte) : Nat := if 1 < subsetCount m p then pRotSweeps p else 1

/-- Blocks of subset q. -/
def subsetBlocks (m : Model) (p : List Byte) (q : Nat) : List Nat :=
  span (q * pSubset p) (min (pSubset p) (m.blocks.length - q * pSubset p))

/-- Latent variables of a block with a colour. -/
def colourVars (m : Model) (b k : Nat) : List Nat := (blockLatents m b).filter (fun i => colourOf m i == k)

/-- The next colour from `k` upward in which a block has latent variables; the colour count when there is none. -/
def nextColour (m : Model) (b k : Nat) : Nat :=
  ((List.range m.colours).find? (fun c => decide (k ≤ c) && !(colourVars m b c).isEmpty)).getD m.colours

/-- Two variables share a pair or stand in opposite groups of a dense factor. -/
def adjacent (m : Model) (i j : Nat) : Bool :=
  m.pairs.any (fun p => (p.i == i && p.j == j) || (p.i == j && p.j == i)) ||
  m.dense.any (fun d => (inRange d.aFirst d.aCount i && inRange d.bFirst d.bCount j) ||
    (inRange d.aFirst d.aCount j && inRange d.bFirst d.bCount i))

/-- Fields of colour k of block b depend on a variable of colour c of block b'. -/
def dependsOn (m : Model) (b k b' c : Nat) : Bool :=
  (colourVars m b k).any (fun i => (colourVars m b' c).any (adjacent m i))

/-! ### Beginning a sweep -/

/-- The committed plane of every replica, from the working content. -/
def planeOf (m : Model) (d : CtxData) : List (List Nat) := (List.range d.latent.length).map (valuesOf m d)

/-- The shares of a subset's blocks on the cores of the run. -/
def newShares (m : Model) (cores blocks : List Nat) (d : CtxData) : List Share :=
  blocks.map (fun b => { block := b, core := cores.getD b 0, colour := nextColour m b 0, plane := planeOf m d, base := none,
                         pend := [], spec := [], vecs := [], unwalked := [], arrived := [], barred := none })

/-- A sweep of subset q, turn t; `sat` counts the round so far. -/
def newSweep (s : State) (m : Model) (place q t : Nat) (d : CtxData) (replayed : Bool) (sat : Nat) : Sweep :=
  { subset := q, turn := t, work := d,
    shares := newShares m (runCores s m place (pSubset d.params)) (subsetBlocks m d.params q) d,
    keys := [], remote := [], replayed := replayed, drawn := [], sat := sat, issued := false, passes := [] }

/-- Another context of the placement is in the middle of a sweep. -/
def placementBusy (s : State) (i : Nat) (c : Ctx) (place : Nat) : Bool :=
  s.ctxs.any (fun e => e.1 != i && e.2.model == c.model &&
    e.2.seat.any (fun t => t.placement == place && t.sweep.isSome))

/-- One of the logical cores is in its fence sequence and stopped, or the core that is stopped holds a schedule of the owner, whose
work then waits whole (14 R432, R435). -/
def fenceDue (s : State) (o : Owner) (cores : List Nat) : Bool :=
  (s.faults.due.head?).any (fun d =>
    cores.any (fun l => physOf s l == some d.1) || (coreState s d.1).schedules.any (fun e => e.1 == o))

/-- The sweep that a micro-step of a context belongs to: the one in progress, or a new one that may begin: the context is
seated with sweeps left, its generators are seeded, its run has not ended, its placement's cores are free and unfenced. -/
def sweepOf (s : State) (i : Nat) (c : Ctx) : Option (Seat × Sweep) :=
  match c.seat, c.run with
  | some seat, some v =>
    let m := ctxModel s c
    let cores := runCores s m seat.placement (pSubset seat.data.params)
    if !engineOn s || fenceDue s (.model c.model) cores then none
    else match seat.sweep with
    | some w => some (seat, w)
    | none =>
      if v.seeded && v.stop.isNone && decide (0 < seat.left) && !placementBusy s i c seat.placement then
        some (seat, newSweep s m seat.placement 0 0 seat.data false 0)
      else none
  | _, _ => none

/-- Puts a sweep back. Work that begins in both halves while they differ in frequency is recorded (09 R291, R293). -/
def putSweep (s : State) (i : Nat) (seat : Seat) (w : Sweep) : State :=
  let t := modCtx s i (fun c => { c with seat := some { seat with sweep := some w } })
  if seat.sweep.isNone then seamEvent t else t

/-- A micro-step of a context. -/
def sweepStep (s : State) (i : Nat) (f : Ctx → Model → Seat → Sweep → State) : Result :=
  .next (match lookup s.ctxs i with
    | none => s
    | some c =>
      match sweepOf s i c with
      | none => s
      | some (seat, w) => f c (ctxModel s c) seat w)

/-- A micro-step of one core's share. -/
def shareStep (s : State) (core i : Nat) (f : Ctx → Model → Seat → Sweep → Share → State) : Result :=
  sweepStep s i (fun c m seat w =>
    match w.shares.find? (fun h => h.core == core) with
    | none => s
    | some h => f c m seat w h)

def setShare (w : Sweep) (h : Share) : Sweep := { w with shares := w.shares.map (fun x => if x.block = h.block then h else x) }

/-! ### Commits that have arrived (R36, R100, R103) -/

/-- Every commit of colour c of another block of the subset on which colour k of the share depends has arrived. -/
def remoteDone (m : Model) (w : Sweep) (h : Share) (k c : Nat) : Bool :=
  w.shares.all (fun o => o.block == h.block || !dependsOn m h.block k o.block c || h.arrived.contains (o.block, c))

def remoteDoneBelow (m : Model) (w : Sweep) (h : Share) (k top : Nat) : Bool := (List.range top).all (remoteDone m w h k)

/-- The share's own colours up to c have committed. -/
def ownDone (h : Share) (c : Nat) : Bool := decide (c < h.colour)

def slotsOf (m : Model) (b k replicas : Nat) : List (Nat × Nat) :=
  (colourVars m b k).flatMap (fun i => (List.range replicas).map (fun r => (i, r)))

def vecAt (h : Share) (i r : Nat) : Option Vec := h.vecs.find? (fun v => v.var == i && v.rep == r)

/-- Every field vector of a colour is complete. -/
def allIssued (m : Model) (h : Share) (k replicas : Nat) : Bool := (slotsOf m h.block k replicas).all (fun q => (vecAt h q.1 q.2).isSome)

/-- How the work of a colour stands at its first issue (R103): it may not begin, begins on committed values, or begins
speculatively. -/
inductive Start
  | wait | plain | speculative
deriving DecidableEq, Repr, Inhabited

/-- R103: the start of colour k on a core; `specEn` is SPEC_EN. -/
def startOf (m : Model) (w : Sweep) (h : Share) (replicas k : Nat) (specEn : Bool) : Start :=
  if k = 0 then .plain
  else
    let c := k - 1
    let below := (c == 0 || ownDone h (c - 1)) && remoteDoneBelow m w h k c
    let own := ownDone h c
    let far := remoteDone m w h k c
    if !below then .wait
    else if own && far then .plain
    else if !specEn || !(own || allIssued m h c replicas) then .wait
    else if (own || !dependsOn m h.block k h.block c) && far then .plain
    else if h.base.isNone && h.barred != some k then .speculative else .wait

/-! ### Field vectors (R84, R98, R184 to R186) -/

/-- The values that a field vector of a core reads in a replica. -/
def planeFor (h : Share) (spec : Bool) (r : Nat) : List Nat := (if spec then h.base.getD h.plane else h.plane).getD r []

/-- The physical core's accumulation counters (R216). -/
def countVector (s : State) (core replays saturated : Nat) : State :=
  match physOf s core with
  | none => s
  | some p => bump (bump s (coreReg p 0x310) replays) (coreReg p 0x314) saturated

/-- The replays and saturated elements of a tile of a dense pass, once in a sweep, on the core of the block that holds A_FIRST,
where both passes run (R184, R185, R217, 08 R541). -/
def countPass (m : Model) (cores : List Nat) (acc : State × Sweep) (e : DensePass × PassTile) : State × Sweep :=
  if acc.2.passes.contains e.1 then acc
  else (countVector acc.1 (cores.getD (blockOf m (m.dense.getD e.1.factor default).aFirst) 0) e.2.replays e.2.saturated,
    { acc.2 with passes := e.1 :: acc.2.passes })

/-- The tiles behind the field vector of a variable in a replica. -/
def passesOf (m : Model) (cs : List Contrib) (i r : Nat) (spec : Bool) : List (DensePass × PassTile) :=
  ((denseIndices m i).zip cs).flatMap (fun e =>
    let d := m.dense.getD e.1 default
    e.2.tiles.map (fun t => (⟨colourOf m i, e.1, inRange d.aFirst d.aCount i, t.base, r, spec⟩, t)))

/-- The sweep, and the run, in which a field accumulation of committed work was replayed (R133, R185). -/
def markReplay (s : State) (i : Nat) (w : Sweep) (replayed : Bool) : State × Sweep :=
  if replayed then
    (modCtx s i (fun c => { c with run := c.run.map (fun x => { x with replayed := true }) }), { w with replayed := true })
  else (s, w)

/-- The field vector of variable i in replica r over the values `xs`. A speculative one is not replayed: an overflow makes its
variable invalid (R186). -/
def vectorOf (m : Model) (d : CtxData) (xs : List Nat) (i r : Nat) (spec : Bool) : Vec :=
  let cs := contribs m xs i
  let a := fieldVector m d.fields xs cs i
  { var := i, rep := r, exp := a.exp, vals := a.vals, sat := fieldSaturated a cs, spec := spec,
    invalid := spec && fieldReplayed a cs }

/-- The counts of that vector: its own replays and saturated elements on its core, unless it is speculative, and those of the
dense tiles that no earlier vector of the sweep has counted (R184, R217). -/
def countField (m : Model) (cores : List Nat) (i core : Nat) (xs : List Nat) (q : Slot) (spec : Bool) (s : State) (w : Sweep) :
    State × Sweep :=
  let cs := contribs m xs q.var
  let a := fieldVector m w.work.fields xs cs q.var
  let t := (passesOf m cs q.var q.rep spec).foldl (countPass m cores) (s, w)
  if spec then t else markReplay (countVector t.1 core a.replays a.saturated) i t.2 (fieldReplayed a cs)

/-- A vector completes on a core. -/
def addVector (m : Model) (cores : List Nat) (i : Nat) (spec : Bool) (acc : State × Sweep × Share) (q : Slot) :
    State × Sweep × Share :=
  let h := acc.2.2
  let xs := planeFor h spec q.rep
  let t := countField m cores i h.core xs q spec acc.1 acc.2.1
  (t.1, t.2, { h with vecs := h.vecs ++ [vectorOf m acc.2.1.work xs q.var q.rep spec] })

/-- The pass key of a variable, once drawn. -/
def keyOf (m : Model) (w : Sweep) (i r : Nat) : Option PassKey :=
  w.keys.find? (fun k => k.stream == streamOf i && k.rep == r && k.colour == colourOf m i)

/-- A batch that may be issued: 1 to 256 different latent variables of one colour of the block, none complete yet, their pass keys
drawn: a pass begins with its keys (R92). -/
def batchOk (m : Model) (w : Sweep) (h : Share) (replicas k : Nat) (batch : List Slot) : Bool :=
  decide (1 ≤ batch.length ∧ batch.length ≤ 256) && batch.eraseDups.length == batch.length &&
  decide (h.colour ≤ k) &&
  batch.all (fun q => (colourVars m h.block k).contains q.var && decide (q.rep < replicas) && (vecAt h q.var q.rep).isNone &&
    (keyOf m w q.var q.rep).isSome)

/-- How a colour's work is done on a core: as at its first issue. -/
def modeOf (m : Model) (w : Sweep) (h : Share) (replicas k : Nat) (specEn : Bool) : Start :=
  match h.vecs.find? (fun v => colourOf m v.var == k) with
  | some v => if v.spec then .speculative else .plain
  | none => startOf m w h replicas k specEn

/-- SPEC_EN of the core that a share runs on. -/
def specEn (s : State) (h : Share) : Bool := regBit s (coreReg ((physOf s h.core).getD 0) 0x400) 0

/-! ### Engine reads of scratchpad (13 R404, R415, 14 R430) -/

/-- Engines read ranges of scratchpads, each a core, an address and a length: the first core with a word that yields DATA_ERROR,
and whether that word was uncorrectable. -/
def readPlaces : List (Nat × Nat × Nat) → State → Option (Nat × Bool) × State
  | [], s => (none, s)
  | u :: rest, s =>
    let r := readSpad s u.1 u.2.1 u.2.2
    match r.1 with
    | some e => (some (u.1, e.2 == some .uncorrectable), r.2)
    | none => readPlaces rest r.2

/-- The model shares and the seats that a sweep's engines read. -/
def sweepPlaces (s : State) (c : Ctx) (seat : Seat) (w : Sweep) : List (Nat × Nat × Nat) :=
  let mine := seat.places.filter (fun u => w.shares.any (fun h => h.block == u.1))
  mine.flatMap (fun u =>
    ((coreState s u.2.1).shares.filter (fun h => h.model == c.model && h.block == u.1)).map (fun h => (u.2.1, h.addr, h.size)) ++
    [u.2])

/-- A bad word in a context or a model share: the run ends with DATA_ERROR, and an uncorrectable one counts on its core (14 R430,
R431). -/
def wordFault (s : State) (i : Nat) (e : Nat × Bool) : State :=
  if e.2 then checkThreshold (failRun (countFault s [e.1] 1) i) e.1 else failRun s i

/-- 03 R84, R98: FIELD_VECTOR_COMPLETE. A fence holds the first products of a colour that it excludes (06 R209). At its first issue a sweep's engines read the shares and the seats of its cores. -/
def execFieldVectorComplete (core ctx : Nat) (batch : List Slot) (s : State) : Result :=
  shareStep s core ctx (fun c m seat w h =>
    let k := colourOf m (batch.headD default).var
    let go := modeOf m w h c.replicas k (specEn s h)
    let begun := h.vecs.any (fun v => colourOf m v.var == k)
    if !batchOk m w h c.replicas k batch || go = .wait || (!begun && c.run.any (fun v => heldByFence s v.r core)) then s
    else
      let got := if w.issued then (none, s) else readPlaces (sweepPlaces s c seat w) s
      let s := got.2
      match got.1 with
      | some e => wordFault s ctx e
      | none =>
      let spec := decide (go = .speculative)
      let h := if spec && h.base.isNone then { h with base := some h.plane } else h
      let cores := runCores s m seat.placement (pSubset seat.data.params)
      let r := batch.foldl (addVector m cores ctx spec) (s, { w with issued := true }, h)
      putSweep r.1 ctx seat (setShare r.2.1 r.2.2))

/-! ### Pass keys (R91, R222, R223) -/

/-- Latent variables of a stream in the blocks given. -/
def streamIn (m : Model) (blocks : List Nat) (t : Nat) : Bool :=
  blocks.any (fun b => (blockLatents m b).any (fun i => streamOf i == t))

/-- Streams that advance in a sweep of a subset: those with a latent variable in it (R91, R145). -/
def sweepStreams (m : Model) (blocks : List Nat) : List Nat := (streams m).filter (streamIn m blocks)

/-- The next colour whose key has not been drawn. -/
def nextKey (m : Model) (w : Sweep) (t r : Nat) : Option Nat :=
  (List.range m.colours).find? (fun k => !w.drawn.contains (t, r, k))

/-- The position of an instance (R262). -/
def genIndex (d : CtxData) (t r : Nat) : Nat := (d.gens.findIdx? (fun g => g.stream == t && g.replica == r)).getD 0

/-- The cores that keep a copy of a stream's instance: each steps its copy (R223). -/
def copyCores (s : State) (m : Model) (cores : List Nat) (t : Nat) : List Nat :=
  ((List.range m.blocks.length).filterMap (fun b =>
    if streamIn m [b] t then physOf s (cores.getD b 0) else none)).eraseDups

/-- The sequencer of a core binds an instance to a hardware generator: the next of the core's 64 in turn (R222; log 79). -/
def bindGen (s : State) (p : Nat) (inst : Nat × Nat × Nat) : State :=
  modCore s p (fun c => { c with bound := put c.bound c.nextGen inst, nextGen := (c.nextGen + 1) % hardwareGens })

/-- 07 R222, 03 R91: PASS_KEY_DRAW: the next colour's key of a stream and replica, in ascending order. -/
def execPassKeyDraw (ctx stream replica : Nat) (s : State) : Result :=
  sweepStep s ctx (fun c m seat w =>
    let blocks := w.shares.map (·.block)
    if !(sweepStreams m blocks).contains stream || decide (c.replicas ≤ replica) then s
    else match nextKey m w stream replica with
    | none => s
    | some k =>
      let g := genIndex w.work stream replica
      let out := (w.work.gens.getD g default).pass
      let w := { w with
        work := { w.work with gens := w.work.gens.set g out.2 }
        keys := w.keys ++ [⟨stream, replica, k, out.1.1, out.1.2⟩]
        drawn := w.drawn ++ [(stream, replica, k)] }
      let cores := copyCores s m (runCores s m seat.placement (pSubset seat.data.params)) stream
      each cores (putSweep s ctx seat w) (fun s p => bindGen (bump64 s (coreReg p 0x510) 1) p (ctx, stream, replica)))

/-! ### Samples (R85 to R90) -/

/-- A difference of field values as FP32, limited to the finite range (R85). -/
def fieldFp (n exp : Int) : Word := fpClamp (fpRound ⟨n, exp⟩)

def fpIsPosInf (w : Word) : Bool := w.toNat == fpInf

/-- The smallest state with the smallest field value (R88). -/
def coldest (us : List Int) : Nat := (List.range us.length).foldl (fun b k => if us.getD k 0 < us.getD b 0 then k else b) 0

/-- R85, R88: a binary variable; `word` gives the update words by slot. -/
def sampleBinary (beta : Word) (exp : Int) (us : List Int) (word : Nat → Word) : Nat :=
  let t := fpMul beta (fieldFp (us.getD 1 0 - us.getD 0 0) exp)
  if fpLt (logit (word 0).toNat) (fpNeg t) then 1 else 0

/-- R86: a categorical variable. -/
def sampleCategorical (beta : Word) (exp : Int) (us : List Int) (word : Nat → Word) : Nat :=
  let low := us.foldl min (us.headD 0)
  let a := (List.range us.length).map (fun k => fpSub (gumbel (word k).toNat) (fpMul beta (fieldFp (us.getD k 0 - low) exp)))
  (List.range a.length).foldl (fun b k => if fpLt (a.getD b 0) (a.getD k 0) then k else b) 0

/-- The new state of a variable from its field vector. -/
def sampleOf (beta : Word) (exp : Int) (us : List Int) (word : Nat → Word) : Nat :=
  if fpIsPosInf beta then coldest us
  else if us.length = 2 then sampleBinary beta exp us word
  else sampleCategorical beta exp us word

/-- The inverse temperature of a replica in sweep or round n (R123, R125). -/
def betaOf (d : CtxData) (n r : Nat) : Word :=
  if d.runKind = 3 then w32 d.schedule (4 * d.rungMap.getD r 0)
  else match pSchedule d.params with
  | 0 => pBeta0 d.params
  | 1 => linearBeta d.params n
  | 2 => if n = 1 then pBeta0 d.params else fpMul d.betaCur (pStep d.params)
  | _ => w32 d.schedule (8 * d.schedPos)

/-- The sample of a vector under its key. -/
def drawSample (d : CtxData) (v : Vec) (k : PassKey) : Upd :=
  { var := v.var, rep := v.rep,
    val := sampleOf (betaOf d (d.sweep + 1) v.rep) v.exp v.vals (fun j => updateWord k.lo k.hi v.var j) }

/-- A sample has been drawn for a slot. -/
def sampled (h : Share) (i r : Nat) : Bool :=
  h.pend.any (fun u => u.var == i && u.rep == r) || h.spec.any (fun u => u.var == i && u.rep == r)

/-- A sample enters the pending plane: a changed value waits for the flip walk (R104). -/
def enterPending (h : Share) (u : Upd) : Share :=
  let old := (h.plane.getD u.rep []).getD u.var 0
  { h with pend := h.pend ++ [u], unwalked := if u.val = old then h.unwalked else h.unwalked ++ [(u, old)] }

/-- One slot of a batch: its vector is complete and its key drawn. -/
def sampleSlot (m : Model) (w : Sweep) (h : Share) (q : Slot) : Share :=
  match vecAt h q.var q.rep, keyOf m w q.var q.rep with
  | some v, some k =>
    if sampled h q.var q.rep then h
    else if v.spec then { h with spec := h.spec ++ [drawSample w.work v k] }
    else enterPending h (drawSample w.work v k)
  | _, _ => h

/-- 03 R85 to R90, R100: SAMPLE_BATCH. -/
def execSampleBatch (core ctx : Nat) (batch : List Slot) (s : State) : Result :=
  shareStep s core ctx (fun _ m seat w h =>
    if decide (256 < batch.length) || !w.issued then s
    else putSweep s ctx seat (setShare w (batch.foldl (sampleSlot m w) h)))

/-! ### The flip walk and validation (R104, R105, R108) -/

/-- The change of a pair's term in a field vector, for every state: new minus old. -/
def pairChange (m : Model) (p : Pair) (i new old : Nat) : List Dyadic :=
  (List.range (stateCount m i)).map (fun k =>
    if p.i = i then (pairTerm m p k new).sub (pairTerm m p k old) else (pairTerm m p new k).sub (pairTerm m p old k))

/-- One change carried into a speculative vector: the exact change of every term it shares, and the mark. -/
def correctVec (m : Model) (v : Vec) (f : Upd × Nat) : Vec :=
  if !v.spec || v.rep != f.1.rep || !adjacent m v.var f.1.var then v
  else
    let ps := (pairsOf m v.var).filter (fun p => otherEnd p v.var == f.1.var)
    let deltas := ps.map (fun p => pairChange m p v.var f.1.val f.2)
    { v with invalid := true,
             vals := (List.range v.vals.length).map (fun k =>
               v.vals.getD k 0 + (deltas.map (fun d => alignTo v.exp (d.getD k .zero))).sum) }

/-- 03 R104: FLIP_WALK: the changes that wait are carried into the speculative vectors; without speculative work there is
nothing to correct. -/
def execFlipWalk (core ctx : Nat) (s : State) : Result :=
  shareStep s core ctx (fun c m seat w h =>
    let k := ((h.vecs.find? (·.spec)).map (fun v => colourOf m v.var)).getD 0
    if h.base.isNone || !allIssued m h k c.replicas then s
    else putSweep s ctx seat (setShare w
      { h with vecs := h.unwalked.foldl (fun vs f => vs.map (fun v => correctVec m v f)) h.vecs, unwalked := [] }))

/-- The colour of the speculative work of a share. -/
def specColour (m : Model) (h : Share) : Option Nat := (h.vecs.find? (·.spec)).map (fun v => colourOf m v.var)

/-- Every speculative vector has its sample, or is invalid and has its key. -/
def specReady (m : Model) (w : Sweep) (h : Share) : Bool :=
  (h.vecs.filter (·.spec)).all (fun v => (v.invalid || h.spec.any (fun u => u.var == v.var && u.rep == v.rep)) &&
    (keyOf m w v.var v.rep).isSome)

/-- One speculative vector at validation: its sample moves to the pending plane, or it is computed again from the committed
values and sampled with the same words. -/
def validateVec (m : Model) (cores : List Nat) (i : Nat) (acc : State × Sweep × Share) (v : Vec) : State × Sweep × Share :=
  let h := acc.2.2
  let old := h.spec.find? (fun u => u.var == v.var && u.rep == v.rep)
  let out := fun (x : Vec) => h.vecs.map (fun y => if y.var = v.var ∧ y.rep = v.rep then x else y)
  match v.invalid, old, keyOf m acc.2.1 v.var v.rep with
  | false, some u, _ => (acc.1, acc.2.1, enterPending { h with vecs := out { v with spec := false } } u)
  | true, _, some k =>
    let xs := h.plane.getD v.rep []
    let x := vectorOf m acc.2.1.work xs v.var v.rep false
    let t := countField m cores i h.core xs ⟨v.var, v.rep⟩ false acc.1 acc.2.1
    (t.1, t.2, enterPending { h with vecs := out x } (drawSample acc.2.1.work x k))
  | _, _, _ => acc

/-- 03 R105: VALIDATION, once the colour before has committed, every commit that the fields depend on has arrived and every
change has been walked; each invalid sample adds 1 to SPEC_DISCARD. -/
def execValidation (core ctx : Nat) (s : State) : Result :=
  shareStep s core ctx (fun c m seat w h =>
    match specColour m h with
    | none => s
    | some k =>
      if h.colour != k || !remoteDoneBelow m w h k k || !h.unwalked.isEmpty || !allIssued m h k c.replicas ||
          !specReady m w h then s
      else
        let gone := h.vecs.countP (fun v => v.spec && v.invalid)
        let cores := runCores s m seat.placement (pSubset seat.data.params)
        let r := (h.vecs.filter (·.spec)).foldl (validateVec m cores ctx) (s, w, h)
        let s := bump64 r.1 (coreReg ((physOf s h.core).getD 0) 0x410) gone
        putSweep s ctx seat (setShare r.2.1 { r.2.2 with base := none, spec := [] }))

/-! ### The colour commit (R100, R112, R132) -/

/-- Writes updates into a plane. -/
def writePlane (plane : List (List Nat)) (us : List Upd) : List (List Nat) :=
  us.foldl (fun pl u => modAt pl u.rep (fun xs => xs.set u.var u.val)) plane

/-- Writes updates into the latent state of the working content. -/
def writeLatent (m : Model) (lat : List (List Nat)) (us : List Upd) : List (List Nat) :=
  us.foldl (fun l u => modAt l u.rep (fun xs => xs.set (rankOf (latents m) u.var) u.val)) lat

/-- The energy change of one update, from the vector that drew it (R132). -/
def energyChange (h : Share) (u : Upd) : Int :=
  match vecAt h u.var u.rep with
  | none => 0
  | some v =>
    let old := (h.plane.getD u.rep []).getD u.var 0
    units ⟨v.vals.getD u.val 0 - v.vals.getD old 0, v.exp⟩

/-- The replicas that a sweep or round counts (R112, R121). -/
def countedReplicas (d : CtxData) : List Nat :=
  let n := d.sweep + 1
  if d.runKind = 2 || decide (n ≤ pBurnIn d.params) || (n - pBurnIn d.params) % pThin d.params != 0 then []
  else if d.runKind = 3 then ((List.range d.latent.length).filter (fun r => d.rungMap.getD r 0 == 0)).take 1
  else List.range d.latent.length

/-- Adds committed samples to MC. -/
def countMarginals (m : Model) (mc : List (List Nat)) (us : List Upd) : List (List Nat) :=
  us.foldl (fun t u => modAt t (rankOf (latents m) u.var) (fun row => modAt row u.val (· + 1))) mc

/-- What a commit does to the working content: state, counts in a counted sweep of the last turn, energies (R112, R132, R146). -/
def commitData (m : Model) (w : Sweep) (h : Share) (us : List Upd) : CtxData :=
  let d := w.work
  let reps := countedReplicas d
  let mc := if w.turn + 1 = turnSweeps m d.params then countMarginals m d.mc (us.filter (fun u => reps.contains u.rep)) else d.mc
  let energy := if m.relaxed then d.energy else us.foldl (fun e u => modAt e u.rep (· + energyChange h u)) d.energy
  { d with latent := writeLatent m d.latent us, mc := mc, energy := energy }

/-- Blocks of the subset that a colour of a block is imported into (R36, R99). -/
def importers (m : Model) (w : Sweep) (b k : Nat) : List Nat :=
  (w.shares.map (·.block)).filter (fun o => o != b && (List.range m.colours).any (fun c => dependsOn m o c b k))

/-- Products of the dense passes behind the updates, on the core that holds group A of each factor (R178, R541; log 46). -/
def countMacs (s : State) (m : Model) (cores : List Nat) (us : List Upd) : State :=
  each us s (fun s u => each (denseOf m u.var) s (fun s d =>
    let other := if inRange d.aFirst d.aCount u.var then d.bCount * stateCount m d.bFirst else d.aCount * stateCount m d.aFirst
    match physOf s (cores.getD (blockOf m d.aFirst) 0) with
    | none => s
    | some p => bump64 s (coreReg p 0x210) (stateCount m u.var * other)))

/-- The changes that the flip walk still has to carry after a commit: all of them while speculative work waits for them. -/
def keepUnwalked (m : Model) (h : Share) (k : Nat) : List (Upd × Nat) :=
  if h.base.isSome then h.unwalked else h.unwalked.filter (fun f => decide (k < colourOf m f.1.var))

/-- The updates of a commit whose samples were drawn from saturated vectors. -/
def saturatedUpds (h : Share) (us : List Upd) : List Upd := us.filter (fun u => (vecAt h u.var u.rep).any (·.sat))

/-- One Trail event for each sample drawn from a saturated vector names its variable (06 R185). -/
def reportSaturated (s : State) (core handle : Nat) (us : List Upd) : State :=
  each us s (fun s u => event s 0x0301 2 ((physOf s core).getD 0) handle (leBytes 4 u.var))

/-- 03 R100, R112, 04 R132: COLOUR_COMMIT of the oldest colour of a core: every sample is in the pending plane, and every
remote commit that its fields depend on has arrived. -/
def execColourCommit (core ctx : Nat) (s : State) : Result :=
  shareStep s core ctx (fun c m seat w h =>
    let k := h.colour
    let us := h.pend.filter (fun u => colourOf m u.var == k)
    if decide (m.colours ≤ k) || us.length != (slotsOf m h.block k c.replicas).length || !remoteDoneBelow m w h k k then s
    else
      let h2 := { h with
        colour := nextColour m h.block (k + 1)
        plane := writePlane h.plane us
        pend := h.pend.filter (fun u => colourOf m u.var != k)
        vecs := h.vecs.filter (fun v => colourOf m v.var != k)
        unwalked := keepUnwalked m h k }
      let w := { setShare w h2 with
        work := commitData m w h us
        sat := w.sat + (saturatedUpds h us).length
        remote := w.remote ++ (importers m w h.block k).map (fun o => ⟨h.block, o, k, us⟩) }
      let s := reportSaturated s core (ctxHandle ctx c) (saturatedUpds h us)
      let s := bump64 s (coreReg ((physOf s core).getD 0) 0x418) us.length
      putSweep (countMacs s m (runCores s m seat.placement (pSubset seat.data.params)) us) ctx seat w)

/-! ### Remote commits (R36, R99) -/

/-- In a relaxed model a colour's fields read the values from before the colour (R100, R110): a commit of that colour waits
until the core's own is done. -/
def arrivalWaits (m : Model) (h : Share) (r : Remote) : Bool := m.relaxed && decide (h.colour ≤ r.colour) && dependsOn m h.block r.colour r.fromBlock r.colour

/-- 03 R99, 01 R36: REMOTE_COMMIT_ARRIVAL. -/
def execRemoteCommitArrival (core fromCore ctx : Nat) (s : State) : Result :=
  shareStep s core ctx (fun _ m seat w h =>
    match w.shares.find? (fun o => o.core == fromCore) with
    | none => s
    | some o =>
      match w.remote.find? (fun r => r.fromBlock == o.block && r.toBlock == h.block) with
      | none => s
      | some r =>
        if arrivalWaits m h r then s
        else
          let changed := r.upds.filterMap (fun u =>
            let old := (h.plane.getD u.rep []).getD u.var 0
            if u.val = old then none else some (u, old))
          let h := { h with plane := writePlane h.plane r.upds, arrived := h.arrived ++ [(r.fromBlock, r.colour)],
                            unwalked := if h.base.isSome then h.unwalked ++ changed else h.unwalked }
          putSweep s ctx seat (setShare { w with remote := eraseFirst (fun x => x == r) w.remote } h))

/-- 07 R226: GENERATOR_SEEDING_DONE. -/
def execGeneratorSeedingDone (ctx : Nat) (s : State) : Result :=
  .next (if engineOn s then modCtx s ctx (fun c => { c with run := c.run.map (fun v => { v with seeded := true }) }) else s)

end Sys2Proof.Machine
end

