-- ==== Sys2Proof/Machine/Tensor.lean ====
section
/-!
DEFINITION. Tensors and programs: descriptors, the program check, tiles and the cores that run them, engine reads and writes
(05 R165 to R171, 06 R187 to R199, R206, R212, 11 R356).
-/

namespace Sys2Proof.Machine

/-! ### The program check (R170, R171, R191, R194, R199, R206, R212) -/

/-- A named tensor is missing. -/
def indexBad (ts : List Tensor) (i : Nat) : Bool := i != 0xFFFF && decide (ts.length ≤ i)

/-- A named tensor fails a test; none passes. -/
def failsIf (ts : List Tensor) (i : Nat) (p : Tensor → Bool) : Bool := (tensorAt ts i).any p

/-- A shadow of the sentinel is FP32 or 8-bit and shaped as its operand. -/
def shadowBad (ts : List Tensor) (i : Nat) (like : Option Tensor) : Bool :=
  failsIf ts i (fun x => !(x.fmt == 7 || x.fmt == 5 || x.fmt == 6) || !like.any (sameShape x))

/-- The shapes and formats of a MATMUL step. -/
def matmulBad (ts : List Tensor) (t : TStep) : Bool :=
  match tensorAt ts t.a, tensorAt ts t.b, tensorAt ts t.c with
  | some a, some b, some c =>
    !isNarrow a.fmt || !isNarrow b.fmt || a.kLen != b.kLen || c.kLen != a.vectors || c.vectors != b.vectors ||
    (c.fmt == 8 && (t.acc != 0 || t.outStage != 0)) ||
    failsIf ts t.preload (fun x => x.fmt != 7 || x.kLen != a.vectors || !(x.vectors == 1 || x.vectors == b.vectors)) ||
    (biasLate t.outStage && failsIf ts t.preload (fun x => x.vectors != 1)) ||
    shadowBad ts t.aShadow (some a) || shadowBad ts t.bShadow (some b)
  | _, _, _ => true

/-- The shapes and formats of a CONVERT step, which has neither B nor preload. -/
def convertBad (ts : List Tensor) (t : TStep) : Bool :=
  match tensorAt ts t.a, tensorAt ts t.c with
  | some a, some c =>
    a.fmt == 8 || !isNarrow c.fmt || !sameShape a c || t.b != 0xFFFF || t.preload != 0xFFFF || shadowBad ts t.aShadow (some a) ||
    t.bShadow != 0xFFFF
  | _, _ => true

/-- A tensor that the step writes overlaps one that it reads (R170). -/
def stepOverlaps (ts : List Tensor) (t : TStep) : Bool :=
  let hits := fun (x : Tensor) (is : List Nat) => is.any (fun i => failsIf ts i (tensorsOverlap x))
  failsIf ts t.c (fun x => hits x [t.a, t.b, t.aShadow, t.bShadow, t.preload, t.cShadow]) ||
  failsIf ts t.cShadow (fun x => hits x [t.a, t.b, t.aShadow, t.bShadow, t.preload])

/-- A step fails the check. -/
def stepBad (tree gn5 : Bool) (ts : List Tensor) (t : TStep) : Bool :=
  decide (1 < t.op) || decide (1 < t.acc) || decide (1 < t.round) ||
  [t.a, t.b, t.c, t.cShadow, t.aShadow, t.bShadow, t.preload].any (indexBad ts) || outStageBad t.outStage ||
  (t.sentN == 0 && t.sentPhase != 0) || (t.sentN != 0 && decide (t.sentN ≤ t.sentPhase)) ||
  (t.sentN != 0 && t.aShadow == 0xFFFF && t.bShadow == 0xFFFF) ||
  (t.tileN != 0 && !(widthsOf tree gn5 t).contains t.tileN) ||
  (if t.op = 0 then matmulBad ts t else convertBad ts t) ||
  failsIf ts t.cShadow (fun x => x.fmt != 7 || !(tensorAt ts t.c).any (sameShape x)) || stepOverlaps ts t

/-- The reduction of a step is longer than its accumulator's limit (R194); GN5 mode enforces none (R213). -/
def stepTooLong (gn5 : Bool) (ts : List Tensor) (t : TStep) : Bool :=
  t.op == 0 && failsIf ts t.a (fun a => decide ((if t.acc = 0 then 2 ^ 20 else 16384) < a.kLen)) && !stepGn5 gn5 t

/-- The tensors and steps of a program's bytes. -/
def progTensors (b : List Byte) : List Tensor := (List.range (u16 b 8)).map (fun i => tensorOf (b.drop (32 + 32 * i)))
def progSteps (b : List Byte) : List TStep :=
  (List.range (u16 b 6)).map (fun i => stepOf (b.drop (32 + 32 * u16 b 8 + 64 * i)))

/-- The header, the length or a reserved byte is wrong (R165). -/
def progShapeBad (b : List Byte) : Bool :=
  u32 b 0 != 0x54374E47 || u16 b 4 != 1 || u16 b 6 == 0 || decide (64 < u16 b 6) || u16 b 8 == 0 || decide (128 < u16 b 8) ||
  !allZero (slice b 10 22) || b.length != 32 + 32 * u16 b 8 + 64 * u16 b 6 ||
  (List.range (u16 b 8)).any (fun i => tensorReserved (b.drop (32 + 32 * i))) ||
  (List.range (u16 b 6)).any (fun i =>
    let d := b.drop (32 + 32 * u16 b 8 + 64 * i)
    u8 d 3 != 0 || !allZero (slice d 40 24))

/-- An ACC48 partial tensor stands anywhere but as C (R199). -/
def partialMisused (ts : List Tensor) (t : TStep) : Bool :=
  [t.a, t.b, t.cShadow, t.aShadow, t.bShadow, t.preload].any (fun i => failsIf ts i (fun x => x.fmt == 8))

/-- The program fails its check with BAD_PARAM (R170). -/
def progBad (s : State) (tree gn5 : Bool) (b : List Byte) : Bool :=
  let ts := progTensors b
  let ss := progSteps b
  progShapeBad b || ts.any tensorBad || ts.any (fun t => writeProtected s t.addr (tensorSize t)) ||
  ss.any (fun t => stepBad tree gn5 ts t || partialMisused ts t)

/-! ### Engine reads and writes (13 R404, R414) -/

/-- A finite FP32 word without a stated value (log 40). -/
def openWord (n : Nat) : Word :=
  let w := BitVec.ofNat 32 (Config.openResult n)
  if fpIsFinite w then w else fpOf (fpSign w) fpMaxFinite

/-- The word read at an address: outside GN5 mode the manual states no result for an FP32 operand that is not finite (log 40). -/
def cleanWord (gn5 : Bool) (a : Nat) (w : Word) : Word :=
  if gn5 || fpIsFinite w then w else openWord (w.toNat + 2 ^ 32 * a)

/-- Reads a range of each vector named; none when a word is unreadable. -/
def readVecs (s : State) (t : Tensor) (off len : Nat) : List Nat → Option (List (List Byte)) × State
  | [] => (some [], s)
  | v :: vs =>
    let r := readHbm s (vecAddr t v + off) len
    match r.1 with
    | none => (none, r.2)
    | some b =>
      let q := readVecs r.2 t off len vs
      (q.1.map (b :: ·), q.2)

/-- The FP32 words of bytes at an address. -/
def fpWords (gn5 : Bool) (a : Nat) (b : List Byte) : List Word :=
  (List.range (b.length / 4)).map (fun i => cleanWord gn5 (a + 4 * i) (w32 b (4 * i)))

/-- The byte beside an engine's write within a code word: what the word held, or an open value (log 49). -/
def besideByte (s : State) (a : Nat) : Byte := (peek s a).getD (BitVec.ofNat 8 (Config.openResult a))

/-- An engine writes whole code words: bytes of the first and last one outside the range stand as they were (R404, R414;
log 49). -/
def writeEngine (s : State) (a : Nat) (bs : List Byte) : State :=
  let lo := a / 8 * 8
  let hi := roundUp (a + bs.length) 8
  writeWords s lo ((span lo (a - lo)).map (besideByte s) ++ bs ++
    (span (a + bs.length) (hi - (a + bs.length))).map (besideByte s))

end Sys2Proof.Machine
end

