-- ==== Sys2Proof/Machine/Tiles.lean ====
section
/-!
DEFINITION. TENSOR_OP: its check, the accumulation of a tile, the output stage, the precision sentinel and the reply
(05 R154, R168 to R174, R178, 06 R181 to R192, R196, R199, R207, R212, R213, 11 R356, R358).
-/

namespace Sys2Proof.Machine

/-- Rows and columns of the tile in progress: t = m_tile x ceil(N / TILE_N) + n_tile (R168). -/
def tileM (p : Prog) : List Nat :=
  let m := p.tile / tileCols p.tree p.gn5 p.tensors (curStep p)
  span (128 * m) (min 128 (outRows p.tensors (curStep p) - 128 * m))
def tileN (p : Prog) : List Nat :=
  let n := p.tile % tileCols p.tree p.gn5 p.tensors (curStep p)
  span (curWidth p * n) (min (curWidth p) (outCols p.tensors (curStep p) - curWidth p * n))

/-- A report before the first tile of a step. -/
def newReport : StepReport :=
  { saturated := 0, sentTiles := 0, sentWorst := 0, replays := 0, sumD := .zero, sumR := .zero, maxD := .zero, sentOpen := false }

/-- The report of the step in progress, the last one, changed. -/
def modReport (p : Prog) (f : StepReport → StepReport) : Prog := { p with reports := modAt p.reports (p.reports.length - 1) f }

/-! ### The reply (R356) -/

/-- SENT_REL: sqrt(sum d^2 / sum ref^2), 0 when the divisor is 0 (R173). The quotient and the root are rounded to FP64 before the
rounding to FP32: DESIGN CHOICE (log 78). -/
def sentRel (v : StepReport) : Dyadic :=
  if v.sumR.n = 0 then .zero
  else
    let t := min v.sumD.e v.sumR.e
    let q := fp64Ratio (v.sumD.scaled t).natAbs (v.sumR.scaled t).natAbs
    if 0 ≤ q.e then fp64Sqrt (q.n.natAbs * 2 ^ q.e.toNat) 1 else fp64Sqrt q.n.natAbs (2 ^ (-q.e).toNat)

/-- A sentinel figure as FP32; beyond the finite range the manual states none (log 40). -/
def sentWord (n : Nat) (d : Dyadic) : Word := if fpIsInf (fpRound d) then openWord n else fpRound d

/-- The 24 bytes of step `n`. The manual leaves some figures open (log 40): those of no sentinel tile, and those of values that are
not finite; they depend on the step alone. -/
def reportBytes (n : Nat) (v : StepReport) : List Byte :=
  leBytes 4 v.saturated ++ leBytes 4 v.sentTiles ++
  leBytes 4 (if v.sentOpen || v.sentTiles == 0 then openWord n else sentWord n v.maxD).toNat ++
  leBytes 4 (if v.sentOpen then openWord (n + 1) else sentWord (n + 1) (sentRel v)).toNat ++
  leBytes 4 (if v.sentOpen || v.sentTiles == 0 then Config.openResult (n + 2) else v.sentWorst) ++ leBytes 4 v.replays

/-- The reply's payload: STEPS_RUN, FIRST_TILE, TILES_NOT_WRITTEN and a report for each step run. -/
def progPayload (reports : List StepReport) (first : Option Nat) (notWritten : Nat) : List Byte :=
  leBytes 1 reports.length ++ zeros 3 ++ leBytes 4 (first.getD 0xFFFFFFFF) ++ leBytes 4 notWritten ++ zeros 4 ++
  ((List.range reports.length).zipWith (fun i v => reportBytes (3 * i) v) reports).flatten

/-- A program ends with a status: its slots and schedules are released (R171). -/
def endProg (s : State) (p : Prog) (st : Status) (detail : Nat) (first : Option Nat) : State :=
  let s := forgetItems (dropWork { s with progs := s.progs.filter (fun q => !(q.r == p.r)) } (.prog p.r)) (itemOfProg p.r)
  reply s p.r 0x50 st detail (progPayload p.reports first p.notWritten)
    ((if p.repaired then flagRepaired else 0) + (if p.replayed then flagReplayed else 0))

/-- An operand is unreadable (R170): the program ends; tiles written stay written. -/
def progUnreadable (s : State) (p : Prog) : State := endProg s p .dataError 0x0307 none

/-- The tile in progress is done: the next tile, the next step, or the end of the program. -/
def nextTile (s : State) (p : Prog) : State :=
  if p.tile + 1 < curTiles p then setProg s { p with tile := p.tile + 1, drained := none }
  else if p.notWritten ≠ 0 then endProg s p .badParam 0x0341 p.firstTile
  else if p.cur + 1 < p.steps.length then
    setProg s { p with cur := p.cur + 1, tile := 0, drained := none, reports := p.reports ++ [newReport] }
  else if p.satTile.isSome then endProg s p .overflowSaturated 0x0343 p.satTile
  else endProg s p .ok 0 none

/-! ### Acceptance -/

/-- The physical cores that a program's tiles run on, and the stacks that its tensors lie in. -/
def progUnits (s : State) (p : Prog) : List Nat × List Nat :=
  ((p.steps.flatMap (fun t => (List.range (min 16 (tileCount p.tree p.gn5 p.tensors t))).map (tilePhys s t.coreMask))).eraseDups,
   (p.tensors.flatMap (fun t => [stackOf t.addr, stackOf (t.addr + tensorSize t - 1)])).eraseDups)

/-- A program's slot table and schedule, between its cores and the controllers of its tensors (R171; log 69). -/
def giveProgWork (s : State) (p : Prog) : State :=
  let u := progUnits s p
  giveWork s (.prog p.r) u.1 (coreStacks u.1 u.2)

/-- A program begins: what it holds of the registers is as 17 R507 says. Work that begins in both halves while they differ in
frequency is recorded (09 R291, R293). -/
def beginProg (s : State) (r : Req) (md : Modes) (b : List Byte) : State :=
  let p : Prog :=
    { r := r, tensors := progTensors b, steps := progSteps b, tree := md.tree, gn5 := md.gn5, repro := md.repro,
      sentAllow := (List.range 16).map (fun l => (physOf s l).any (fun q => regBit s (coreReg q 0x200) 0)), cur := 0, tile := 0,
      drained := none, reports := [newReport], firstTile := none, notWritten := 0, satTile := none, replayed := false,
      repaired := false }
  let t := hold s r 0x50 none none md
  seamEvent (giveProgWork { t with progs := t.progs ++ [p] } p)

/-- 05 R165 to R171, 11 R356, R358: TENSOR_OP reads and checks its program; ACC_MODE is that of its acceptance (06 R214). -/
def execTensorOp (r : Req) (pl : List Byte) (s : State) : Result :=
  let md := modesOf s r 0x50
  serve s r 0x50 none none (fun s =>
    let len := u32 pl 8
    let none_ := progPayload [] none 0
    checked s r 0x50
      ([(pl.length != 16, badLength), (!allZero (slice pl 12 4), badReserved)] ++ regionChecks s (u64 pl 0) len 64 false) (fun s =>
      if len < 32 ∨ 32 + 32 * 128 + 64 * 64 < len then reply s r 0x50 .badParam 0x0340 none_
      else
        let got := readHbm s (u64 pl 0) len
        let s := got.2
        match got.1 with
        | none => reply s r 0x50 .dataError 0x0307 none_
        | some b =>
          if progBad s md.tree md.gn5 b then reply s r 0x50 .badParam 0x0340 none_
          else if (progSteps b).any (stepTooLong md.gn5 (progTensors b)) then reply s r 0x50 .lengthLimit 0x0342 none_
          else beginProg s r md b))

/-! ### Accumulation of a tile -/

/-- Elements of a tile, column after column. -/
def byColumns {α : Type} (rows : Nat) (xs : List α) : List (List α) := chunks rows xs

/-- T0: the smallest g over every group product (R181). -/
def tileExp (fa fb : Nat) (as bs : List (List Group)) : Int :=
  let low := fun (f : Nat) (gs : List (List Group)) (k : Nat) => minExp (gs.map (fun g => groupExp f (g.getD k default)))
  minExp ((List.range (as.headD []).length).map (fun k => low fa as k + low fb bs k))

/-- The group products of element (m, n). -/
def products (fa fb : Nat) (a b : List Group) : List Dyadic := List.zipWith (groupDot fa fb) a b

/-- The ACC48 tile of operands and preload words: element after element, column by column. -/
def acc48Tile (fa fb : Nat) (as bs : List (List Group)) (pre : List (List Word)) : Acc :=
  acc48 (tileExp fa fb as bs) ((List.range bs.length).flatMap (fun n =>
    (List.range as.length).map (fun m =>
      products fa fb (as.getD m []) (bs.getD n []) ++ (((pre.getD n [])[m]?).map fpVal).toList)))

/-- One FP32 element in the order in force (R187, R188, R192, R212). -/
def fpElement (tree gn5 : Bool) (fa fb w : Nat) (pre : Option Word) (ps : List Dyadic) : FpAcc :=
  if gn5 then fpGn5 (pre.getD 0) ps
  else if tree then fpCanonical (sliceBlocks fa fb) (runLength w) pre ps
  else fpSequential (sliceBlocks fa fb) (pre.getD 0) ps

/-- The preload words of the tile, column after column: the bias for every column, or the residual's own (R196). -/
def readPreload (s : State) (p : Prog) (t : TStep) : Option (List (List Word)) × State :=
  match tensorAt p.tensors t.preload with
  | none => (some [], s)
  | some x =>
    let off := 4 * (tileM p).headD 0
    let bias := x.vectors == 1
    let r := readVecs s x off (4 * (tileM p).length) (if bias then [0] else tileN p)
    let word := fun (v : Nat) (b : List Byte) => fpWords (stepGn5 p.gn5 t) (vecAddr x v + off) b
    (r.1.map (fun bs => if bias then (tileN p).map (fun _ => word 0 (bs.headD [])) else List.zipWith word (tileN p) bs), r.2)

/-- The groups of some vectors of an operand. -/
def readGroups (s : State) (x : Tensor) (vs : List Nat) : Option (List (List Group)) × State :=
  let r := readVecs s x 0 (vecBytes x) vs
  (r.1.map (·.map (decodeGroups x.fmt)), r.2)

/-- A tile of a MATMUL step from its operands (R154, R168): what drains, or none for an operand with an invalid encoding. -/
def matmulTile (p : Prog) (t : TStep) (fa fb : Nat) (as bs : List (List Group)) (pre : List (List Word)) : Tile :=
  if t.acc = 0 then
    let a := acc48Tile fa fb as bs pre
    { exp := a.exp, replays := a.replays, saturated := a.saturated, elems := byColumns as.length (a.vals.map Elem.acc) }
  else
    let es := (List.range bs.length).flatMap (fun n => (List.range as.length).map (fun m =>
      fpElement p.tree (stepGn5 p.gn5 t) fa fb (curWidth p) ((pre.getD n [])[m]?) (products fa fb (as.getD m []) (bs.getD n []))))
    { exp := 0, replays := 0, saturated := es.countP (·.2), elems := byColumns as.length (es.map (fun e => Elem.fp e.1)) }

/-- A tile of a CONVERT step: exact values over one exponent, or FP32 words. -/
def convertTile (gn5 : Bool) (x : Tensor) (a : List (Nat × List Byte)) : Tile × Bool :=
  if x.fmt = 7 then
    ({ exp := 0, replays := 0, saturated := 0, elems := a.map (fun e => (fpWords gn5 e.1 e.2).map Elem.fp) }, false)
  else
    let gs := a.map (fun e => decodeGroups x.fmt e.2)
    let t := minExp (gs.flatMap (fun g => g.map (groupExp x.fmt)))
    ({ exp := t, replays := 0, saturated := 0,
       elems := gs.map (fun col => col.flatMap (fun g => g.xs.map (fun v => Elem.acc (Dyadic.scaled ⟨v, groupExp x.fmt g⟩ t)))) },
     gs.any (fun col => col.any (·.bad)))

/-- A tile whose operands hold an invalid encoding is not written (R154). Its sentinel, when one is due, does not run and is not
counted in SENT_TILES: DESIGN CHOICE (log 78). -/
def skipTile (s : State) (p : Prog) : State :=
  nextTile s { p with firstTile := some (p.firstTile.getD p.tile), notWritten := p.notWritten + 1 }

/-- A tile has drained: replays and saturations are counted on its core (R184, R185, R189). -/
def keepTile (s : State) (p : Prog) (t : Tile) : State :=
  let c := tilePhys s (curStep p).coreMask p.tile
  let s := bump (bump s (coreReg c 0x310) t.replays) (coreReg c 0x314) t.saturated
  let p := modReport p (fun v => { v with replays := v.replays + t.replays, saturated := v.saturated + t.saturated })
  setProg s { p with
    drained := some t
    replayed := p.replayed || t.replays != 0
    satTile := if t.saturated = 0 then p.satTile else some (min p.tile (p.satTile.getD p.tile)) }

/-- The next tile of a MATMUL step. -/
def drainMatmul (s : State) (p : Prog) (t : TStep) (a b : Tensor) : State :=
  let ra := readGroups s a (tileM p)
  let rb := readGroups ra.2 b (tileN p)
  let rp := if biasLate t.outStage then (some [], rb.2) else readPreload rb.2 p t
  match ra.1, rb.1, rp.1 with
  | some as, some bs, some pre =>
    if as.any (·.any (·.bad)) || bs.any (·.any (·.bad)) then skipTile rp.2 p
    else keepTile rp.2 p (matmulTile p t a.fmt b.fmt as bs pre)
  | _, _, _ => progUnreadable rp.2 p

/-- The next tile of a CONVERT step: rows of A's vectors, whole groups. -/
def drainConvert (s : State) (p : Prog) (a : Tensor) : State :=
  let m := (tileM p).headD 0
  let off := if a.fmt = 7 then 4 * m else m / 32 * groupBytes a.fmt
  let len := if a.fmt = 7 then 4 * (tileM p).length else narrowBytes a.fmt (tileM p).length
  let r := readVecs s a off len (tileN p)
  match r.1 with
  | none => progUnreadable r.2 p
  | some bs =>
    let q := convertTile p.gn5 a (List.zipWith (fun v b => (vecAddr a v + off, b)) (tileN p) bs)
    if q.2 then skipTile r.2 p else keepTile r.2 p q.1

/-- The core of the tile in progress. -/
def curCore (s : State) (p : Prog) : Nat := tileCore s (curStep p).coreMask p.tile

/-- That core works: no fence stops it or the program. -/
def tileRuns (s : State) (p : Prog) : Bool := engineOn s && !fenceDue s (.prog p.r) [curCore s p]

/-- A tile may begin on its core: the Field Engine serves one piece of work at a time, a program in windows that begin at sweep
boundaries of the contexts there (R151), and no fence holds the program's products (06 R209). -/
def tileBegins (s : State) (p : Prog) : Bool :=
  tileRuns s p && !((sweepOn s (curCore s p)).any (fun x => x.2.1.issued)) && !heldByFence s p.r (curCore s p)

/-- 06 R183, 05 R168, R170: TILE_DRAIN. The operands are read, and the tile that stands after its replays is drained. -/
def execTileDrain (r : Req) (s : State) : Result :=
  .next (match findProg s r with
    | none => s
    | some p =>
      let t := curStep p
      if p.drained.isSome || !tileBegins s p then s
      else if t.op = 0 then drainMatmul s p t ((tensorAt p.tensors t.a).getD default) ((tensorAt p.tensors t.b).getD default)
      else drainConvert s p ((tensorAt p.tensors t.a).getD default))

/-! ### The output stage (R206, R207) -/

/-- One element through the output stage; a CONVERT step has none (R167): FP32 words pass, exact values round to FP32. -/
def outElem (gn5 : Bool) (t : TStep) (exp : Int) (late : Option Word) (x : Elem) : FpAcc :=
  if t.op = 0 then outputStage (stepGn5 gn5 t) exp (actOf t.outStage) t.outScale late x
  else match x with
  | .acc v => fpSettle false (fpRound ⟨v, exp⟩) false
  | .fp w => (w, false)

/-- What the conversion takes: the staged FP32 word, or the exact value of a CONVERT step (R159). -/
def convSrc (t : TStep) (exp : Int) (x : Elem) (staged : Word) : Src :=
  match t.op, x with
  | 0, _ => .ofFp staged
  | _, .acc v => .num ⟨v, exp⟩
  | _, .fp w => .ofFp w

/-- The bytes that a column of the tile takes in C, and the elements saturated by the conversion (R159, R160, R207 step 5). -/
def columnBytes (t : TStep) (c : Tensor) (exp : Int) (m n : Nat) (xs : List Elem) (staged : List Word) : List Byte × Nat :=
  if c.fmt = 7 then (staged.flatMap (fun w => leBytes 4 w.toNat), 0)
  else
    let word := fun i => if t.round = 1 then some (roundingWord t.roundSeed c.id (m + i) n).toNat else none
    convertVector c.fmt word (List.zipWith (convSrc t exp) xs staged)

/-- Where rows from `m` of a vector of a narrow or FP32 tensor stand. -/
def rowOffset (x : Tensor) (m : Nat) : Nat := if x.fmt = 7 then 4 * m else m / 32 * groupBytes x.fmt

/-- A column in the ACC48 partial format: its header, then its elements (R199). A vector of more than 128 elements is written tile by
tile: its one header then has the smallest T of its tiles, to which the elements of the others are aligned exactly, modulo 2^64, and
the largest REPLAYS. SATURATED stands for the tile: it is set for every vector of a tile with a saturated element. Both are
DESIGN CHOICE (log 77). -/
def writePartial (s : State) (c : Tensor) (m n : Nat) (q : Tile) (xs : List Elem) : State :=
  let a := vecAddr c n
  let old := if m = 0 then [] else rawBytes s a (8 + 8 * m)
  let exp := if m = 0 then q.exp else min q.exp (signed 16 (u16 old 0))
  let elem := fun (e : Int) (v : Int) => leBytes 8 (twos 64 (v * 2 ^ (e - exp).toNat))
  let before := (List.range m).flatMap (fun k => elem (signed 16 (u16 old 0)) (signed 64 (u64 old (8 + 8 * k))))
  let head := leBytes 2 (twos 16 exp) ++ leBytes 1 (max q.replays (u8 old 2)) ++
    leBytes 1 (max (ofBool (q.saturated != 0)) (u8 old 3)) ++ zeros 4
  writeEngine s a (head ++ before ++ xs.flatMap (fun x => match x with
    | .acc v => elem q.exp v
    | .fp _ => zeros 8))

/-- One column of the tile written to C_SHADOW, when it is named, and to C: the state, and the elements saturated in staging and
in conversion. An ACC48 partial passes no output stage. -/
def writeColumn (s : State) (p : Prog) (t : TStep) (c : Tensor) (q : Tile) (n : Nat) (xs : List Elem) (late : List Word) :
    State × Nat × Nat :=
  let m := (tileM p).headD 0
  let staged := (List.range xs.length).zipWith (fun i x => outElem p.gn5 t q.exp (late[i]?) x) xs
  let wide := staged.countP (·.2)
  let h := tensorAt p.tensors t.cShadow
  let s := match h with
    | none => s
    | some h => writeEngine s (vecAddr h n + rowOffset h m) (staged.flatMap (fun w => leBytes 4 w.1.toNat))
  if c.fmt = 8 then (writePartial s c m n q xs, if h.isSome then wide else 0, 0)
  else
    let b := columnBytes t c q.exp m n xs (staged.map (·.1))
    (writeEngine s (vecAddr c n + rowOffset c m) b.1, wide, b.2)

/-- Every column of the tile. -/
def writeColumns (p : Prog) (t : TStep) (c : Tensor) (q : Tile) : State → List (Nat × List Elem × List Word) → State × Nat × Nat
  | s, [] => (s, 0, 0)
  | s, (n, xs, late) :: rest =>
    let a := writeColumn s p t c q n xs late
    let b := writeColumns p t c q a.1 rest
    (b.1, a.2.1 + b.2.1, a.2.2 + b.2.2)

/-! ### The precision sentinel (R172 to R174) -/

/-- A group of an 8-bit shadow: the manual states no reference for an invalid encoding (log 40). -/
def cleanGroup (n : Nat) (g : Group) : Group :=
  if g.bad then ⟨Config.openResult n % 255, (List.range 32).map (fun i => signed 8 (Config.openResult (n + 1 + i))), false⟩ else g

/-- The format and groups of some vectors of a reference operand: the shadow, an FP32 one converted to INT8 with RNE, or the
operand itself. -/
def refGroups (s : State) (ts : List Tensor) (x : Tensor) (shadow : Nat) (vs : List Nat) :
    Option (Nat × List (List Group)) × State :=
  match tensorAt ts shadow with
  | none => let r := readGroups s x vs; (r.1.map (x.fmt, ·), r.2)
  | some h =>
    let r := readVecs s h 0 (vecBytes h) vs
    (r.1.map (fun bs =>
      if h.fmt = 7 then
        (5, List.zipWith (fun v b =>
          decodeGroups 5 (convertVector 5 (fun _ => none) ((fpWords false (vecAddr h v) b).map Src.ofFp)).1) vs bs)
      else (h.fmt, List.zipWith (fun v b => (decodeGroups h.fmt b).map (cleanGroup (2 ^ 20 * vecAddr h v))) vs bs)),
     r.2)

/-- The exact value of a drained element; none when it is not finite. -/
def elemVal (exp : Int) (x : Elem) : Option Dyadic :=
  match x with
  | .acc v => some ⟨v, exp⟩
  | .fp w => if fpIsFinite w then some (fpVal w) else none

/-- One element of the comparison: the sums in FP64 (R173), the difference rounded to FP64 too: DESIGN CHOICE (log 78). -/
def sentElem (tile : Nat) (v : StepReport) (e : Option Dyadic × Dyadic) : StepReport :=
  match e.1 with
  | none => { v with sentOpen := true }
  | some x =>
    let d := fp64Round (x.sub e.2)
    let r := fp64Round e.2
    { v with
      sumD := fp64Round (v.sumD.add (fp64Round (d.mul d)))
      sumR := fp64Round (v.sumR.add (fp64Round (r.mul r)))
      maxD := v.maxD.maxOf d.abs
      sentWorst := if v.maxD.lt d.abs then tile else v.sentWorst }

/-- The tile is a sentinel tile, and its core allowed it when the program was taken (R172, R174, 17 R507). -/
def sentinelDue (s : State) (p : Prog) (t : TStep) : Bool :=
  t.op == 0 && t.sentN != 0 && p.tile % t.sentN == t.sentPhase &&
  p.sentAllow.getD (tileCore s t.coreMask p.tile) false

/-- Row-major pairs of narrow and reference values. -/
def sentPairs (rows : Nat) (q : Tile) (ref : Acc) : List (Option Dyadic × Dyadic) :=
  let cols := byColumns rows ref.vals
  (List.range rows).flatMap (fun m => List.zipWith (fun xs rs =>
    (elemVal q.exp (xs.getD m (.acc 0)), (⟨rs.getD m 0, ref.exp⟩ : Dyadic))) q.elems cols)

/-- The sentinel tile runs: the reference in ACC48 with the tile's preload, compared in row-major order; its replays and
saturations are counted (06 R217) in the registers only, not in the program's flags and status: DESIGN CHOICE (log 78). Then the
next tile. -/
def runSentinel (s : State) (p : Prog) (t : TStep) (a b : Tensor) (q : Tile) : State :=
  let ra := refGroups s p.tensors a t.aShadow (tileM p)
  let rb := refGroups ra.2 p.tensors b t.bShadow (tileN p)
  let rp := if biasLate t.outStage then (some [], rb.2) else readPreload rb.2 p { t with acc := 0 }
  match ra.1, rb.1, rp.1 with
  | some (fa, as), some (fb, bs), some pre =>
    let ref := acc48Tile fa fb as bs pre
    let c := tilePhys s t.coreMask p.tile
    let s := bump (bump rp.2 (coreReg c 0x310) ref.replays) (coreReg c 0x314) ref.saturated
    let p := modReport p (fun v =>
      (sentPairs as.length q ref).foldl (sentElem p.tile)
        { v with sentTiles := v.sentTiles + 1, sentWorst := if v.sentTiles = 0 then p.tile else v.sentWorst })
    nextTile s p
  | _, _, _ => progUnreadable rp.2 p

/-! ### The tile is written -/

/-- The late bias of each column; empty without one. -/
def readLate (s : State) (p : Prog) (t : TStep) : Option (List (List Word)) × State :=
  if t.op = 0 && biasLate t.outStage then readPreload s p t else (some [], s)

/-- The step with a finite OUT_SCALE, outside GN5 mode (log 40). -/
def cleanScale (p : Prog) (t : TStep) : TStep := { t with outScale := cleanWord (stepGn5 p.gn5 t) 0 t.outScale }

/-- Products that a written tile adds to FE_MAC (R178). -/
def tileProducts (p : Prog) (t : TStep) : Nat :=
  if t.op = 0 then (tileM p).length * (tileN p).length * (((tensorAt p.tensors t.a).map (·.kLen)).getD 0) else 0

/-- The counts of a written tile. -/
def countTile (s : State) (p : Prog) (t : TStep) (staged conv : Nat) : State × Prog :=
  let c := tilePhys s t.coreMask p.tile
  let s := bump64 (bump s (coreReg c 0x314) staged) (coreReg c 0x210) (tileProducts p t)
  let p := modReport p (fun v => { v with saturated := v.saturated + staged + conv })
  (s, if staged = 0 then p else { p with satTile := some (min p.tile (p.satTile.getD p.tile)) })

/-- The drained tile is written, and its sentinel runs when it has one. -/
def writeTile (s : State) (p : Prog) (t : TStep) (q : Tile) (late : List (List Word)) : State :=
  let cols := (List.range q.elems.length).map (fun k => ((tileN p).getD k 0, q.elems.getD k [], late.getD k []))
  let w := writeColumns p t ((tensorAt p.tensors t.c).getD default) q s cols
  let k := countTile w.1 p t w.2.1 w.2.2
  if sentinelDue k.1 k.2 t then
    runSentinel k.1 k.2 t ((tensorAt p.tensors t.a).getD default) ((tensorAt p.tensors t.b).getD default) q
  else nextTile k.1 k.2

/-- 06 R207, 05 R168: TILE_OUTPUT_WRITTEN. -/
def execTileOutputWritten (r : Req) (s : State) : Result :=
  .next (match findProg s r with
    | none => s
    | some p =>
      match p.drained with
      | none => s
      | some q =>
        if !tileRuns s p then s
        else
          let t := cleanScale p (curStep p)
          let l := readLate s p t
          match l.1 with
          | none => progUnreadable l.2 p
          | some late => writeTile l.2 p t q late)

end Sys2Proof.Machine
end

