-- ==== Sys2Proof/Machine/Drains.lean ====
section
/-!
DEFINITION. ACC_DRAIN: the fence and COMBINE (06 R198 to R201, R209 to R213, 11 R357, R358).
-/

namespace Sys2Proof.Machine

/-! ### The payload of a COMBINE (R357) -/

/-- The output fields, as those of a MATMUL step. -/
def combineStep (b : List Byte) : TStep :=
  { (default : TStep) with
    acc := u8 b 1, round := u8 b 2, outStage := u16 b 6, outScale := w32 b 8, roundSeed := w64 b 16 }

/-- C, C_SHADOW and PRELOAD; VECTORS 0 means none. -/
def combineTensor (b : List Byte) (off : Nat) : Option Tensor :=
  if u32 b (off + 12) = 0 then none else some (tensorOf (b.drop off))

/-- A part: its tensor, FIRST_BLOCK and BLOCK_COUNT. -/
structure Part where
  x : Tensor
  first : Nat
  count : Nat
deriving DecidableEq, Repr, Inhabited

/-- The parts in the order of FIRST_BLOCK (R200). -/
def combineParts (b : List Byte) : List Part :=
  sortBy (·.first) ((List.range (u8 b 3)).map (fun i =>
    ⟨tensorOf (b.drop (128 + 48 * i)), u32 b (160 + 48 * i), u32 b (164 + 48 * i)⟩))

/-- The parts cover blocks from `k` upward contiguously. -/
def contiguous : Nat → List Part → Bool
  | _, [] => true
  | k, p :: rest => p.first == k && p.count != 0 && contiguous (k + p.count) rest

/-- Blocks covered. -/
def blocksOf (ps : List Part) : Nat := (ps.map (·.count)).sum

/-- Parts not contiguous, overlapping, of different shapes or of wrong format, or too few or too many (0x0344). -/
def partsBad (b : List Byte) : Bool :=
  let ps := combineParts b
  decide (u8 b 3 < 2) || decide (64 < u8 b 3) || !contiguous 0 ps ||
  ps.any (fun p => p.x.fmt != (if u8 b 1 = 0 then 8 else 7) || !sameShape p.x (ps.headD default).x)

/-- Every descriptor named. -/
def combineTensors (b : List Byte) : List Tensor :=
  ([32, 64, 96].filterMap (combineTensor b)) ++ (combineParts b).map (·.x)

/-- A descriptor's field outside its range, its address aside. -/
def fieldsBad (t : Tensor) : Bool := tensorBad { t with addr := 0, vectors := min t.vectors 1, stride := 0 } ||
  decide (2 ^ 20 < t.vectors) || t.vectors == 0 || t.stride % 64 != 0

/-- A tensor's region lies outside the map or starts unaligned (R336). -/
def tensorOutside (t : Tensor) : Bool := t.addr % 64 != 0 || !inMap t.addr (tensorSize t)

/-- Ranges of the fields of a COMBINE. -/
def combineRangeBad (b : List Byte) : Bool :=
  let t := combineStep b
  decide (1 < t.acc) || decide (1 < t.round) || outStageBad t.outStage || (combineTensors b).any fieldsBad ||
  (combineTensor b 32).isNone || (combineTensor b 32).any (·.fmt == 8) || (combineTensor b 64).any (·.fmt != 7) ||
  (combineTensor b 96).any (fun x => x.fmt != 7 || (biasLate t.outStage && x.vectors != 1))

/-- C, C_SHADOW or PRELOAD is not shaped as the parts are (log 50). -/
def combineShapeBad (b : List Byte) : Bool :=
  let like := ((combineParts b).headD default).x
  (combineTensor b 32).any (fun x => !sameShape x like) || (combineTensor b 64).any (fun x => !sameShape x like) ||
  (combineTensor b 96).any (fun x => x.kLen != like.kLen || !(x.vectors == 1 || x.vectors == like.vectors))

/-- The reduction is longer than the accumulator's limit (R194, R200); GN5 mode enforces none (R213; log 50). -/
def combineTooLong (gn5 : Bool) (b : List Byte) : Bool :=
  decide ((if u8 b 1 = 0 then 2 ^ 20 else 16384) < 32 * blocksOf (combineParts b)) && !(gn5 && u8 b 1 == 1)

/-- Reserved fields, and those that the mode does not use. -/
def drainReserved (b : List Byte) : Bool :=
  if u8 b 0 = 0 then !allZero (slice b 1 3 ++ slice b 6 6)
  else if u8 b 0 = 1 then
    u32 b 12 != 0 || u64 b 24 != 0 || [32, 64, 96].any (fun o => tensorReserved (b.drop o)) ||
    (List.range (u8 b 3)).any (fun i => tensorReserved (b.drop (128 + 48 * i)) || u64 b (168 + 48 * i) != 0)
  else false

def drainLengthBad (b : List Byte) : Bool :=
  b.length != 16 && b.length != 128 + 48 * u8 b 3 || u8 b 0 == 0 && b.length != 16 || u8 b 0 == 1 && b.length == 16

/-- 06 R209, 11 R357, R358: ACC_DRAIN is checked and takes its place in the program order. -/
def execAccDrain (r : Req) (b : List Byte) (s : State) : Result :=
  let ctx := if u8 b 0 = 0 ∧ u32 b 12 ≠ 0 then some (ctxIndex (u32 b 12)) else none
  let md := modesOf s r 0x51
  serve s r 0x51 ctx none (fun s =>
    let gn5 := md.gn5
    let combine := u8 b 0 == 1
    checked s r 0x51
      [(drainLengthBad b, badLength), (drainReserved b, badReserved),
       (u8 b 0 == 0 && u32 b 12 != 0 && (ctxOf s (u32 b 12)).isNone, noContext),
       (decide (1 < u8 b 0) || (combine && combineRangeBad b), badRange),
       (combine && (combineTensors b).any tensorOutside, badRegion),
       (combine && [32, 64].any (fun o => (combineTensor b o).any (fun x => writeProtected s x.addr (tensorSize x))), badOverlap),
       (combine && partsBad b, .badParam, 0x0344), (combine && combineShapeBad b, badRange),
       (combine && combineTooLong gn5 b, .lengthLimit, 0x0342)] (fun s =>
      seamEvent { hold s r 0x51 ctx none md with drains := s.drains ++
        [{ r := r, combine := combine, payload := b, gn5 := gn5 && u8 b 1 == 1, repro := md.repro,
           cores := maskCores s (u16 b 4), ctx := ctx }] }))

/-! ### COMBINE (R200) -/

/-- A column of a part: its values with their exponent, REPLAYS and SATURATED. -/
structure PartColumn where
  vals : List Dyadic
  words : List Word
  replays : Nat
  saturated : Bool
deriving DecidableEq, Repr, Inhabited

/-- The column that a part's vector at an address holds. -/
def partColumn (gn5 : Bool) (x : Tensor) (a : Nat) (b : List Byte) : PartColumn :=
  if x.fmt = 8 then
    { vals := (List.range x.kLen).map (fun m => ⟨signed 64 (u64 b (8 + 8 * m)), signed 16 (u16 b 0)⟩), words := [],
      replays := u8 b 2, saturated := bitOf (u8 b 3) 0 == 1 }
  else { vals := [], words := fpWords gn5 a b, replays := 0, saturated := false }

/-- Reads column n of every part. -/
def readColumn (s : State) (gn5 : Bool) (n : Nat) : List Part → Option (List PartColumn) × State
  | [] => (some [], s)
  | p :: rest =>
    let r := readHbm s (vecAddr p.x n) (vecBytes p.x)
    match r.1 with
    | none => (none, r.2)
    | some b =>
      let q := readColumn r.2 gn5 n rest
      (q.1.map (partColumn gn5 p.x (vecAddr p.x n) b :: ·), q.2)

/-- Reads the columns in turn. -/
def readColumns (s : State) (gn5 : Bool) (ps : List Part) : List Nat → Option (List (List PartColumn)) × State
  | [] => (some [], s)
  | n :: rest =>
    let r := readColumn s gn5 n ps
    match r.1 with
    | none => (none, r.2)
    | some c =>
      let q := readColumns r.2 gn5 ps rest
      (q.1.map (c :: ·), q.2)

/-- The addends of each element of a column, the preload's included, and T_c (R200). -/
def combineAddends (rows : Nat) (ps : List PartColumn) (pre : List Word) : List (List Dyadic) × Int :=
  ((List.range rows).map (fun m => ps.map (fun p => p.vals.getD m .zero) ++ ((pre[m]?).map fpVal).toList),
   minExp (ps.flatMap (fun p => (p.vals.take 1).map (·.e))))

/-- The combined tile in ACC48: columns with their exponents, the replays of the whole tile, the elements saturated. -/
def combineAcc (cols : List (List (List Dyadic) × Int)) : List Acc × Nat :=
  let up := fun (r : Nat) (c : List (List Dyadic) × Int) => overflows (c.2 + 8 * (r : Nat)) c.1
  match [0, 1, 2, 3].find? (fun r => !cols.any (up r)) with
  | some r => (cols.map (fun c => { exp := c.2 + 8 * (r : Nat), replays := r, sats := c.1.map (fun _ => false),
                                    vals := sumsAt (c.2 + 8 * (r : Nat)) c.1 }), r)
  | none => (cols.map (fun c =>
      let vs := sumsAt (c.2 + 24) c.1
      { exp := c.2 + 24, replays := 3, sats := vs.map (fun v => !in48 v), vals := vs.map saturate48 }), 3)

/-- One FP32 element: the tree over the parts, then the preload. -/
def combineFp (gn5 : Bool) (ps : List PartColumn) (pre : Option Word) (m : Nat) : FpAcc :=
  let root := fpTree gn5 7 (ps.map (fun p => (p.words.getD m 0, false)))
  match pre with
  | some w => fpPlus gn5 (w, false) root
  | none => root

/-- The preload words of every column. -/
def combinePreload (s : State) (gn5 : Bool) (b : List Byte) (n : Nat) : Option (List (List Word)) × State :=
  match combineTensor b 96 with
  | none => (some (List.replicate n []), s)
  | some x =>
    let r := readVecs s x 0 (vecBytes x) (List.range x.vectors)
    (r.1.map (fun bs => (List.range n).map (fun k =>
      let v := if x.vectors = 1 then 0 else k
      fpWords gn5 (vecAddr x v) (bs.getD v []))), r.2)

/-- Writes one combined column to C_SHADOW and C; the elements saturated in staging and in conversion. -/
def combineWrite (s : State) (d : Drain) (t : TStep) (n : Nat) (exp : Int) (xs : List Elem) (late : List Word) :
    State × Nat × Nat :=
  let staged := (List.range xs.length).zipWith (fun i x => outElem d.gn5 t exp (late[i]?) x) xs
  let s := match combineTensor d.payload 64 with
    | none => s
    | some h => writeEngine s (vecAddr h n) (staged.flatMap (fun w => leBytes 4 w.1.toNat))
  let c := (combineTensor d.payload 32).getD default
  let b := columnBytes t c exp 0 n xs (staged.map (·.1))
  (writeEngine s (vecAddr c n) b.1, staged.countP (·.2), b.2)

/-- Writes every column; the counts of both kinds added up. -/
def combineWrites (d : Drain) (t : TStep) : State → List (Nat × Int × List Elem × List Word) → State × Nat × Nat
  | s, [] => (s, 0, 0)
  | s, (n, exp, xs, late) :: rest =>
    let a := combineWrite s d t n exp xs late
    let b := combineWrites d t a.1 rest
    (b.1, a.2.1 + b.2.1, a.2.2 + b.2.2)

/-- The combined columns before the output stage: exponent and elements, the elements saturated and the replays. -/
def combineTile (d : Drain) (t : TStep) (rows : Nat) (cols : List (List PartColumn)) (pre : List (List Word)) :
    List (Int × List Elem) × Nat × Nat :=
  let early := fun k => if biasLate t.outStage then [] else pre.getD k []
  if t.acc = 0 then
    let a := combineAcc ((List.range cols.length).zipWith (fun k c => combineAddends rows c (early k)) cols)
    (a.1.map (fun x => (x.exp, x.vals.map Elem.acc)), (a.1.map (·.saturated)).sum, a.2)
  else
    let es := (List.range cols.length).zipWith (fun k c => (List.range rows).map (fun m => combineFp d.gn5 c ((early k)[m]?) m)) cols
    (es.map (fun col => (0, col.map (fun e => Elem.fp e.1))), (es.map (·.countP (·.2))).sum, 0)

/-- COMBINE replies (R185, R200, R357). -/
def combineReply (s : State) (d : Drain) (sat conv replays : Nat) (cols : List (List PartColumn)) : State :=
  let partSat := cols.any (·.any (·.saturated))
  let partReplay := cols.any (·.any (fun p => p.replays != 0))
  let bytes := leBytes 4 (sat + conv) ++ leBytes 1 replays ++ zeros 3
  let flags := if replays ≠ 0 ∨ partReplay then flagReplayed else 0
  if sat ≠ 0 ∨ partSat then reply s d.r 0x51 .overflowSaturated 0x0343 bytes flags else reply s d.r 0x51 .ok 0 bytes flags

/-- The combination: parts in the order of FIRST_BLOCK, the output stage, the counts of the lowest core named (log 50). -/
def combine (s : State) (d : Drain) : State :=
  let b := d.payload
  let t := { combineStep b with outScale := cleanWord d.gn5 0 (combineStep b).outScale }
  let like := ((combineParts b).headD default).x
  let rc := readColumns s d.gn5 (combineParts b) (List.range like.vectors)
  let rp := combinePreload rc.2 d.gn5 b like.vectors
  match rc.1, rp.1 with
  | some cols, some pre =>
    let q := combineTile d t like.kLen cols pre
    let late := fun k => if biasLate t.outStage then pre.getD k [] else []
    let w := combineWrites d t rp.2
      ((List.range q.1.length).zipWith (fun n c => (n, c.1, c.2, late n)) q.1)
    let c := (physOf s (d.cores.find? (fun l => (physOf s l).isSome) |>.getD 0)).getD 0
    let s := bump (bump w.1 (coreReg c 0x310) q.2.2) (coreReg c 0x314) (q.2.1 + w.2.1)
    combineReply s d (q.2.1 + w.2.1) w.2.2 q.2.2 cols
  | _, _ => reply rp.2 d.r 0x51 .dataError 0x0307

/-- 06 R209 to R211: ACC_DRAIN_COMPLETE: a fence replies, a COMBINE combines and replies. -/
def execAccDrainComplete (r : Req) (s : State) : Result :=
  .next (match s.drains.find? (fun d => d.r == r) with
    | none => s
    | some d =>
      if !engineOn s || fenceWaits s d then s
      else
        let s := { s with drains := s.drains.filter (fun e => !(e.r == r)) }
        if d.combine then combine s d else reply s r 0x51 .ok)

end Sys2Proof.Machine
end

