-- ==== Sys2Proof/Machine/RegCommands.lean ====
section
/-!
DEFINITION. The register commands and the register accesses that are rows of their own (11 R342, R343, 17 R500 to R517).
-/

namespace Sys2Proof.Machine

/-! ### Commands (11 R342, R343) -/

/-- The word lies in an always-on block of R519 (15 R474). -/
def alwaysOnReg (a : Nat) : Bool :=
  (0x1000 ≤ a && a < 0x2000) || (0x3000 ≤ a && a < 0x8000) || (0x50000 ≤ a && a < 0x51000)

/-- The word lies in an indirect region that is powered in every state (R516). -/
def alwaysOnInd (a : Nat) : Bool :=
  a < 0x10000 || (0x240000 ≤ a && a < 0x250000) || (0x300000 ≤ a && a < 0x301000) || (0x400000 ≤ a && a < 0x401000) ||
  (0x800000 ≤ a && a < 0xE00000)

/-- Every word that a register command names may be served before START_DONE (15 R474). -/
def earlyWords (payload : List Byte) (indirect : Bool) : Bool :=
  (List.range (u16 payload 4)).all (fun k => (if indirect then alwaysOnInd else alwaysOnReg) (u32 payload 0 + 4 * k))

/-- Reads `n` words from an address on a path, up to the first that fails. -/
def readMany : Nat → State → Nat → Nat → Bool → List Byte × Option (Status × Nat) × State
  | 0, s, _, _, _ => ([], none, s)
  | n + 1, s, p, a, ind =>
    let r := if ind then indAccess s p none else readReg s p a
    match r.1 with
    | .error e => ([], some e, r.2)
    | .ok (v, s) =>
      let rest := readMany n s p (a + 4) ind
      (leBytes 4 v ++ rest.1, rest.2)

/-- Writes words from an address on a path, up to the first that fails: how many were done. -/
def writeMany : List Nat → State → Nat → Nat → Bool → Nat × Option (Status × Nat) × State
  | [], s, _, _, _ => (0, none, s)
  | v :: rest, s, p, a, ind =>
    let r := if ind then indAccess s p (some v) else writeReg recover s p a v 0
    match r.1 with
    | .error e => (0, some e, r.2)
    | .ok (_, s) =>
      let more := writeMany rest s p (a + 4) ind
      (more.1 + 1, more.2)

/-- REG_READ_IND and REG_WRITE_IND load the path's IND_ADDR (R515); its low two bits and bits above 23 are no address bits. -/
def loadInd (s : State) (p a : Nat) (ind : Bool) : State :=
  if ind then modPath s p (fun q => { q with indAddr := a % 2 ^ 32 }) else s

/-- The words of a write's payload. -/
def payloadWords (p : List Byte) : List Nat := (List.range ((p.length - 8) / 4)).map (fun k => u32 p (8 + 4 * k))

/-- A register read on a session's path. -/
def regReadCmd (r : Req) (p : List Byte) (op : Nat) (ind : Bool) (s : State) : Result :=
  match r.session with
  | none => .next s
  | some k =>
    serveEarly s r op (earlyWords p ind) true (fun s =>
      let n := u16 p 4
      checked s r op
        [(p.length != 8, badLength), (!allZero (slice p 6 2), badReserved), (decide (n < 1 ∨ 256 < n), badRange)] (fun s =>
        let got := readMany n (loadInd s k (u32 p 0) ind) k (u32 p 0) ind
        let e := got.2.1.getD (.ok, 0)
        reply got.2.2 r op e.1 e.2 (leBytes 4 (got.1.length / 4) ++ got.1)))

/-- A register write on a session's path; its own end is a command boundary (R504). -/
def regWriteCmd (r : Req) (p : List Byte) (op : Nat) (ind : Bool) (s : State) : Result :=
  match r.session with
  | none => .next s
  | some k =>
    serveEarly s r op (earlyWords p ind) true (fun s =>
      let n := u16 p 4
      checked s r op
        [(decide (p.length < 8) || p.length != 8 + 4 * n, badLength), (!allZero (slice p 6 2), badReserved),
         (decide (n < 1 ∨ 256 < n), badRange)] (fun s =>
        let done := writeMany (payloadWords p) (loadInd s k (u32 p 0) ind) k (u32 p 0) ind
        let e := done.2.1.getD (.ok, 0)
        reply (commandBoundary done.2.2) r op e.1 e.2 (leBytes 4 done.1)))

/-- 11 R342: REG_READ. -/
def execRegRead (r : Req) (p : List Byte) (s : State) : Result := regReadCmd r p 0x10 false s

/-- 11 R343: REG_WRITE. -/
def execRegWrite (r : Req) (p : List Byte) (s : State) : Result := regWriteCmd r p 0x11 false s

/-- 17 R515: REG_READ_IND. -/
def execRegReadInd (r : Req) (p : List Byte) (s : State) : Result := regReadCmd r p 0x12 true s

/-- 17 R515: REG_WRITE_IND. -/
def execRegWriteInd (r : Req) (p : List Byte) (s : State) : Result := regWriteCmd r p 0x13 true s

/-! ### Accesses -/

/-- The path exists: an open session's, or the sideband's; and the register fabric is out of reset. -/
def pathOpen (s : State) (p : Nat) : Bool :=
  (p == 8 || (decide (p < 8) && (session s p).isOpen)) && frontEndOn s

/-- A write access on a path. -/
def accessWrite (s : State) (p a : Nat) (v hw : Word) : State :=
  if pathOpen s p then afterAccess (writeReg recover s p a v.toNat hw.toNat) else s

/-- A read access on a path. -/
def accessRead (s : State) (p a : Nat) : State := if pathOpen s p then afterAccess (readReg s p a) else s

/-- 17 R514: MUZZLE. -/
def execMuzzle (p : Nat) (v : Word) (s : State) : Result := .next (accessWrite s p 0x5008 v 0)

/-- 17 R514: MUZZLE_ARM_EXPIRY. -/
def execMuzzleArmExpiry (p : Nat) (s : State) : Result :=
  .next (if (path s p).armed then modPath s p (fun q => { q with armed := false }) else s)

/-- 17 R515: IND_DATA. -/
def execIndData (p : Nat) (v : Option Word) (s : State) : Result :=
  .next (match v with
    | some w => accessWrite s p 0x50004 w 0
    | none => accessRead s p 0x50004)

/-- 17 R509: LO_WORD_READ. -/
def execLoWordRead (p a : Nat) (s : State) : Result := .next (if (pairHigh a).isSome then accessRead s p a else s)

/-- 17 R510: SEC_CHALLENGE0. -/
def execSecChallenge0 (p : Nat) (s : State) : Result := .next (accessRead s p 0x5040)

/-- 14 R451: FETCH_STATUS_KEPT. -/
def execFetchStatusKept (p : Nat) (v : Word) (s : State) : Result := .next (accessWrite s p 0x2024 v 0)

/-- 16 R481: SEC_RECOVER. -/
def execSecRecover (p : Nat) (v : Word) (s : State) : Result := .next (accessWrite s p 0x5018 v 0)

/-- 17 R505: REGISTER_WRITE. -/
def execRegisterWrite (p a : Nat) (v hw : Word) (s : State) : Result := .next (accessWrite s p a v hw)

/-- 17 R504: COMMAND_BOUNDARY. -/
def execCommandBoundary (s : State) : Result := .next (commandBoundary s)

end Sys2Proof.Machine
end

