-- ==== Sys2Proof/Machine/Sideband.lean ====
section
/-!
DEFINITION. The sideband target, its I3C commands and the test access port (18 R537, R538, R540).
-/

namespace Sys2Proof.Machine

/-! ### Transactions (R538) -/

/-- The target responds: powered and RST_N deasserted (15 R470). -/
def targetOn (s : State) : Bool := s.power.phase != .off && !s.power.rstN

/-- A reply of the sideband. -/
def sideReply (s : State) (bytes : List Byte) : State :=
  { s with side := { s.side with reply := bytes }, out := .sideband bytes :: s.out }

/-- One transaction with the number of bytes its command takes: a wrong PEC in SMBus mode, or another byte count, is
answered BAD_PACKET. -/
def transaction (s : State) (bytes : List Byte) (pecOk : Bool) (size : Nat) (f : State → State) : State :=
  if !targetOn s then s
  else if bytes.length != size || (s.side.dynamic.isNone && !pecOk) then sideReply s [BitVec.ofNat 8 Status.badPacket.code]
  else f s

/-- The reply of a read access: status and value, 0 when it failed. -/
def sideRead (r : Access × State) : State :=
  match r.1 with
  | .ok (v, s) => sideReply s (leBytes 1 Status.ok.code ++ leBytes 4 v)
  | .error e => sideReply r.2 (leBytes 1 e.1.code ++ zeros 4)

/-- The reply of a write access. -/
def sideWrite (r : Access × State) : State :=
  match r.1 with
  | .ok (_, s) => sideReply s (leBytes 1 Status.ok.code)
  | .error e => sideReply r.2 (leBytes 1 e.1.code)

/-- R538: SIDEBAND_REG_READ. -/
def execSidebandRegRead (b : List Byte) (pecOk : Bool) (s : State) : Result :=
  .next (transaction s b pecOk 4 (fun s => sideRead (readReg s 8 (u32 b 0))))

/-- R538: SIDEBAND_REG_WRITE. -/
def execSidebandRegWrite (b : List Byte) (pecOk : Bool) (s : State) : Result :=
  .next (transaction s b pecOk 8 (fun s => sideWrite (writeReg recover s 8 (u32 b 0) (u32 b 4) 0)))

/-- R538: IND_READ. -/
def execIndRead (b : List Byte) (pecOk : Bool) (s : State) : Result :=
  .next (transaction s b pecOk 4 (fun s => sideRead (indAccess (loadInd s 8 (u32 b 0) true) 8 none)))

/-- R538: IND_WRITE. -/
def execIndWrite (b : List Byte) (pecOk : Bool) (s : State) : Result :=
  .next (transaction s b pecOk 8 (fun s => sideWrite (indAccess (loadInd s 8 (u32 b 0) true) 8 (some (u32 b 4)))))

/-- R538: TELEMETRY: the input is measured anew (log 24). -/
def execTelemetry (b : List Byte) (pecOk : Bool) (s : State) : Result :=
  .next (transaction s b pecOk 0 (fun s =>
    let mv := Config.inputSample s.free 0
    let ma := Config.inputSample s.free 1
    let mw := Config.inputSample s.free 2
    let t := ((viewReg s false 0x1018).getD 0)
    sideReply { s with free := s.free + 1 }
      (leBytes 1 Status.ok.code ++ leBytes 2 mv ++ leBytes 2 ma ++ leBytes 2 (mw / 1000) ++ leBytes 1 (pwrStatus s) ++ leBytes 4 t ++
       leBytes 2 (faultStatus s))))

/-- The target's static address (R537). -/
def staticAddress (s : State) : Nat := 0x50 + s.power.joinId.toNat

/-- R537: ALERT_RESPONSE: while ALERT_N is asserted the SMBus target answers with its static address. -/
def execAlertResponse (s : State) : Result :=
  .next (if targetOn s && s.side.dynamic.isNone && alertN s then sideReply s [BitVec.ofNat 8 (2 * staticAddress s)] else s)

/-! ### I3C (R537) -/

/-- R537: SETDASA. -/
def execSetdasa (a : BitVec 7) (s : State) : Result :=
  .next (if targetOn s then { s with side := { s.side with dynamic := some a } } else s)

/-- R537: ENTDAA assigns an address to a target that has none. -/
def execEntdaa (a : BitVec 7) (s : State) : Result :=
  .next (if targetOn s && s.side.dynamic.isNone then { s with side := { s.side with dynamic := some a } } else s)

/-- R537: RSTDAA returns the target to SMBus operation. -/
def execRstdaa (s : State) : Result :=
  .next (if targetOn s then { s with side := { s.side with dynamic := none, ibi := false } } else s)

/-- An I3C common command read: answered by an I3C target only. -/
def i3cRead (s : State) (bytes : List Byte) : State := if targetOn s && s.side.dynamic.isSome then sideReply s bytes else s

/-- R537: GETPID. -/
def execGetpid (s : State) : Result := .next (i3cRead s (beBytes 6 Config.i3cPid.toNat))

/-- R537: GETBCR. -/
def execGetbcr (s : State) : Result := .next (i3cRead s [Config.i3cBcr])

/-- R537: GETDCR. -/
def execGetdcr (s : State) : Result := .next (i3cRead s [Config.i3cDcr])

/-- R537: GETSTATUS. -/
def execGetstatus (s : State) : Result := .next (i3cRead s (beBytes 2 (Config.i3cStatus (ofBool (alertN s))).toNat))

/-- R537: ENEC. -/
def execEnec (s : State) : Result :=
  .next (if targetOn s && s.side.dynamic.isSome then { s with side := { s.side with ibi := true } } else s)

/-- R537: DISEC. -/
def execDisec (s : State) : Result :=
  .next (if targetOn s && s.side.dynamic.isSome then { s with side := { s.side with ibi := false } } else s)

/-! ### Boundary scan (R540) -/

/-- How the selected instruction acts: EXTEST, CLAMP and HIGHZ take control of the pins only while RST_N is asserted and are
BYPASS otherwise. -/
def tapActing (s : State) : TapInstr :=
  if (s.tap.instr = .extest ∨ s.tap.instr = .clamp ∨ s.tap.instr = .highz) ∧ s.power.rstN = false then .bypass else s.tap.instr

/-- The IDCODE register; the stepping is 0 (log 7). -/
def idcodeWord : Nat := 0x073840C3

/-- An instruction is selected. -/
def tapSelect (s : State) (i : TapInstr) : State :=
  if s.power.phase = .off then s else { s with tap := { s.tap with instr := i } }

/-- R540: EXTEST. -/
def execExtest (s : State) : Result := .next (tapSelect s .extest)

/-- R540: SAMPLE_PRELOAD: the cells take the values shifted in. -/
def execSamplePreload (cells : List Bool) (s : State) : Result :=
  .next (if s.power.phase = .off then s
    else { tapSelect s .samplePreload with tap := { (tapSelect s .samplePreload).tap with cells := cells } })

/-- R540: IDCODE. -/
def execIdcode (s : State) : Result := .next (tapSelect s .idcode)

/-- R540: CLAMP. -/
def execClamp (s : State) : Result := .next (tapSelect s .clamp)

/-- R540: HIGHZ. -/
def execHighz (s : State) : Result := .next (tapSelect s .highz)

/-- R540: BYPASS. -/
def execBypass (s : State) : Result := .next (tapSelect s .bypass)

end Sys2Proof.Machine
end

