-- ==== Sys2Proof/Machine/TrailCommands.lean ====
section
/-!
DEFINITION. The Trail and the Fetch dump as commands and events (11 R364, R366, 14 R439 to R452).
-/

namespace Sys2Proof.Machine

/-! ### The Trail -/

/-- 14 R444: TRAIL_FREEZE: what waits to be written is discarded and counted as missed. -/
def freeze (s : State) : State :=
  if s.trail.frozen then s
  else { s with trail := { (s.trail.miss s.trail.waiting.length) with frozen := true, waiting := [] } }

/-- 11 R364: TRAIL_FREEZE. -/
def execTrailFreeze (r : Req) (p : List Byte) (s : State) : Result :=
  serveEarly s r 0x90 true true (fun s =>
    checked s r 0x90 [(p.length != 0, badLength)] (fun s =>
      let s := freeze s
      reply s r 0x90 .ok 0 (leBytes 8 s.trail.head ++ leBytes 8 s.trail.oldest)))

/-- 14 R444: TRAIL_THAW: recording resumes with one TRAIL_MISSED record that carries the count. -/
def thaw (s : State) : State :=
  if s.trail.frozen then
    let n := s.trail.missed
    let s := { s with trail := { s.trail with frozen := false, missed := 0 } }
    enqueueRec s (newRec s 0x0800 0 unitHandler 0 n false [])
  else s

/-- 11 R364: TRAIL_THAW. -/
def execTrailThaw (r : Req) (p : List Byte) (s : State) : Result :=
  serveEarly s r 0x92 true true (fun s =>
    checked s r 0x92 [(p.length != 0, badLength)] (fun s =>
      reply (thaw s) r 0x92 .ok 0 (leBytes 4 (if s.trail.frozen then s.trail.missed else 0))))

/-- The HBM address of a spilled record (14 R439). -/
def spillAddr (seq : Nat) : Nat := spillBase + seq % 2 ^ 20 * 64

/-- A record by SEQ: from the ring, or from the spill region, where one with an unreadable word reads as zeros (R444). -/
def recordAt (s : State) (seq : Nat) : List Byte × State :=
  if s.trail.ringFirst ≤ seq then
    (match s.trail.ring.find? (fun x => x.seq == seq) with
      | some x => (x.bytes, s)
      | none => (zeros 64, s))
  else
    let got := readHbm s (spillAddr seq) 64
    (got.1.getD (zeros 64), got.2)

/-- `n` records from a SEQ upward. -/
def recordsFrom : Nat → Nat → State → List Byte × State
  | 0, _, s => ([], s)
  | n + 1, seq, s =>
    let got := recordAt s seq
    let rest := recordsFrom n (seq + 1) got.2
    (got.1 ++ rest.1, rest.2)

/-- 11 R364, R366: TRAIL_READ: the range of records before the state of the Trail, as R335 orders them. -/
def execTrailRead (r : Req) (p : List Byte) (s : State) : Result :=
  serveEarly s r 0x91 (trailOnDie s p) (trailOnDie s p) (fun s =>
    let first := u64 p 0
    let n := u16 p 8
    checked s r 0x91
      [(p.length != 16, badLength), (!allZero (slice p 10 6), badReserved), (decide (n < 1 ∨ 127 < n), badRange),
       (decide (s.trail.oldest = 0 ∨ first < s.trail.oldest ∨ s.trail.head < first + n - 1), .badParam, 0x0371),
       (!s.trail.frozen, .notReady, 0x0370)] (fun s =>
      let got := recordsFrom n first s
      reply got.2 r 0x91 .ok 0 got.1))

/-- 14 R443: TRAIL_RECORD_WRITE: the event that waits longest is written. -/
def execTrailRecordWrite (s : State) : Result :=
  .next (match nextWaiting s.trail.waiting with
    | none => s
    | some x =>
      if s.trail.frozen then s
      else writeRec { s with trail := { s.trail with waiting := s.trail.waiting.dropLast } } x)

/-- 14 R439, R445: TRAIL_SPILL: waiting records are copied in order, unless HBM is in self-refresh or the Trail is frozen. -/
def execTrailSpill (s : State) : Result :=
  .next (if regBit s 0x3000 0 && !s.trail.frozen && hbmState s == 2 then
    let due := (s.trail.ring.filter (fun x => s.trail.spilled < x.seq)).reverse
    let s := each due s (fun s x => writeHbm s (spillAddr x.seq) x.bytes)
    { s with trail := { s.trail with spilled := s.trail.head } }
    else s)

/-- 14 R442: TRAIL_INTERVAL_END. -/
def execTrailIntervalEnd (key : IntervalKey) (s : State) : Result :=
  .next (match s.trail.intervals.find? (fun i => i.key == key) with
    | some i => if ended s i.opened (intervalMs key) then endInterval s key else s
    | none => s)

/-! ### The Fetch dump (14 R448 to R452) -/

/-- A section of the dump: type, unit, whether it is OMITTED, and its bytes. -/
structure DumpSection where
  kind : Nat
  unit : Nat
  omitted : Bool
  bytes : List Byte
deriving DecidableEq, Repr

/-- Bytes whose layout the manual does not give (log 22). -/
def openBytes (d : Dump) (base n : Nat) : List Byte := (List.range n).map (fun o => Config.dumpByte d.number (base + o))

/-- REGISTERS: every implemented register, ascending, read without side effects (R449). -/
def dumpRegisters (s : State) : List Byte :=
  (regAddrs.filter (fun a => (regInfo a).isSome)).flatMap (fun a => leBytes 4 a ++ leBytes 4 ((viewReg s false a).getD (regVal s a)))

/-- The scratchpad word at an address can be read (13 R410). -/
def spadReadable (s : State) (p a : Nat) : Bool :=
  wordOpen s (.spad p) a &&
    (match lookup s.spadMarks (markKey (.spad p) a) with
      | none | some .correctable => true
      | some _ => false)

/-- CORE: the scratchpad, each word that cannot be read written as zeros (R449). -/
def dumpSpad (s : State) (p : Nat) : List Byte :=
  (List.range (spadSize / 8)).flatMap (fun w =>
    if spadReadable s p (8 * w) then (List.range 8).map (fun b => lookupD s.spad (p * 2 ^ 26 + 8 * w + b) 0) else zeros 8)

/-- CORE: the word map of the scratchpad, whose bit w % 8 of byte w / 8 marks word w as one that cannot be read (R449, log 22). -/
def dumpSpadMap (s : State) (p : Nat) : List Byte :=
  (List.range (spadSize / 64)).map (fun b => BitVec.ofNat 8 (maskOf 8 (fun w => !spadReadable s p (8 * (8 * b + w)))))

/-- CORE: its header, schedule memory, accumulator file and state file, which are open, then its scratchpad with the word map;
the header alone where the core's memories are powered down (R449). -/
def dumpCore (s : State) (d : Dump) (p : Nat) (omitted : Bool) : List Byte :=
  let base := 2 ^ 26 * (p + 1)
  if omitted then openBytes d base 4096
  else openBytes d base ((4 + 128 + 256 + 1536) * 1024) ++ dumpSpad s p ++ dumpSpadMap s p

/-- The sections of the dump, in the order of R449. -/
def dumpSections (s : State) (d : Dump) : List DumpSection :=
  [⟨1, unitHandler, false, dumpRegisters s⟩,
   ⟨2, unitHandler, false, (s.trail.ring.reverse.flatMap Rec.bytes)⟩,
   ⟨3, unitHandler, false, openBytes d 0 (8 * 2 ^ 20)⟩,
   ⟨4, unitHandler, false, openBytes d (2 ^ 24) (64 * 1024)⟩,
   ⟨5, unitHandler, false, openBytes d (2 ^ 25) (2 * 2 ^ 20)⟩] ++
  (List.range 18).map (fun p =>
    let off := mapByte s.map p == 0xFF || !coresPowered s
    ⟨6, p, off, dumpCore s d p off⟩)

/-- Where the sections start: at multiples of 4 KiB after the directory. -/
def sectionStarts (first : Nat) : List DumpSection → List (Nat × DumpSection)
  | [] => []
  | x :: rest => (first, x) :: sectionStarts (first + roundUp x.bytes.length 4096) rest

/-- The directory entry of a section (R449). -/
def directoryEntry (e : Nat × DumpSection) : List Byte :=
  leBytes 2 e.2.kind ++ leBytes 2 (ofBool e.2.omitted) ++ leBytes 2 e.2.unit ++ zeros 2 ++ leBytes 8 e.1 ++
  leBytes 8 e.2.bytes.length ++ zeros 8

/-- The 256 bytes of the header (R448). -/
def dumpHeader (s : State) (d : Dump) (size count : Nat) (kept : Bool) (later : Nat) (digest : List Byte) (valid : Bool) : List Byte :=
  leBytes 4 0x46374E47 ++ leBytes 2 1 ++ leBytes 2 256 ++ leBytes 8 size ++ leBytes 2 d.cause ++ leBytes 2 d.unit ++
  leBytes 2 count ++ leBytes 1 (ofBool kept) ++ zeros 1 ++ leBytes 8 d.time ++ leBytes 8 d.trailSeq ++ leBytes 4 d.handlerFw ++
  leBytes 4 d.coreFw ++ leBytes 4 later ++ zeros 4 ++ fit 16 s.sec.otp.serial ++ digest ++ zeros 132 ++ leBytes 4 (ofBool valid)

/-- The dump after its header: directory and sections. -/
def dumpBody (es : List (Nat × DumpSection)) : List Byte :=
  let dir := es.flatMap directoryEntry
  es.foldl (fun b e => b ++ zeros (e.1 - 256 - b.length) ++ e.2.bytes) dir

/-- 14 R450, R451: FETCH_DUMP_DONE: the sections and the directory, then DIGEST, and VALID last; KEPT is set. -/
def execFetchDumpDone (s : State) : Result :=
  .next (let d := s.faults.dump
    if !d.writing then s
    else
      let es := sectionStarts 4096 (dumpSections s d)
      let body := dumpBody es
      let size := 256 + body.length
      let digest := sha384 (dumpHeader s d size es.length false 0 (zeros 48) false ++ body)
      let bytes := dumpHeader s d size es.length true 0 digest true ++ body
      let s := each (chunks (2 ^ 28) bytes).zipIdx s (fun s c => writeHbm s (fetchAddr (c.2 * 2 ^ 28)) c.1)
      { s with faults := { s.faults with dump := { d with writing := false, valid := true, kept := true, later := 0, size := size } } })

/-- Reads a part of the dump, stack by stack. -/
def readDump (s : State) (o n : Nat) : Option (List Byte) × State :=
  let room := 2 ^ 28 - o % 2 ^ 28
  if n ≤ room then readHbm s (fetchAddr o) n
  else
    let a := readHbm s (fetchAddr o) room
    let b := readHbm a.2 (fetchAddr (o + room)) (n - room)
    (a.1.bind (fun x => b.1.map (fun y => x ++ y)), b.2)

/-- 11 R364, R366, 14 R452: DUMP_READ. -/
def execDumpRead (r : Req) (p : List Byte) (s : State) : Result :=
  serve s r 0x93 none none (fun s =>
    let o := u64 p 0
    let n := u16 p 8
    let d := s.faults.dump
    checked s r 0x93
      [(p.length != 16, badLength), (!allZero (slice p 10 6), badReserved), (decide (n < 1 ∨ 8192 < n), badRange),
       (!d.valid || d.writing, .notReady, 0x0372), (decide (d.size < o + n), badRange)] (fun s =>
      let got := readDump s o n
      match got.1 with
      | some bytes => reply got.2 r 0x93 .ok 0 bytes
      | none => reply got.2 r 0x93 .dataError 0x0307))

end Sys2Proof.Machine
end

