-- ==== Sys2Proof/Machine/Privileged.lean ====
section
/-!
DEFINITION. Tokens and the privileged commands, attestation (11 R369, R370, 16 R483 to R494).
-/

namespace Sys2Proof.Machine

/-! ### Tokens (R484 to R486) -/

/-- What a token is presented for. -/
structure TokenUse where
  op : Nat
  arg : Nat
  digest : List Byte
deriving DecidableEq, Repr

/-- Every field of a token but the challenge matches the command and the module (R484). -/
def tokenFields (s : State) (t : List Byte) (u : TokenUse) : Bool :=
  u32 t 0 == 0x4B374E47 && u16 t 4 == 1 && u8 t 6 == u.op && decide (u8 t 7 < 2) && slice t 8 16 == fit 16 s.sec.otp.serial &&
  u64 t 72 == u.arg && slice t 80 48 == u.digest && allZero (slice t 276 12) && allZero (slice t 388 4) &&
  decide (1 ≤ u32 t 384 ∧ u32 t 384 ≤ 4096)

/-- The challenge matches: the module's own, or all zero for FW_STAGE and FW_ACTIVATE (R484, R486). -/
def tokenChallenge (s : State) (t : List Byte) (op : Nat) : Bool :=
  let c := slice t 24 48
  (allZero c && (op == 0xE0 || op == 0xE1)) || (s.ent.st != .failed && s.sec.challenge == some c)

/-- The keys carry the authority they claim (R485); a DEBUG_UNLOCK token fails while DEBUG_DISABLE is blown. -/
def tokenAuthority (s : State) (t : List Byte) (op : Nat) : Bool :=
  let o := s.sec.otp
  let g := settingsNow o
  let e := sha384 (slice t 128 96)
  let h := sha384 (slice t 224 52)
  !(op == 0xE3 && o.debugDisable) &&
  (if u8 t 7 = 0 then e == o.vendorEcdsaHash && h == o.vendorLmsHash && bitOf g.settings.toNat 0 == 1
   else e == fit 48 g.tokenEcdsaHash && h == fit 48 g.tokenLmsHash && !allZero g.tokenEcdsaHash && !allZero g.tokenLmsHash)

/-- The first test of R497 that a token fails. -/
def tokenTest (s : State) (t : List Byte) (u : TokenUse) : Option Nat :=
  if !tokenFields s t u then some 0
  else if !ecdsaOk (slice t 128 96) (sha384 (t.take 288)) (slice t 288 96) then some 1
  else if !hssOk (slice t 224 52) (t.take 288) (slice t 392 (u32 t 384)) then some 2
  else if !tokenChallenge s t u.op then some 3
  else if !tokenAuthority s t u.op then some 4
  else none

/-- A new challenge is drawn (R486). -/
def renewChallenge (s : State) : State := drawChallenge { s with sec := { s.sec with challenge := none } }

/-- A token is judged (R485, R497): whether it is accepted, and the state after; the challenge is drawn again once both
signatures have passed. -/
def judgeToken (s : State) (t : List Byte) (u : TokenUse) : Bool × State :=
  match tokenTest s t u with
  | some k =>
    let s := event s 0x0A03 2 unitSecurity 0 [BitVec.ofNat 8 u.op, BitVec.ofNat 8 k]
    (false, if 3 ≤ k then renewChallenge s else s)
  | none => (true, renewChallenge (event s 0x0A04 0 unitSecurity 0 [BitVec.ofNat 8 u.op, slice t 7 1 |>.headD 0]))

/-- The token at an address: its fixed part, then its HSS signature; none when a word is unreadable. -/
def readToken (s : State) (a : Nat) : Option (List Byte) × State :=
  let h := readHbm s a 392
  match h.1 with
  | none => (none, h.2)
  | some fixed =>
    let n := u32 fixed 384
    if n ≤ 4096 then
      let g := readHbm h.2 (a + 392) n
      (g.1.map (fun sig => fixed ++ sig), g.2)
    else (some fixed, h.2)

/-- A privileged command past its own checks: the token is read and judged, and `ok` runs when it is accepted. `data` is the
region the token's digest covers. -/
def withToken (s : State) (r : Req) (op tokenAddr arg : Nat) (data : Option (Nat × Nat)) (ok : State → List Byte → State) : State :=
  let t := readToken s tokenAddr
  match t.1 with
  | none => reply t.2 r op .dataError 0x0307
  | some token =>
    let d := match data with
      | some (a, n) => readHbm t.2 a n
      | none => (some [], t.2)
    match d.1 with
    | none => reply d.2 r op .dataError 0x0307
    | some bytes =>
      let digest := if data.isSome then sha384 bytes else zeros 48
      let j := judgeToken d.2 token ⟨op, arg, digest⟩
      if j.1 then ok j.2 bytes else reply j.2 r op .accessDenied 0x0390

/-- The checks of a token's region. -/
def tokenRegion (s : State) (a : Nat) : List (Bool × Status × Nat) := regionChecks s a 392 64 false

/-! ### FW_STAGE and FW_ACTIVATE (R483) -/

/-- The slot that did not boot takes the image. -/
def stageImage (s : State) (img : List Byte) : State :=
  if s.sec.bootB then { s with sec := { s.sec with slotA := img, staged := true, recovered := false } }
  else { s with sec := { s.sec with slotB := img, staged := true } }

/-- 16 R483: FW_STAGE. One that fails clears STAGED. -/
def execFwStage (r : Req) (p : List Byte) (s : State) : Result :=
  serve s r 0xE0 none none (fun s =>
    let s := { s with sec := { s.sec with staged := false } }
    let image := u64 p 8
    let len := u64 p 16
    checked s r 0xE0
      ([(p.length != 24, badLength), (decide (maxImage < len), badRange)] ++ tokenRegion s (u64 p 0) ++ regionChecks s image len 64 false)
      (fun s => withToken s r 0xE0 (u64 p 0) 0 (some (image, len)) (fun s img =>
        if !imageOk s.sec.otp img then reply s r 0xE0 .badParam 0x0392
        else if imageVersion img < s.sec.otp.rollback then reply s r 0xE0 .accessDenied 0x0391
        else reply (stageImage s img) r 0xE0 .ok)))

/-- 16 R483: FW_ACTIVATE. -/
def execFwActivate (r : Req) (p : List Byte) (s : State) : Result :=
  serve s r 0xE1 none none (fun s =>
    let mode := u8 p 8
    checked s r 0xE1
      ([(p.length != 16, badLength), (!allZero (slice p 9 7), badReserved), (decide (1 < mode), badRange)] ++ tokenRegion s (u64 p 0))
      (fun s => withToken s r 0xE1 (u64 p 0) mode none (fun s _ =>
        if !s.sec.staged then reply s r 0xE1 .notReady 0x0393
        else if mode = 1 ∧ workInProgress s then reply s r 0xE1 .contextBusy 0x0360
        else
          let s := reply { s with sec := { s.sec with activate := true } } r 0xE1 .ok
          if mode = 1 then { s with power := { s.power with resetDue := some 2 } } else s)))

/-! ### OTP_PROGRAM (R489) -/

/-- The data length of a FIELD. -/
def fieldLength (f : Nat) : Option Nat :=
  if 1 ≤ f ∧ f ≤ 4 then some 96
  else match f with
    | 0x10 => some 96
    | 0x11 => some 4
    | 0x20 => some 4
    | _ => none

/-- The data is a value that the FIELD takes. -/
def fieldValueOk (f : Nat) (d : List Byte) : Bool :=
  if f = 0x11 then decide (u32 d 0 < 2) else if f = 0x20 then u32 d 0 == 1 else true

/-- The setting that a FIELD changes. -/
def applyField (f : Nat) (d : List Byte) (g : Generation) : Generation :=
  if f = 0x10 then { g with tokenEcdsaHash := d.take 48, tokenLmsHash := d.drop 48 }
  else if f = 0x11 then { g with settings := w32 d 0 }
  else { g with operatorKeys := ((List.range 4).map (fun k => g.operatorKeys.getD k (zeros 96))).set (f - 1) d }

/-- 16 R489: OTP_PROGRAM. A fence generation that is due is written first (14 R435). -/
def execOtpProgram (r : Req) (p : List Byte) (s : State) : Result :=
  serve s r 0xE2 none none (fun s =>
    let f := u16 p 8
    let data := u64 p 16
    let len := (fieldLength f).getD 0
    checked s r 0xE2
      ([(p.length != 24, badLength), (!allZero (slice p 10 6), badReserved), ((fieldLength f).isNone, .badParam, 0x0394)] ++
       tokenRegion s (u64 p 0) ++ regionChecks s data len 64 false)
      (fun s => withToken s r 0xE2 (u64 p 0) f (some (data, len)) (fun s d =>
        let s := if s.faults.otpPending.isSome ∧ gensUsed s.sec.otp < 4 then fenceOtpWritten s false else s
        let o := s.sec.otp
        if !fieldValueOk f d then reply s r 0xE2 .badParam 0x0306
        else if f = 0x20 then
          if o.debugDisable then reply s r 0xE2 .badParam 0x0394
          else
            let s := { s with sec := { s.sec with otp := { o with debugDisable := true } } }
            reply (event s 0x0A05 0 unitSecurity 0 (leBytes 2 f ++ [0, 0])) r 0xE2 .ok
        else if 4 ≤ gensUsed o then reply s r 0xE2 .badParam 0x0394
        else
          let s := { s with sec := { s.sec with otp := writeGeneration o false (applyField f d) } }
          reply (event s 0x0A05 0 unitSecurity 0 (leBytes 2 f ++ leBytes 1 (gensUsed o + 1) ++ [0])) r 0xE2 .ok)))

/-! ### DEBUG_UNLOCK (R494) -/

/-- 16 R494: DEBUG_UNLOCK. -/
def execDebugUnlock (r : Req) (p : List Byte) (s : State) : Result :=
  serve s r 0xE3 none none (fun s =>
    let features := u32 p 8
    checked s r 0xE3
      ([(p.length != 16, badLength), (!allZero (slice p 12 4), badReserved), (decide (15 < features), badRange)] ++ tokenRegion s (u64 p 0))
      (fun s => withToken s r 0xE3 (u64 p 0) features none (fun s _ =>
        let o := s.sec.otp
        if 32 ≤ o.debugUnlocks then reply s r 0xE3 .accessDenied 0x0390
        else
          let s := { s with sec := { s.sec with
            otp := { o with debugUnlocks := o.debugUnlocks + 1 }
            debug := s.sec.debug ||| BitVec.ofNat 4 features
            debugUnlocked := true } }
          reply (event s 0x0A06 1 unitSecurity 0 (leBytes 4 features ++ leBytes 1 (o.debugUnlocks + 1))) r 0xE3 .ok)))

/-! ### ATTEST (R491 to R493) -/

/-- The leaf that signs the next report, with the fuse blown when it begins a bottom tree (R491); none once all are used. -/
def nextLeaf (s : State) : Option (Nat × Nat) × State :=
  let fresh := if s.sec.otp.leavesUsed < 4096 then
      let k := s.sec.otp.leavesUsed
      let s := { s with sec := { s.sec with otp := { s.sec.otp with leavesUsed := k + 1 }, hss := some (k, 1) } }
      (some (k, 0), event s 0x0A08 0 unitSecurity 0 (leBytes 2 k))
    else (none, s)
  match s.sec.hss with
  | some (top, b) => if b < 1024 then (some (top, b), { s with sec := { s.sec with hss := some (top, b + 1) } }) else fresh
  | none => fresh

/-- Bytes 0 to 255 of the report. -/
def reportBody (s : State) (nonce own : List Byte) (leaf : Option (Nat × Nat)) : List Byte :=
  let c := s.sec
  let img := runningImage s
  let flags := ofBool leaf.isSome + 2 * ofBool c.debugUnlocked + 4 * ofBool (c.otp.debugUnlocks != 0) +
    8 * ofBool (c.recovered && !c.bootB) + 16 * ofBool (fenceVol s != 0)
  let settings := match newestGen c.otp with
    | some g => sha384 g.2.bytes
    | none => zeros 48
  leBytes 4 0x41374E47 ++ leBytes 2 1 ++ leBytes 2 flags ++ fit 16 c.otp.serial ++ nonce ++ own ++ sha384 (handlerSection img).body ++
  settings ++ leBytes 4 (handlerSection img).version ++ leBytes 4 (coreSection img).version ++ leBytes 1 (imageVersion img) ++
  leBytes 1 c.otp.rollback ++ leBytes 1 (active s) ++ leBytes 1 c.otp.debugUnlocks ++
  leBytes 2 (match leaf with
    | some l => l.1
    | none => 0xFFFF) ++
  leBytes 2 (match leaf with
    | some l => l.2
    | none => 0) ++
  leBytes 8 (trailTime s).1 ++ leBytes 1 s.power.resetKind ++ zeros 15

/-- R491 to R493: the report of an ATTEST whose nonce has been drawn. -/
def finishAttest (s : State) (r : Req) (payload own : List Byte) : State :=
  let l := nextLeaf s
  let s := l.2
  let body := reportBody s (payload.take 48) own l.1
  let sig := beBytes 96 (Config.ecdsaSign s.sec.otp.identityKey (sha384 body) s.free).toNat
  let s := { s with free := s.free + 1 }
  match l.1 with
  | some (top, b) =>
    reply s r 0xE4 .ok 0 (body ++ sig ++ leBytes 4 3100 ++ zeros 4 ++
      (List.range 3100).map (Config.hssSigByte s.sec.otp.hssSeed body top b))
  | none => reply s r 0xE4 .attestPqExhausted 0 (body ++ sig ++ zeros 8)

/-- 16 R491: ATTEST waits for its nonce, drawn at consumer order 2 (07 R244, R246). -/
def execAttest (r : Req) (p : List Byte) (s : State) : Result :=
  serve s r 0xE4 none none (fun s =>
    checked s r 0xE4 [(p.length != 52, badLength), (!allZero (slice p 48 4), badReserved)] (fun s =>
      if s.ent.st = .failed then reply s r 0xE4 .entropyFailed
      else
        let s := hold s r 0xE4 none none
        { s with ent := { s.ent with queue := s.ent.queue ++ [⟨.attest r p, 48, []⟩] } }))

end Sys2Proof.Machine
end

