-- ==== Sys2Proof/Machine/Entropy.lean ====
section
/-!
DEFINITION. The entropy block: noise sources, conditioning, the DRBG, ENTROPY_GET (07 R238 to R250). Samples of the noise sources
come with the commands that take them (log 11); DRBG_GENERATE stands with the runs that it seeds, in Machine/Seeding.lean.
-/

namespace Sys2Proof.Machine

def modEnt (s : State) (f : Entropy → Entropy) : State := { s with ent := f s.ent }

/-- The always-on domain is out of reset. -/
def entropyOn (s : State) : Bool :=
  s.power.phase != .off && s.power.phase != .reset && s.power.phase != .tripped

def sourceAt (e : Entropy) (n : Nat) : SourceState := e.sources.getD n .fenced

/-! ### ENTROPY_GET (R244, R245, 11 R361) -/

def isHost (q : EntReq) : Bool :=
  match q.what with
  | .host _ => true
  | _ => false

/-- An ENTROPY_GET that completes with BUSY: ENT_EVENTS.HOST_BUSY, and a retry-after hint of at least 10 us (R245; log 20). -/
def hostBusy (s : State) (r : Req) : State :=
  replyBusy (orReg { s with free := s.free + 1 } 0x4008 16) r 0x70 0 (10 + Config.retryEstimate s.free)

/-- 07 R244, R245: ENTROPY_GET. -/
def execEntropyGet (r : Req) (p : List Byte) (s : State) : Result :=
  serve s r 0x70 none none (fun s =>
    checked s r 0x70
      [(p.length != 4, badLength),
       (u16 p 2 != 0, badReserved),
       (u16 p 0 == 0 || decide (1024 < u16 p 0), badRange),
       (!regBit s 0x400C 0, (.accessDenied, 0)),
       (s.ent.st == .failed, (.entropyFailed, 0)),
       (s.ent.st != .ready, (.entropyNotReady, 0))] (fun s =>
        if 64 ≤ hostWaiting s then hostBusy s r
        else if regField s 0x400C 8 8 = 0 ∧ (!s.ent.queue.isEmpty || reseedDue s) then hostBusy s r
        else modEnt (hold s r 0x70 none none) (fun e => { e with queue := e.queue ++ [⟨.host r, u16 p 0, []⟩] })))

/-- 07 R245: HOST_WAIT_EXPIRY. -/
def execHostWaitExpiry (r : Req) (s : State) : Result :=
  .next (if s.ent.queue.any (fun q => q.what == .host r) then
      hostBusy (modEnt s (fun e => { e with queue := eraseFirst (fun q => q.what == .host r) e.queue })) r
    else s)

/-! ### Health (R239, R240, R247, R248) -/

/-- A waiting request completes with ENTROPY_FAILED and delivers nothing; one for a challenge has no reply. -/
def failDraw (s : State) (d : Draw) : State :=
  match d with
  | .session r _ => reply s r 0x03 .entropyFailed
  | .attest r _ => reply s r 0xE4 .entropyFailed
  | .challenge => s
  | .seed r op _ _ => reply s r op .entropyFailed
  | .host r => reply s r 0x70 .entropyFailed

/-- Requests that a health-test failure ends: ENTROPY_GETs and run seeds (R247). -/
def endsOnHalt (q : EntReq) : Bool :=
  match q.what with
  | .seed _ _ _ _ => true
  | .host _ => true
  | _ => false

/-- Completes the waiting requests that pass a test with ENTROPY_FAILED; the others keep waiting, their bytes discarded. -/
def failDraws (s : State) (p : EntReq → Bool) : State :=
  let gone := s.ent.queue.filter p
  let s := modEnt s (fun e => { e with queue := (e.queue.filter (fun q => !p q)).map (fun q => { q with got := [] }) })
  each gone s (fun s q => failDraw s q.what)

/-- What every failure of the block does in its cycle (R247): output stops, the DRBG is zeroised, requests of orders 3 and 4
fail, the block is HALTED, ENT_EVENTS and the Trail record it. -/
def haltBlock (s : State) (source test : Nat) : State :=
  let s := modEnt s (fun e => { e with st := .halted, outputs := [], instantiated := false, drbg := drbgZero })
  let s := event (orReg s 0x4008 2) 0x0400 2 unitEntropy 0 [BitVec.ofNat 8 source, BitVec.ofNat 8 test]
  failDraws s endsOnHalt

/-- A source has failed once (R239): a fuse is blown, and it restarts, or is fenced with its third; with fewer than two
unfenced sources left the block is FAILED and every waiting request ends (R248). -/
def sourceFailed (s : State) (n : Nat) : State :=
  let fails := min 3 (s.sec.otp.entropyFails.getD n 0 + 1)
  let s := { s with sec := { s.sec with otp := { s.sec.otp with entropyFails := setAt s.sec.otp.entropyFails n fails } } }
  let s := modEnt s (fun e => { e with sources := setAt e.sources n (if fails = 3 then .fenced else .restarting) })
  let s := if fails = 3 then orReg s 0x4008 4 else s
  if s.ent.sources.countP (· != .fenced) < 2 then
    failDraws (modEnt (orReg s 0x4008 8) (fun e => { e with st := .failed })) (fun _ => true)
  else s

/-- The tests of a source before its next sample: those of its start-up test begin anew (R239). -/
def testsOf (e : Entropy) (n : Nat) : SourceTests := if sourceAt e n = .healthy then e.tests.getD n {} else {}

/-- 07 R247: HEALTH_TEST_FAIL: the samples of a source fail a test, the start-up test's within its first 1,024. A source fails only
while it takes samples (R239); the known-answer tests run before the DRBG is used (R242), and their failure lasts until the next
reset. -/
def execHealthTestFail (n test : Nat) (s : State) (samples : List Bool := []) : Result :=
  .next (if !entropyOn s ∨ s.ent.st = .failed then s
    else if test = 2 then
      if s.ent.instantiated then s else modEnt (haltBlock s n 2) (fun e => { e with katFailed := true })
    else if (sourceAt s.ent n = .healthy ∨ (sourceAt s.ent n = .startup ∧ samples.length ≤ 1024)) ∧
        (runTests n (testsOf s.ent n) samples).2 = some test then
      sourceFailed (haltBlock s n test) n
    else s)

/-- 07 R239: SOURCE_RESTART. -/
def execSourceRestart (n : Nat) (s : State) : Result :=
  .next (if entropyOn s ∧ sourceAt s.ent n = .restarting then
      modEnt s (fun e => { e with sources := setAt e.sources n .startup })
    else s)

/-- 07 R239: SOURCE_STARTUP_PASS: 1,024 consecutive samples pass both tests, and are discarded. The tests go on from there in
service. -/
def execSourceStartupPass (n : Nat) (s : State) (samples : List Bool := []) : Result :=
  .next (
    let r := runTests n {} samples
    if entropyOn s ∧ sourceAt s.ent n = .startup ∧ samples.length = 1024 ∧ r.2 = none then
      modEnt s (fun e => { e with sources := setAt e.sources n .healthy, tests := setAt e.tests n r.1 })
    else s)

/-! ### Conditioning and the DRBG (R240, R242, R243) -/

/-- Healthy sources, ascending. -/
def healthySources (e : Entropy) : List Nat := (List.range 7).filter (fun n => sourceAt e n == .healthy)

/-- Of samples taken in round-robin order, those of the source in place `k` of `n`. -/
def turnSamples (n k : Nat) (samples : List Bool) : List Bool :=
  ((List.range samples.length).zip samples).filterMap (fun x => if x.1 % n = k then some x.2 else none)

/-- The health tests of every healthy source over its samples of a block; none when one of them fails. -/
def blockTests (e : Entropy) (samples : List Bool) : Option (List SourceTests) :=
  let hs := healthySources e
  (hs.zip (List.range hs.length)).foldl (fun (acc : Option (List SourceTests)) h =>
    acc.bind (fun ts =>
      let r := runTests h.1 (e.tests.getD h.1 {}) (turnSamples hs.length h.2 samples)
      if r.2.isSome then none else some (setAt ts h.1 r.1))) (some e.tests)

/-- The bytes of an input block, its first sample in the highest bit of the first byte (log 11). -/
def blockBytes (samples : List Bool) : List Byte :=
  (chunks 8 samples).map (fun c => BitVec.ofNat 8 (c.foldl (fun a x => 2 * a + ofBool x) 0))

/-- 07 R240: CONDITIONED_BLOCK: 1,024 samples of the healthy sources, in round-robin order of ascending number, condition into 384 bits.
READY keeps one block for the next reseed; before instantiation two are gathered, once every unfenced source has passed its start-up
test. Samples that fail a health test make no block. -/
def execConditionedBlock (s : State) (samples : List Bool := []) : Result :=
  .next (if !entropyOn s || samples.length != 1024 || (healthySources s.ent).isEmpty then s
    else match blockTests s.ent samples with
    | none => s
    | some ts =>
      let s := modEnt s (fun e => { e with tests := ts })
      match s.ent.st with
      | .ready => modEnt s (fun e => { e with outputs := [sha384 (blockBytes samples)] })
      | .failed => s
      | _ =>
        if allHealthy s.ent && !s.ent.katFailed then
          modEnt s (fun e => { e with outputs := (e.outputs ++ [sha384 (blockBytes samples)]).take 2 })
        else s)

/-- 07 R242, R243, R248: DRBG_INSTANTIATE: the first conditioned output is the entropy input, the next 16 bytes are the nonce, the
serial number is the personalisation string. -/
def execDrbgInstantiate (s : State) : Result :=
  .next (if entropyOn s && instantiating s then
      let d := drbgInstantiate (s.ent.outputs.getD 0 []) ((s.ent.outputs.getD 1 []).take 16) s.sec.otp.serial
      orReg (modEnt s (fun e =>
        { e with st := .ready, outputs := [], instantiated := true, drbg := d, calls := 0, seededAt := s.rtc })) 0x4008 1
    else s)

/-- 07 R242: DRBG_RESEED. -/
def execDrbgReseed (s : State) : Result :=
  .next (if entropyOn s && reseeding s then
      modEnt s (fun e => { e with
        outputs := [], drbg := drbgReseed e.drbg (e.outputs.headD []), calls := 0, seededAt := s.rtc })
    else s)

end Sys2Proof.Machine
end

