-- ==== Sys2Proof/Machine/Scheduling.lean ====
section
/-!
DEFINITION. The context scheduler and the sweep boundary: seating, residency, write-back, load balancing, eviction, and the six
steps of a boundary (04 R133 to R143, R146, 08 R269 to R275, R281).
-/

namespace Sys2Proof.Machine

/-! ### SEATING (R270, R272, R282) -/

/-- RESIDENCY_MAX: 0 acts as 1. -/
def residencyMax (s : State) : Nat := max 1 (regField s 0x100 8 8)

/-- Sweeps or rounds of a residency that begins (R272). -/
def residency (s : State) (d : CtxData) : Nat := min (pSweeps d.params - d.sweep) (residencyMax s)

/-- Marks the shares of a model on cores as used last. -/
def touchShares (s : State) (mi : Nat) (cores : List Nat) : State :=
  each cores s (fun s p => modCore s p (fun c =>
    { c with shares := c.shares.map (fun h => if h.model = mi then { h with used := nextUse c } else h) }))

/-- Bytes of a context's share of a block in a seat: its class whole, or a spanning one's own length (R269), in whole lines. -/
def seatSize (c : Ctx) (m : Model) (b : Nat) : Nat :=
  if c.sizeClass ≤ 8 then classBytes c.sizeClass c.span else roundUp (contextShare m b c.replicas c.tableCap) 64

/-- The places of a seat on its cores: the lowest above the last model share that no other seat has (13 R405). -/
def seatPlaces (s : State) (c : Ctx) (m : Model) (bc : List (Nat × Nat)) : List (Nat × Nat × Nat × Nat) :=
  bc.foldl (fun out e =>
    let top := ((coreState s e.2).shares.map (fun h => roundUp (h.addr + h.size) 64)).foldl max 0
    let taken := seatRanges s e.2 ++ out.filterMap (fun u => if u.2.1 = e.2 then some u.2.2 else none)
    let n := seatSize c m e.1
    out ++ [(e.1, e.2, (lowestGap top spadSize n 64 taken).getD top, n)]) []

/-- The Move Engine, or the engines at a boundary, write a seat's words whole (13 R404, R414). -/
def fillSeat (s : State) (c : Ctx) (d : CtxData) (places : List (Nat × Nat × Nat × Nat)) : State :=
  let m := ctxModel s c
  each places s (fun s u =>
    writeSpad s u.2.1 u.2.2.1 (fit u.2.2.2 (shareBytes m c.replicas c.tableCap c.st.code d u.1)))

/-- Seats a context: SEATINGS counts it, pending SCHED_CTRL values take effect, its HBM copy is read; a bad word ends the run
(R354). -/
def seatCtx (s : State) (mi place i : Nat) (c : Ctx) : State :=
  let s := bump64 (seatingBoundary s) 0x110 1
  let bc := runBlocks s c place
  let s := touchShares s mi (bc.map (·.2))
  let got := readHbm s c.addr (moveLen c)
  let s := got.2
  if got.1.isNone || (ctxModel s c).bad then failRun s i
  else
    let places := seatPlaces s c (ctxModel s c) bc
    let seat : Seat := { placement := place, left := residency s c.data, data := c.data, sweep := none, sat := 0, places := places }
    setCtx (fillSeat s c c.data places) i { c with placement := place, seat := some seat }

/-- 08 R272: SEATING: the first context of the list that waits takes a seat, of three, when the model's shares are resident. -/
def execSeating (mi place : Nat) (s : State) : Result :=
  .next (match waitingIn s mi place with
    | [] => s
    | i :: _ =>
      match lookup s.ctxs i with
      | none => s
      | some c =>
        if !engineOn s || fenceDue s (.model mi) (runLogical s c place) || decide (3 ≤ (listAt s mi place).length - (waitingIn s mi place).length) ||
            !(absentShares s mi (runBlocks s c place)).isEmpty then s
        else seatCtx s mi place i c)

/-! ### CONTEXT_WRITE_BACK (R272) -/

/-- The context goes to the tail of its list. -/
def toTail (s : State) (mi place i : Nat) : State :=
  { s with models := adjust s.models mi (fun m => { m with lists := modAt m.lists place (fun l => l.filter (· != i) ++ [i]) }) }

/-- The run of a context ends: it is written back and Idle, a save that came after its last boundary is taken (R128), and the
run's reply leaves (R272). -/
def endRun (s : State) (i : Nat) (c : Ctx) (v : Run) (reason : Nat) : State :=
  runReply (takeSaves (unseat s i c .idle) i .idle v.repaired) (runNow c v) reason (ctxNow c)

/-- 08 R272: CONTEXT_WRITE_BACK, at the last boundary of a residency or of a run: the Move Engine reads the seat. -/
def execContextWriteBack (ctx : Nat) (s : State) : Result :=
  .next (match lookup s.ctxs ctx with
    | none => s
    | some c =>
      match c.seat, c.run with
      | some seat, some v =>
        if !engineOn s || seat.sweep.isSome || (v.stop.isNone && seat.left != 0) then s
        else
        let got := readPlaces (seat.places.map (·.2)) s
        let s := got.2
        match got.1, v.stop with
        | some e, _ => wordFault s ctx e
        | none, some reason => endRun s ctx c v reason
        | none, none =>
          toTail (writeBack s ctx c { c with data := seat.data, seat := none, run := some (runNow c v) }) c.model seat.placement ctx
      | _, _ => s)

/-! ### DYNAMIC_LOAD_BALANCE (R275) -/

/-- The placement that gives a context: the longest list with a waiting context, the lowest-numbered among equals. -/
def donor (s : State) (mi place : Nat) : Option Nat :=
  let ps := (List.range (modelAt s mi).lists.length).filter (fun q => q != place && !(waitingIn s mi q).isEmpty)
  match ps with
  | [] => none
  | p :: rest => some (rest.foldl (fun b q => if (listAt s mi b).length < (listAt s mi q).length then q else b) p)

/-- 08 R275: DYNAMIC_LOAD_BALANCE. -/
def execDynamicLoadBalance (mi place : Nat) (s : State) : Result :=
  .next (if !engineOn s || !regBit s 0x100 0 || decide ((modelAt s mi).lists.length ≤ place) || !(waitingIn s mi place).isEmpty then s
    else match donor s mi place with
    | none => s
    | some q =>
      match (waitingIn s mi q).getLast? with
      | none => s
      | some i =>
        let s := joinList (leaveLists s mi i) mi place i
        let s := modCtx s i (fun c => { c with run := c.run.map (fun v => { v with placement := place }) })
        reproEvent (bump s 0x118 1) 5)

/-! ### SHARE_EVICTION (R273) -/

/-- Reads the shares to load from the model region; a bad word marks the model (R346). -/
def readShares (s : State) (mi : Nat) (m : Model) (bs : List Nat) : State :=
  each bs s (fun s b =>
    let r := scrubRange s (blockAt m b).addr (blockAt m b).size
    if r.2.1 then r.2.2 else { r.2.2 with models := adjust r.2.2.models mi (fun m => { m with bad := true }) })

/-- 08 R273: SHARE_EVICTION: the run at the head of a list waits for its model's shares; the least recently used idle shares
make room, and the absent ones are loaded. -/
def execShareEviction (mi place : Nat) (s : State) : Result :=
  .next (match waitingIn s mi place with
    | [] => s
    | i :: _ =>
      match lookup s.ctxs i with
      | none => s
      | some c =>
        let absent := absentShares s mi (runBlocks s c place)
        if !engineOn s || absent.isEmpty then s
        else match roomFor s (modelAt s mi) absent with
        | none => s
        | some s => addShares (readShares s mi (modelAt s mi) (absent.map (·.1))) mi absent)

/-! ### Replica exchange (R140, R141) -/

/-- The replica that holds a rung. -/
def holderOf (d : CtxData) (k : Nat) : Nat := ((List.range d.latent.length).find? (fun r => d.rungMap.getD r 0 == k)).getD 0

/-- Whether the pair of rungs (k, k + 1) swaps in event m. -/
def exchangeAccepts (d : CtxData) (m k : Nat) : Bool :=
  let ladder := fun j => w32 d.schedule (4 * j)
  let e := fun j => d.energy.getD (holderOf d j) 0
  let dBeta := fpSub (ladder k) (ladder (k + 1))
  let dE := fpClamp (fpRound ⟨e k - e (k + 1), -136⟩)
  let delta := fpMul dBeta dE
  !fpLt delta 0 || fpLt (lnU (exchangeWord d.runSeed m k).toNat) delta

/-- The pairs that an event tries: k even when m is odd, k odd when m is even. -/
def pairsTried (m replicas : Nat) : List Nat := (List.range (replicas - 1)).filter (fun k => k % 2 == (m + 1) % 2)

/-- One pair of event m. -/
def exchangePair (m : Nat) (d : CtxData) (k : Nat) : CtxData :=
  let d := { d with exchAttempt := d.exchAttempt.modify k (· + 1) }
  if exchangeAccepts d m k then
    let a := holderOf d k
    let b := holderOf d (k + 1)
    { d with exchAccept := d.exchAccept.modify k (· + 1), rungMap := (d.rungMap.set a (k + 1)).set b k }
  else d

/-- An exchange event (R140). -/
def exchangeEvent (d : CtxData) : CtxData :=
  let m := d.exchEvents + 1
  { (pairsTried m d.latent.length).foldl (exchangePair m) d with exchEvents := m }

/-! ### The boundary (R137) -/

/-- Steps 1 and 2: N_MARG grows in a counted sweep, energies are final: full where R133 asks for it. -/
def finalEnergies (m : Model) (w : Sweep) : CtxData :=
  let d := w.work
  let d := { d with nMarg := d.nMarg + (countedReplicas d).length }
  if m.relaxed || w.replayed || (d.sweep + 1) % 4096 == 0 then { d with energy := fullEnergies m d } else d

/-- Step 3: the best record (R135); the patience counter counts sweeps since it was replaced. -/
def updateBest (d : CtxData) : CtxData :=
  let r := lowestReplica d.energy
  if d.energy.getD r 0 < d.bestEnergy then { takeBest d r (d.sweep + 1) with patience := 0 } else { d with patience := d.patience + 1 }

/-- STOP_ENERGY is reached, as exact real numbers; an infinity compares by its sign, a NaN with nothing (log 47). -/
def stopReached (d : CtxData) : Bool :=
  let b := pStopEnergy d.params
  if fp64Finite b then Dyadic.le ⟨d.bestEnergy, -136⟩ (fp64Val b) else b == 0x7FF0000000000000

/-- Step 4: the stop tests, in order (R136). -/
def stopReason (d : CtxData) : Option Nat :=
  if pSweeps d.params ≤ d.sweep + 1 then some 0
  else if pStopEnergyEn d.params && stopReached d then some 1
  else if pPatience d.params != 0 && decide (pPatience d.params ≤ d.patience) then some 2
  else none

/-- Step 5: exchange, if one is due and the run has not ended. -/
def boundaryExchange (d : CtxData) (stopped : Bool) : CtxData :=
  let n := d.sweep + 1
  if d.runKind = 3 ∧ !stopped ∧ n % pExchInterval d.params = 0 ∧ n < pSweeps d.params then exchangeEvent d else d

/-- The schedule position after a sweep of a TABLE run. -/
def advanceTable (d : CtxData) : CtxData :=
  if d.runKind = 3 ∨ pSchedule d.params ≠ 3 then d
  else if d.schedLeft = 1 ∧ d.schedPos + 1 < pTableLen d.params then
    { d with schedPos := d.schedPos + 1, schedLeft := (tableEntry d.schedule (d.schedPos + 1)).2 }
  else { d with schedLeft := d.schedLeft - 1 }

/-- Step 6: the run state (R127, R263). -/
def runState (m : Model) (d : CtxData) : CtxData :=
  let beta := if d.runKind = 3 then w32 d.schedule 0 else betaOf d (d.sweep + 1) 0
  { advanceTable d with
    sweep := d.sweep + 1
    betaCur := beta
    sweepsTotal := (d.sweepsTotal + subsetCount m d.params * turnSweeps m d.params) % 2 ^ 64 }

/-- The content after the boundary, and why the run stops, if it does. -/
def boundaryData (m : Model) (w : Sweep) : CtxData × Option Nat :=
  let d := updateBest (finalEnergies m w)
  let stop := stopReason d
  (runState m (boundaryExchange d stop.isSome), stop)

/-- Every colour has committed on every core, every commit has arrived, every key has been drawn. -/
def sweepOver (m : Model) (c : Ctx) (w : Sweep) : Bool :=
  w.shares.all (fun h => decide (m.colours ≤ h.colour)) && w.remote.isEmpty &&
  (sweepStreams m (w.shares.map (·.block))).all (fun t => (List.range c.replicas).all (fun r => (nextKey m w t r).isNone))

/-- The next sweep of a rotated round: the next sweep of the turn, or the first of the next subset (R145). -/
def nextTurn (m : Model) (w : Sweep) : Option (Nat × Nat) :=
  if w.turn + 1 < turnSweeps m w.work.params then some (w.subset, w.turn + 1)
  else if w.subset + 1 < subsetCount m w.work.params then some (w.subset + 1, 0)
  else none

/-- RUN_PAUSE is served (R274, R353): out of the list, written back, Paused; the run command and the RUN_PAUSEs reply. -/
def servePause (s : State) (i : Nat) : State :=
  match lookup s.ctxs i with
  | none => s
  | some c =>
    match c.run with
    | none => s
    | some v =>
      if v.pauses.isEmpty then s
      else
        let s := runReply (unseat s i c .paused) (runNow c v) 3 (ctxNow c)
        each v.pauses s (fun s q => reply s q 0x43 .ok 0 [] flagDeferred)

/-- RUN_PAUSEs complete with NOT_READY when the run ends at the boundary (R129). -/
def dropPauses (s : State) (i : Nat) : State :=
  match (lookup s.ctxs i).bind (·.run) with
  | none => s
  | some v => failPauses (modCtx s i (fun c => { c with run := some { v with pauses := [] } })) v

/-- The end of a sweep or round (R137): the seat holds the new boundary, saves are served before pauses (R281). -/
def closeRound (s : State) (i : Nat) (c : Ctx) (m : Model) (seat : Seat) (w : Sweep) : State :=
  let r := boundaryData m w
  let s := fillSeat s c r.1 seat.places
  let s := modCtx s i (fun c => { c with
    seat := some { seat with data := r.1, left := seat.left - 1, sweep := none, sat := seat.sat + w.sat }
    run := c.run.map (fun v => { v with stop := r.2 }) })
  let fixed := c.run.any (·.repaired)
  if r.2.isSome then dropPauses (takeSaves s i .idle fixed) i else servePause (takeSaves s i .paused fixed) i

/-- Registers that take writes at a sweep boundary, on every core of a sweep (R116). -/
def sweepRegisters (s : State) (w : Sweep) : State := each (w.shares.filterMap (fun h => physOf s h.core)) s sweepRegBoundary

/-- 04 R137, R146: SWEEP_BOUNDARY. -/
def execSweepBoundary (ctx : Nat) (s : State) : Result :=
  sweepStep s ctx (fun c m seat w =>
    if !sweepOver m c w then s
    else match nextTurn m w with
    | some (q, t) => putSweep (sweepRegisters s w) ctx seat (newSweep s m seat.placement q t w.work w.replayed w.sat)
    | none => closeRound (sweepRegisters s w) ctx c m seat w)

end Sys2Proof.Machine
end

