-- ==== Sys2Proof/Machine/Faulting.lean ====
section
/-!
DEFINITION. Detected faults, retries, fences and FAULT_MAP (14 R428 to R438, 11 R365, R366).
-/

namespace Sys2Proof.Machine

/-! ### The fence sequence (R432 to R435) -/

/-- A reserve that fails step 3 is fenced (R431, R433). -/
def fenceReserve (s : State) (q : Nat) : State :=
  let plan := fencePlan s.map q
  settleFence { recordFence s q (fenceGeneration s) 2 plan with map := plan.1 } q

/-- Physical cores of a context's run on a placement, block by block. -/
def physRun (s : State) (c : Ctx) (place : Nat) : List (Nat × Nat) := runBlocks s c place

/-- The models' placements and lists for the map in force, when the number of active cores has changed (08 R267). -/
def derivePlacements (s : State) : State :=
  { s with models := s.models.map (fun e => (e.1, { e.2 with placements := placementsOf s.map e.2.blocks })) }

/-- A context leaves its seat with the content of its HBM copy; its sweeps will be repeated. -/
def sendBack (s : State) (i : Nat) : State :=
  modCtx s i (fun c => { c with seat := none, run := c.run.map (fun v => { v with repaired := true, stop := none }) })

/-- Contexts sent back stand at the heads of their run lists, in their order there. -/
def toHeads (back : List Nat) (m : Model) : Model :=
  { m with lists := m.lists.map (fun l => l.filter (back.contains ·) ++ l.filter (fun i => !back.contains i)) }

/-- A context of a placement that no longer exists goes to the list of placement a mod P, a its run number (R433). -/
def relist (mi p : Nat) (s : State) (i : Nat) : State :=
  match lookup s.ctxs i with
  | none => s
  | some c =>
    let place := (c.run.elim 0 (·.number)) % max 1 p
    let s := joinList s mi place i
    modCtx s i (fun c => { c with run := c.run.map (fun v => { v with placement := place }) })

/-- The lists of one model, for its placements now. -/
def relistModel (s : State) (mi : Nat) : State :=
  match lookup s.models mi with
  | none => s
  | some m =>
    let p := m.placements.length
    let gone := (m.lists.drop p).flatten
    each gone { s with models := adjust s.models mi (fun m => { m with lists := m.lists.take p }) } (relist mi p)

/-- Contexts whose seats a new map takes away: a block of theirs would run on another physical core. -/
def displaced (old new : State) : List Nat :=
  (old.ctxs.filter (fun e => e.2.seat.any (fun t =>
    decide ((lookupD new.models e.2.model default).placements.length ≤ t.placement) ||
    physRun old e.2 t.placement != physRun new e.2 t.placement))).map (·.1)

/-- The shares of a fenced core are loaded into the core that takes its logical number, as far as they fit (R432 step 6). -/
def moveShare (q : Nat) (s : State) (h : ResShare) : State :=
  match lookup s.models h.model with
  | none => s
  | some m =>
    if hasShare s h.model h.block q || !sharesFit s m [(h.block, q)] then s
    else addShare (readShares s h.model m [h.block]) h.model h.block q

/-- Tiles that a new map puts on another physical core start again (R168, R432 step 7). -/
def restartTiles (old s : State) : State × Nat :=
  let moved := fun (p : Prog) => tilePhys old (curStep p).coreMask p.tile != tilePhys s (curStep p).coreMask p.tile
  ({ s with progs := s.progs.map (fun p => if moved p then { p with drained := none, repaired := true } else p) },
   s.progs.countP moved)

/-- Whose slots or schedules held a core: with fewer active cores than before, those of every model too, since its placements
have changed (R432 step 5, R433). -/
def ownersOn (s : State) (p : Nat) (fewer : Bool) : List Owner :=
  let n := nodeOf (.core p)
  ((if fewer then s.models.map (fun e => Owner.model e.1) else []) ++ (coreState s p).schedules.map (·.1) ++
    (s.slots.filter (fun e => e.src == n || e.dst == n)).map (·.owner)).eraseDups

/-- Slots and schedules of some owners are built again, from the slots that they release and free ones (01 R25, R432 step 5). -/
def rebuildWork (s : State) (os : List Owner) : State :=
  each os (each os s dropWork) (fun s o =>
    match o with
    | .model i => (lookup s.models i).elim s (giveModelWork s i)
    | .prog r => (findProg s r).elim s (giveProgWork s)
    | .join => s)

/-- A core's memories lose their contents: it is powered down, or sealed after its checker self-test (R432, 13 R413, R421). -/
def sealCore (s : State) (p : Nat) : State :=
  let t := modCore s p (fun c => { c with shares := [], kept := [], schedules := [], bound := [], nextGen := 0, failed := [], windowFails := 0 })
  { t with
    spad := t.spad.filter (fun c => c.1 / 2 ^ 26 != p)
    spadMarks := t.spadMarks.filter (fun e => e.1 / 2 ^ 26 != p)
    otherMarks := t.otherMarks.filter (fun e => e.1 / 2 ^ 29 != p)
    writeBacks := t.writeBacks.filter (fun e => e.1 != .spad p) }

/-- Steps 2 to 7 for a core and the map that its fence gives (R432, R433). -/
def carryWork (s : State) (p : Nat) (plan : List Byte × Nat × Nat) : State :=
  let shares := (coreState s p).shares
  let fewer := activeOf plan.1 != activeOf s.map
  let owners := ownersOn s p fewer
  let new := { s with map := plan.1 }
  let new := if fewer then derivePlacements new else new
  let back := displaced s new
  let t := each back s abandonSweep
  let t := each back { t with map := new.map, models := new.models.map (fun e => (e.1, toHeads back e.2)) } sendBack
  let t := each (t.models.map (·.1)) t relistModel
  let tiles := restartTiles s t
  let t := sealCore tiles.1 p
  let t := rebuildWork (if plan.2.2 < 18 then sealCore t plan.2.2 else t) owners
  let t := match physOf t plan.2.1 with
    | none => t
    | some q => each shares t (moveShare q)
  if back.isEmpty && tiles.2 == 0 then t else event t 0x0122 1 p 0 (leBytes 4 back.length ++ leBytes 4 tiles.2)

/-- The sequence at the head of those due: reserves that fail step 3 are fenced, the lowest one that passes takes the number, or
the core of logical 15 does; then the next sequence begins. -/
def runFence (s : State) (ok : List Nat) (p : Nat) : State :=
  let s := each ((reservesOf s.map).takeWhile (fun q => !ok.contains q)) s fenceReserve
  if exhausts s.map p then fatalError s 0x0003 p
  else
    let s := settleFence (carryWork s p (fencePlan s.map p)) p
    beginFence { s with faults := { s.faults with due := s.faults.due.drop 1 } }

/-- 14 R432, R433: FENCE_SEQUENCE. -/
def execFenceSequence (reservesOk : List Nat) (s : State) : Result :=
  .next (match s.faults.due with
    | [] => s
    | (p, _) :: _ => if s.faults.fatal.isNone && s.power.phase == .running then runFence s reservesOk p else s)

/-! ### Counts and retries (R430, R431) -/

/-- The core works and is watched: it holds a logical number and is not stopped by its fence (R431, R435). -/
def watched (s : State) (p : Nat) : Bool :=
  engineOn s && decide (mapByte s.map p < 16) && !(s.faults.due.head?).any (fun d => d.1 == p)

/-- The attempts that have failed at a work item, this one included, whichever cores they are counted on. -/
def failedAttempts (s : State) (w : WorkItem) : Nat := 1 + (s.cores.map (fun e => lookupItem e.2.failed w)).sum

/-- An attempt at a work item that failed is noted on a core. -/
def noteAttempt (s : State) (p : Nat) (w : WorkItem) : State :=
  modCore s p (fun c => { c with failed := (w, lookupItem c.failed w + 1) :: c.failed.filter (fun e => e.1 != w) })

/-- A retry of work that was accepted in reproducible mode or not: counted, and REPRO_STATUS.RETRY (R430, 09 R298). -/
def countRetry (repro : Bool) (s : State) : State := workEvent repro (bump s 0x2014 1) 3

/-- A work item has failed: its retry, or after RETRY_MAX + 1 attempts the fence of the cores that the failure is attributed to;
the item starts anew behind the fence. -/
def retryItem (s : State) (ps : List Nat) (w : WorkItem) (repro : Bool) (redo : State → State) : State :=
  if retryMax s < failedAttempts s w then each ps (forgetItems s (· == w)) (fun s p => decideFence s p 0)
  else each ps (redo (countRetry repro (each (ps.take 1) s (fun s p => noteAttempt s p w)))) checkThreshold

/-- A work item has failed a check on its core: the record of the attempt, made by `detail`, and its retry. -/
def retryWork (s : State) (p : Nat) (w : WorkItem) (handle : Nat) (repro : Bool) (detail : Nat → List Byte) (redo : State → State) :
    State :=
  let s := countFault s [p] 1
  retryItem (event s 0x0101 1 p handle (detail (failedAttempts s w))) [p] w repro redo

/-- DETAIL of RESIDUE (R442): engine, work, tile index or colour, attempt, check. -/
def residueDetail (engine work index check n : Nat) : List Byte :=
  leBytes 1 engine ++ leBytes 1 work ++ leBytes 4 index ++ leBytes 1 n ++ leBytes 1 check

/-- The run of a context is marked REPAIRED (10 R309). -/
def markRepaired (s : State) (i : Nat) : State :=
  modCtx s i (fun c => { c with run := c.run.map (fun v => { v with repaired := true }) })

/-! ### The work that is retried -/

/-- The seat, run, sweep and share of a context on a physical core. -/
def shareOn (s : State) (i p : Nat) : Option (Ctx × Seat × Run × Sweep × Share) :=
  match lookup s.ctxs i with
  | none => none
  | some c =>
    match c.seat, c.run with
    | some seat, some v =>
      match seat.sweep with
      | none => none
      | some w => (w.shares.find? (fun h => physOf s h.core == some p)).map (fun h => (c, seat, v, w, h))
    | _, _ => none

/-- One number for a sweep of a run, its subset and its turn. -/
def sweepKey (w : Sweep) : Nat := (w.work.sweep * 2 ^ 8 + w.subset) * 2 ^ 32 + w.turn

/-- The speculative work of a share is discarded, counted, and its colour barred from speculation (03 R108). -/
def dropSpeculation (s : State) (m : Model) (p : Nat) (h : Share) : State × Share :=
  if h.base.isNone then (s, h)
  else (bump64 s (coreReg p 0x410) (h.vecs.countP (·.spec)),
    { h with base := none, spec := [], vecs := h.vecs.filter (fun v => !v.spec), unwalked := [], barred := specColour m h })

/-- The oldest colour starts again from the last commit; speculative work that has taken up its changes is discarded. -/
def redoColour (s : State) (m : Model) (p : Nat) (h : Share) : State × Share :=
  let r := dropSpeculation s m p h
  let mine := fun (i : Nat) => colourOf m i == h.colour
  (r.1, { r.2 with
    vecs := r.2.vecs.filter (fun v => !mine v.var)
    pend := r.2.pend.filter (fun u => !mine u.var)
    unwalked := r.2.unwalked.filter (fun f => !mine f.1.var) })

/-- The run of a context was accepted in reproducible mode. -/
def runRepro (c : Ctx) : Bool := c.run.any (·.repro)

/-- A share's dense factors: those whose first variable lies in its block (08 R541). -/
def denseHere (m : Model) (h : Share) (d : Dense) : Bool := blockOf m d.aFirst == h.block

/-- The dense passes of a share for a colour are computed again. -/
def dropPasses (m : Model) (h : Share) (k : Nat) (w : Sweep) : Sweep :=
  { w with passes := w.passes.filter (fun x => x.colour != k || !(m.dense[x.factor]?).any (denseHere m h)) }

/-- The colour that a failure concerns is computed again, its speculative part being discarded. -/
def redoShare (i p : Nat) (spec : Bool) (k : Nat) (m : Model) (q : Seat × Sweep × Share) (s : State) : State :=
  let r := if spec then dropSpeculation s m p q.2.2 else redoColour s m p q.2.2
  markRepaired (modCtx r.1 i (fun c => { c with seat := some { q.1 with sweep := some (setShare (dropPasses m q.2.2 k q.2.1) r.2) } })) i

/-- A failed check in a colour of a context: the colour is computed again, without speculation; a residue of the Field Engine is
counted (05 R158), arises in a dense pass, and makes that pass alone start again. -/
def colourFault (s : State) (p engine i : Nat) (spec : Bool) : State :=
  match shareOn s i p with
  | none => s
  | some (c, seat, v, w, h) =>
    let m := ctxModel s c
    match if spec then specColour m h else some h.colour with
    | none => s
    | some k =>
      if engine = 0 ∧ !m.dense.any (denseHere m h) then s
      else
        let s := if engine = 0 then bump s (coreReg p 0x218) 1 else s
        let item := if engine = 0 then WorkItem.dense i v.number (sweepKey w) k else .colour i v.number (sweepKey w) k
        retryWork s p item (ctxHandle i c) v.repro (residueDetail engine 0 k (ofBool (engine == 2))) (fun s =>
          if engine = 0 ∧ !spec then markRepaired s i else redoShare i p spec k m (seat, w, h) s)

/-- The sweep for which a core's generators step their copies, in the subset or outside it (07 R223): its context, and the streams
that the core has. -/
def keyWork (s : State) (p : Nat) : Option (Nat × Ctx × Sweep × List Nat) :=
  s.ctxs.findSome? (fun e =>
    match e.2.seat with
    | none => none
    | some seat =>
      match seat.sweep with
      | none => none
      | some w =>
        let m := ctxModel s e.2
        let ts := (sweepStreams m (w.shares.map (·.block))).filter (fun t => (copyCores s m (runLogical s e.2 seat.placement) t).contains p)
        if ts.isEmpty then none else some (e.1, e.2, w, ts))

/-- A generator's residue: the pass key is formed again from the unchanged ring (07 R235). -/
def generatorFault (s : State) (p : Nat) : State :=
  match keyWork s p with
  | none => s
  | some (i, c, w, ts) =>
    let k := (ts.findSome? (fun t => nextKey (ctxModel s c) w t 0)).getD 0
    retryWork (bump s (coreReg p 0x518) 1) p (.key i (c.run.elim 0 (·.number)) (sweepKey w) k) (ctxHandle i c) (runRepro c)
      (residueDetail 4 0 k 0) (fun s => markRepaired s i)

/-- A context takes its seat again as at its last write-back (R430, Reduce Unit). -/
def rewind (s : State) (i : Nat) : State :=
  let s := modCtx (abandonSweep s i) i (fun c => { c with
    seat := c.seat.map (fun t => { t with data := c.data, left := residency s c.data, sweep := none, sat := 0 })
    run := c.run.map (fun v => { v with repaired := true, stop := none }) })
  match lookup s.ctxs i with
  | none => s
  | some c => c.seat.elim s (fun t => fillSeat s c c.data t.places)

/-- The sweeps of a context since its last write-back, as a work item, when it sits on a core. -/
def sweepsOn (s : State) (p i : Nat) : Option (Ctx × WorkItem) :=
  match lookup s.ctxs i with
  | none => none
  | some c =>
    match c.seat, c.run with
    | some seat, some v =>
      if (runBlocks s c seat.placement).any (fun e => e.2 == p) then some (c, .sweeps i v.number c.data.sweep) else none
    | _, _ => none

/-- A residue of the Reduce Unit in a context that sits on a core. -/
def reduceFault (s : State) (p i : Nat) : State :=
  match sweepsOn s p i with
  | none => s
  | some (c, item) =>
    retryWork s p item (ctxHandle i c) (runRepro c)
      (residueDetail 3 2 ((shareOn s i p).elim 0 (fun q => q.2.2.2.2.colour)) 0) (fun s => rewind s i)

/-- The tile in progress of a program, which has not drained. -/
def openTile (s : State) (r : Req) : Option Prog := (findProg s r).filter (fun q => q.drained.isNone)

/-- A tile is computed again: its command is marked REPAIRED (10 R309). -/
def redoTile (q : Prog) (s : State) : State := setProg s { q with repaired := true }

/-- A residue in a tile: the tile is computed again (05 R158, 06 R186). -/
def tileFault (s : State) (p : Nat) (r : Req) : State :=
  match openTile s r with
  | none => s
  | some q =>
    if tilePhys s (curStep q).coreMask q.tile != p then s
    else retryWork (bump s (coreReg p 0x218) 1) p (.tile r q.cur q.tile) 0 q.repro (residueDetail 0 1 q.tile 0) (redoTile q)

/-! ### Bad words and the energy check -/

/-- A read that meets a word of a memory, in the class in which errors have left it, `cls` when it was clean. An uncorrectable one
counts on its core (R431), or is fatal in the Handler's memories (R446). -/
def meetWord (s : State) (u : MemUnit) (a : Nat) (cls : WordClass) : State :=
  let s := if (markAt s u a).isNone then strikeWord u s a cls else s
  match markAt s u a with
  | some .correctable => corrected s u a
  | none => if wordOpen s u a then s else badRead s u a none
  | some c =>
    let s := badRead s u a (some c)
    if c != .uncorrectable then s
    else match u with
      | .hbm _ => s
      | .spad p => countFault s [p] 1
      | .other p _ => if p < 18 then countFault s [p] 1 else fatalError s 0x0002 unitHandler

/-- The core whose memory it is. -/
def unitCore (u : MemUnit) : Option Nat :=
  match u with
  | .spad p => some p
  | .other p _ => if p < 18 then some p else none
  | .hbm _ => none

/-- A scratchpad address lies in a seat of a context, or in a share of its model, on a core. -/
def ownWord (s : State) (c : Ctx) (p addr : Nat) : Bool :=
  let inside := fun (a n : Nat) => decide (a ≤ addr ∧ addr < a + n)
  c.seat.any (fun t => t.places.any (fun u => u.2.1 == p && inside u.2.2.1 u.2.2.2)) ||
  (c.seat.isSome && (coreState s p).shares.any (fun h => h.model == c.model && inside h.addr h.size))

/-- A run that meets an uncorrectable word of its context or its model's share ends with DATA_ERROR (R430). -/
def runBadWord (s : State) (p i addr : Nat) : State :=
  match lookup s.ctxs i with
  | none => s
  | some c => if ownWord s c p addr then checkThreshold (failRun (meetWord s (.spad p) addr .uncorrectable) i) p else s

/-- The full energy of a replica differs at a 4,096th boundary: recorded, the full value stands, the core is fenced (R430,
R431, 04 R133). -/
def energyFault (s : State) (p i replica : Nat) : State :=
  match lookup s.ctxs i with
  | none => s
  | some c =>
    match c.seat with
    | none => s
    | some t =>
      if t.sweep.isNone && t.data.sweep != 0 && t.data.sweep % 4096 == 0 && decide (replica < c.replicas) &&
          (runBlocks s c t.placement).any (fun e => e.2 == p) then
        let s := event (countFault s [p] 1) 0x0103 1 p (ctxHandle i c) (leBytes 1 replica ++ leBytes 8 t.data.sweep)
        decideFence (markRepaired (workEvent (runRepro c) s 3) i) p 3
      else s

/-! ### Mesh links (01 R20, R23, 14 R431, R441) -/

/-- CRC failures of a link without a core count on the link (R431). -/
def countLink (s : State) (k n : Nat) : State :=
  let ts := List.replicate n s.rtc ++ (lookupD s.faults.links k []).filter (fun t => !ended s t 1000)
  let s := { s with faults := { s.faults with links := put s.faults.links k ts } }
  if fenceThreshold s ≤ ts.length then fatalError s 0x0004 (unitMesh k) else s

/-- The work item that receives a mesh flit, whether it was accepted in reproducible mode, and what repeats it at the scope of its row
in R430; a context move is sent again whole. -/
def receiving (s : State) : Receiver → Option (WorkItem × Bool × (State → State))
  | .tile r => (openTile s r).map (fun q => (.tile r q.cur q.tile, q.repro, redoTile q))
  | .colour p i => (shareOn s i p).map (fun x =>
      let h := x.2.2.2.2
      (.colour i x.2.2.1.number (sweepKey x.2.2.2.1) h.colour, x.2.2.1.repro,
        redoShare i p false h.colour (ctxModel s x.1) (x.2.1, x.2.2.2.1, h)))
  | .sweeps p i => (sweepsOn s p i).map (fun x => (x.2, runRepro x.1, fun s => rewind s i))
  | .ctxMove i => (lookup s.ctxs i).map (fun c =>
      (.ctxMove i (c.run.elim 0 (·.number)), runRepro c, fun s => markRepaired s i))

/-- A core counts faults: it is not fenced. -/
def counting (s : State) (p : Nat) : Bool := mapByte s.map p != 0xFF

/-- Mesh flits failed their CRC on a link: counted in MESH_CRC_ERR, MESH_CRC_LAST and on the cores at its ends; the work item that
receives them is tried again (R430, R431). -/
def meshFault (s : State) (k direction flits : Nat) (work : Option Receiver) : State :=
  let ps := (linkCores k).filter (counting s)
  let s := setReg (bump s 0x40004 flits) 0x40008 (k + 64)
  let s := event (countFault s ps flits) 0x0102 1 (unitMesh k) 0 (leBytes 1 direction ++ leBytes 4 flits)
  let s := match work.bind (receiving s) with
    | none => each ps s checkThreshold
    | some w => retryItem s ps w.1 w.2.1 w.2.2
  if (linkCores k).isEmpty then countLink s k flits else s

/-- A detection on a core that works and is watched. -/
def onCore (s : State) (p : Nat) (f : State → State) : State := if watched s p then f s else s

/-- 14 R430, R431: FAULT_RETRY. -/
def execFaultRetry (d : Detection) (s : State) : Result :=
  .next (match d with
    | .tileResidue p r => onCore s p (tileFault · p r)
    | .colour p engine i spec => if engine < 3 then onCore s p (colourFault · p engine i spec) else s
    | .generator p => onCore s p (generatorFault · p)
    | .reduce p i => onCore s p (reduceFault · p i)
    | .meshCrc k direction flits work =>
      if engineOn s && decide (k < 49 ∧ direction < 2 ∧ 0 < flits) then meshFault s k direction flits work else s
    | .badWord p i addr => if holdsWord (.spad p) addr then onCore s p (runBadWord · p i addr) else s
    | .energyCheck p i replica => onCore s p (energyFault · p i replica)
    | .memoryWord u addr cls =>
      if !holdsWord u addr || s.power.phase == .off || s.power.phase == .reset then s
      else match unitCore u with
        | some p => onCore s p (fun s => checkThreshold (meetWord s u addr cls) p)
        | none => meetWord s u addr cls)

/-- 14 R429, R431: KNOWN_ANSWER_WINDOW: the program runs in reproducible mode; two failures in a row fence the core. -/
def execKnownAnswerWindow (p : Nat) (pass : Bool) (engine : Nat) (s : State) : Result :=
  .next (if !watched s p || !regBit s 0x84 0 then s
    else if pass then modCore s p (fun c => { c with windowFails := 0 })
    else
      let n := (coreState s p).windowFails + 1
      let s := modCore (countFault s [p] 1) p (fun c => { c with windowFails := n })
      let s := event s 0x0104 1 p 0 (leBytes 1 engine ++ leBytes 1 n)
      if 2 ≤ n then decideFence s p 2 else checkThreshold (countRetry true s) p)

/-! ### FAULT_MAP (11 R365, R366) -/

/-- The map after the fences of a mask, in ascending physical order; none when fewer than 15 active cores would be left. -/
def maskedMap (m : List Byte) (mask : Nat) : Option (List Byte) :=
  (List.range 18).foldl (fun (acc : Option (List Byte)) p => acc.bind (fun m =>
    if bitOf mask p = 0 ∨ mapByte m p = 0xFF then some m
    else if exhausts m p then none
    else some (fencePlan m p).1)) (some m)

/-- One core of the mask is fenced in volatile form. -/
def applyFence (s : State) (p : Nat) : State :=
  if mapByte s.map p = 0xFF then s
  else
    let plan := fencePlan s.map p
    modCore (carryWork (recordFence s p 0 5 plan) p plan) p (fun c => { c with volatile := true })

/-- The FAULT_MAP reply (R365). -/
def faultMapBytes (s : State) : List Byte :=
  leBytes 4 (fenceOtp s) ++ leBytes 4 (fenceVol s) ++ leBytes 1 (gensUsed s.sec.otp) ++ leBytes 1 (active s) ++ zeros 2 ++
  coreMapBytes s ++ zeros 4

/-- 11 R365, R366: FAULT_MAP. It waits for the end of a fence sequence in progress (14 R435). -/
def execFaultMap (r : Req) (p : List Byte) (s : State) : Result :=
  if s.faults.due ≠ [] then .next s
  else serve s r 0x94 none none (fun s =>
    let apply := u8 p 0 == 1
    let mask := u32 p 4
    checked s r 0x94
      [(p.length != 8, badLength), (!allZero (slice p 1 3) || (u8 p 0 == 0 && mask != 0), badReserved),
       (decide (1 < u8 p 0) || decide (2 ^ 18 ≤ mask), badRange),
       (apply && (maskedMap s.map mask).isNone, .badParam, 0x0373),
       (apply && !s.models.isEmpty, .contextBusy, 0x0374)] (fun s =>
      let s := if apply then each ((List.range 18).filter (fun q => bitOf mask q == 1)) s applyFence else s
      reply s r 0x94 .ok 0 (faultMapBytes s)))

end Sys2Proof.Machine
end

