-- ==== Sys2Proof/Machine/Fills.lean ====
section
/-!
DEFINITION. FILL (07 R231, R232, 11 R360, R361).
-/

namespace Sys2Proof.Machine

/-- The bytes that a FILL writes: its pattern repeated, or 4-byte elements numbered from DST (R228, R360). -/
def fillBytes (f : Fill) : List Byte :=
  if f.kind = 0 then (List.range (f.len / 8)).flatMap (fun _ => leBytes 8 f.pattern.toNat)
  else
    let t := if f.kind = 4 then zigTFp else []
    let ft := if f.kind = 4 then zigFFp else []
    (List.range (f.len / 4)).flatMap (fun e => leBytes 4 (fillElem f.kind t ft f.seed e).toNat)

/-- R360, R361: FILL checks its region; its bytes land with FILL_COMPLETE (log 19). -/
def execFill (r : Req) (p : List Byte) (s : State) : Result :=
  serve s r 0x61 none none (fun s =>
    let kind := u8 p 0
    let dst := u64 p 8
    let len := u64 p 16
    checked s r 0x61
      ([(p.length != 40, badLength),
        (!allZero (slice p 1 7) || (kind == 0 && u64 p 24 != 0) || (decide (1 ≤ kind ∧ kind ≤ 4) && u64 p 32 != 0), badReserved),
        (decide (4 < kind) || len % 8 != 0, badRange)] ++ regionChecks s dst len 8 true) (fun s =>
      { hold s r 0x61 none none with fills := s.fills ++
        [{ r := r, kind := kind, dst := dst, len := len, seed := w64 p 24, pattern := w64 p 32 }] }))

/-- R360: FILL_COMPLETE: every word of the region is written whole, and the reply gives BYTES_FILLED. -/
def execFillComplete (r : Req) (s : State) : Result :=
  .next (match s.fills.find? (fun f => f.r == r) with
    | none => s
    | some f =>
      let s := writeHbm { s with fills := s.fills.filter (fun g => !(g.r == r)) } f.dst (fillBytes f)
      reply s r 0x61 .ok 0 (leBytes 8 f.len))

end Sys2Proof.Machine
end

