-- ==== Sys2Proof/Machine/Groomer.lean ====
section
/-!
DEFINITION. The Groomer's walkers, write-backs of corrected words, HBM refresh (01 R30, R33, 13 R415, R416, R422 to R427).
-/

namespace Sys2Proof.Machine

/-! ### Errors that reads meet (R410, R411) -/

/-- An error of the words of a unit that stays there: a decoder fault changes no stored word. -/
def strike (u : MemUnit) (s : State) (e : Upset) : State :=
  if holdsWord u e.addr && !e.decoder then strikeWord u s e.addr e.cls else s

/-- A read for which a decoder selects another word meets an even syndrome: never one of a correctable word (R409, R411). The words
that it meets in this read are classed so; `restore` gives the stored classes back. -/
def misread (u : MemUnit) (s : State) (e : Upset) : State :=
  if holdsWord u e.addr && e.decoder && e.cls != .correctable then setMarks s u (put (unitMarks s u) (markKey u e.addr) e.cls) else s

def restore (u : MemUnit) (before : State) (s : State) (e : Upset) : State :=
  if holdsWord u e.addr && e.decoder && e.cls != .correctable then
    let k := markKey u e.addr
    setMarks s u (match lookup (unitMarks before u) k with
      | some c => put (unitMarks s u) k c
      | none => del (unitMarks s u) k)
  else s

/-! ### A walker's read (R422 to R424, R427) -/

/-- One word that a walker reads (R424); an uncorrectable one in scratchpad counts on its core (14 R431). -/
def groomWord (u : MemUnit) (s : State) (a : Nat) : State :=
  match lookup (unitMarks s u) (markKey u a) with
  | some .correctable => corrected s u a
  | some .uncorrectable =>
    let s := memEvent (bump s 0x48018 1) u a kindUncorrectable
    (match u with
      | .spad p => checkThreshold (countFault s [p] 1) p
      | _ => s)
  | _ => s

/-- MEM_LAST keeps the event of highest rank of one cycle, the lowest address among equals (R427). -/
def keepHighest (s : State) (u : MemUnit) (as : List Nat) : State :=
  let is := fun c (a : Nat) => lookup (unitMarks s u) (markKey u a) == some c
  match as.find? (is .uncorrectable), as.find? (is .correctable) with
  | some a, _ => recordLast s u a kindUncorrectable
  | none, some a => recordLast s u a kindCorrected
  | none, none => s

/-- A walker reads words in ascending order, in one cycle. -/
def groomWords (s : State) (u : MemUnit) (as : List Nat) : State := keepHighest (each as s (groomWord u)) u as

/-- Words of a range that are not clean, in ascending order: the only ones a walker acts on. -/
def markedIn (s : State) (u : MemUnit) (lo n : Nat) : List Nat :=
  ((unitMarks s u).filter (fun e => markKey u lo ≤ e.1 && e.1 < markKey u lo + n)).map (fun e => e.1 - markKey u 0)

/-- The walker of a stack reads its next burst of 64 bytes. -/
def groomStack (s : State) (n : Nat) : State :=
  let o := lookupD s.walkers n 0
  let s := groomWords s (.hbm n) (markedIn s (.hbm n) (n * stackSize + o) 64)
  let s := { s with walkers := put s.walkers n ((o + 64) % stackSize) }
  if o + 64 = stackSize then bump s 0x48010 1 else s

/-- The walker of a core reads its next line in every bank: 4 KiB of consecutive addresses (R403). -/
def groomCore (s : State) (p : Nat) : State :=
  let l := (coreState s p).walker
  let s := groomWords s (.spad p) (markedIn s (.spad p) (4096 * l) 4096)
  let s := modCore s p (fun c => { c with walker := (l + 1) % 10240 })
  if l + 1 = 10240 then bump s 0x48010 1 else s

/-- 13 R424: GROOMER_READ, after the bit errors that have struck words of the unit since its last read, and with
the decoder faults of this read. No walker reads the other memories: bit errors only strike them. -/
def execGroomerRead (u : MemUnit) (upsets : List Upset) (s : State) : Result :=
  let struck := each upsets s (strike u)
  let back := fun t => each upsets t (restore u struck)
  .next (match u with
    | .hbm n => if n < 8 ∧ walking s 0 then back (groomStack (each upsets struck (misread u)) n) else s
    | .spad p => if mapByte s.map p < 16 ∧ walking s 1 then back (groomCore (each upsets struck (misread u)) p) else s
    | .other _ _ => struck)

/-! ### Write-back and refresh -/

/-- 13 R415, 01 R33: MEM_WRITE_BACK: the corrected word is written back and is clean; a write-back that was cancelled is not
made (R416). -/
def execMemWriteBack (u : MemUnit) (a : Nat) (s : State) : Result :=
  .next (if s.writeBacks.contains (u, a) && (s.power.st == .run || s.power.st == .doze) then
      setMarks { s with writeBacks := s.writeBacks.filter (fun e => !(e == (u, a))) } u (del (unitMarks s u) (markKey u a))
    else s)

/-- 01 R30: HBM_REFRESH: it takes a calendar position that is reserved, waits for nothing, and changes no word. -/
def execHbmRefresh (_ : Nat) (s : State) : Result := .next s

end Sys2Proof.Machine
end

