-- ==== Sys2Proof/Machine/Seeding.lean ====
section
/-!
DEFINITION. A generate call of the DRBG and what its bytes complete (07 R242, R244).
-/

namespace Sys2Proof.Machine

/-- The consumer order of a request (R244); the challenge is drawn as a nonce is (16 R486). -/
def drawOrder (d : Draw) : Nat :=
  match d with
  | .session _ _ => 1
  | .attest _ _ => 2
  | .challenge => 2
  | .seed _ _ _ _ => 3
  | .host _ => 4

/-- The request that the next call serves: the earliest of the lowest order that waits (R244). -/
def nextDraw (q : List EntReq) : Option EntReq :=
  ((List.range 5).filterMap (fun k => q.find? (fun e => drawOrder e.what == k))).head?

/-- Bytes of a call: at most 256 (R244). -/
def callBytes (e : EntReq) : Nat := min 256 (e.need - e.got.length)

/-- What a request that has all its bytes completes. -/
def finishDraw (s : State) (d : Draw) (bytes : List Byte) : State :=
  match d with
  | .session r p => openSession s r p bytes
  | .attest r p => finishAttest s r p bytes
  | .challenge => { s with sec := { s.sec with challenge := some bytes } }
  | .seed r op p tbl => runCommand s r op (modesOf s r op) p (some (BitVec.ofNat 64 (leNat bytes), tbl))
  | .host r => reply s r 0x70 .ok 0 bytes

/-- One generate call for a request: its bytes, counted as a call; the request completes or stays with what it has. -/
def generateFor (s : State) (e : EntReq) : State :=
  let d := drbg s (callBytes e)
  let got := e.got ++ d.1
  let s := d.2
  if e.need ≤ got.length then
    finishDraw (modEnt s (fun t => { t with queue := eraseFirst (fun x => x == e) t.queue })) e.what got
  else modEnt s (fun t => { t with queue := t.queue.map (fun x => if x == e then { x with got := got } else x) })

/-- 07 R244: DRBG_GENERATE. No call is made outside READY, nor while a reseed is due (R242). -/
def execDrbgGenerate (s : State) : Result :=
  .next (if entropyOn s && s.ent.st == .ready && !reseedDue s then
      match nextDraw s.ent.queue with
      | none => s
      | some e => generateFor s e
    else s)

end Sys2Proof.Machine
end

