-- ==== Sys2Proof/Machine/Dispatch.lean ====
section
/-! DEFINITION. The effect of each command: one arm per constructor of `Instr`. -/

namespace Sys2Proof.Machine

/-- The effect of a command on everything but the queue. -/
def exec (i : Instr) (s : State) : Host.Outcome State Fault Refusal :=
  match i with
  | .ping r payload => Sys2Proof.Machine.execPing r payload s
  | .info r payload => Sys2Proof.Machine.execInfo r payload s
  | .sessionOpen r payload => Sys2Proof.Machine.execSessionOpen r payload s
  | .sessionClose r payload => Sys2Proof.Machine.execSessionClose r payload s
  | .regRead r payload => Sys2Proof.Machine.execRegRead r payload s
  | .regWrite r payload => Sys2Proof.Machine.execRegWrite r payload s
  | .regReadInd r payload => Sys2Proof.Machine.execRegReadInd r payload s
  | .regWriteInd r payload => Sys2Proof.Machine.execRegWriteInd r payload s
  | .modelLoad r payload => Sys2Proof.Machine.execModelLoad r payload s
  | .modelVerify r payload => Sys2Proof.Machine.execModelVerify r payload s
  | .modelFree r payload => Sys2Proof.Machine.execModelFree r payload s
  | .ctxCreate r payload => Sys2Proof.Machine.execCtxCreate r payload s
  | .ctxUpdate r payload => Sys2Proof.Machine.execCtxUpdate r payload s
  | .ctxSave r payload => Sys2Proof.Machine.execCtxSave r payload s
  | .ctxRestore r payload => Sys2Proof.Machine.execCtxRestore r payload s
  | .ctxDestroy r payload => Sys2Proof.Machine.execCtxDestroy r payload s
  | .ctxQuery r payload => Sys2Proof.Machine.execCtxQuery r payload s
  | .runSample r payload => Sys2Proof.Machine.execRunSample r payload s
  | .runAnneal r payload => Sys2Proof.Machine.execRunAnneal r payload s
  | .runTemper r payload => Sys2Proof.Machine.execRunTemper r payload s
  | .runPause r payload => Sys2Proof.Machine.execRunPause r payload s
  | .runResume r payload => Sys2Proof.Machine.execRunResume r payload s
  | .runAbort r payload => Sys2Proof.Machine.execRunAbort r payload s
  | .statsRead r payload => Sys2Proof.Machine.execStatsRead r payload s
  | .tensorOp r payload => Sys2Proof.Machine.execTensorOp r payload s
  | .accDrain r payload => Sys2Proof.Machine.execAccDrain r payload s
  | .accDrainComplete r => Sys2Proof.Machine.execAccDrainComplete r s
  | .move r payload => Sys2Proof.Machine.execMove r payload s
  | .fill r payload => Sys2Proof.Machine.execFill r payload s
  | .entropyGet r payload => Sys2Proof.Machine.execEntropyGet r payload s
  | .powerSet r payload => Sys2Proof.Machine.execPowerSet r payload s
  | .wakeArm r payload => Sys2Proof.Machine.execWakeArm r payload s
  | .trailFreeze r payload => Sys2Proof.Machine.execTrailFreeze r payload s
  | .trailRead r payload => Sys2Proof.Machine.execTrailRead r payload s
  | .trailThaw r payload => Sys2Proof.Machine.execTrailThaw r payload s
  | .dumpRead r payload => Sys2Proof.Machine.execDumpRead r payload s
  | .faultMap r payload => Sys2Proof.Machine.execFaultMap r payload s
  | .joinConfig r payload => Sys2Proof.Machine.execJoinConfig r payload s
  | .barrier r payload => Sys2Proof.Machine.execBarrier r payload s
  | .fwStage r payload => Sys2Proof.Machine.execFwStage r payload s
  | .fwActivate r payload => Sys2Proof.Machine.execFwActivate r payload s
  | .otpProgram r payload => Sys2Proof.Machine.execOtpProgram r payload s
  | .debugUnlock r payload => Sys2Proof.Machine.execDebugUnlock r payload s
  | .attest r payload => Sys2Proof.Machine.execAttest r payload s
  | .frameReceived f => Sys2Proof.Machine.execFrameReceived f s
  | .ethernetWhistleFrame f => Sys2Proof.Machine.execEthernetWhistleFrame f s
  | .arpRequest port senderMac senderIp targetIp => Sys2Proof.Machine.execArpRequest port senderMac senderIp targetIp s
  | .neighborSolicitation port senderMac senderIp targetIp => Sys2Proof.Machine.execNeighborSolicitation port senderMac senderIp targetIp s
  | .gptpMessage port domain timeNs => Sys2Proof.Machine.execGptpMessage port domain timeNs s
  | .reorderWaitExpiry session => Sys2Proof.Machine.execReorderWaitExpiry session s
  | .sessionIdleTimeout session => Sys2Proof.Machine.execSessionIdleTimeout session s
  | .ethLinkUp port speed25 fec gptp eye => Sys2Proof.Machine.execEthLinkUp port speed25 fec gptp eye s
  | .ethLinkDown port => Sys2Proof.Machine.execEthLinkDown port s
  | .gateCycleStart port => Sys2Proof.Machine.execGateCycleStart port s
  | .leashCtrlFlit port flit => Sys2Proof.Machine.execLeashCtrlFlit port flit s
  | .ctrlFlitDue port => Sys2Proof.Machine.execCtrlFlitDue port s
  | .leashReplayTimeout port => Sys2Proof.Machine.execLeashReplayTimeout port s
  | .leashCtrlTimeout port => Sys2Proof.Machine.execLeashCtrlTimeout port s
  | .write m => Sys2Proof.Machine.execWrite m s
  | .writeAck m => Sys2Proof.Machine.execWriteAck m s
  | .readReq m => Sys2Proof.Machine.execReadReq m s
  | .readData m => Sys2Proof.Machine.execReadData m s
  | .valaz m => Sys2Proof.Machine.execValaz m s
  | .barrierMessage m => Sys2Proof.Machine.execBarrierMessage m s
  | .time m => Sys2Proof.Machine.execTime m s
  | .timeSend => Sys2Proof.Machine.execTimeSend  s
  | .lost m => Sys2Proof.Machine.execLost m s
  | .selftest m => Sys2Proof.Machine.execSelftest m s
  | .laneSignalLoss port lane => Sys2Proof.Machine.execLaneSignalLoss port lane s
  | .leashTrainingDone port lanes partner words => Sys2Proof.Machine.execLeashTrainingDone port lanes partner words s
  | .leashTrainingTimeout port => Sys2Proof.Machine.execLeashTrainingTimeout port s
  | .whistleRepeat port => Sys2Proof.Machine.execWhistleRepeat port s
  | .whistleTimeout port => Sys2Proof.Machine.execWhistleTimeout port s
  | .lossTimeout port => Sys2Proof.Machine.execLossTimeout port s
  | .barrierTimeout barrier => Sys2Proof.Machine.execBarrierTimeout barrier s
  | .joinWaitTimeout => Sys2Proof.Machine.execJoinWaitTimeout  s
  | .joinSelftestDone passed => Sys2Proof.Machine.execJoinSelftestDone passed s
  | .fieldVectorComplete core ctx batch => Sys2Proof.Machine.execFieldVectorComplete core ctx batch s
  | .sampleBatch core ctx batch => Sys2Proof.Machine.execSampleBatch core ctx batch s
  | .passKeyDraw ctx stream replica => Sys2Proof.Machine.execPassKeyDraw ctx stream replica s
  | .flipWalk core ctx => Sys2Proof.Machine.execFlipWalk core ctx s
  | .validation core ctx => Sys2Proof.Machine.execValidation core ctx s
  | .remoteCommitArrival core fromCore ctx => Sys2Proof.Machine.execRemoteCommitArrival core fromCore ctx s
  | .colourCommit core ctx => Sys2Proof.Machine.execColourCommit core ctx s
  | .sweepBoundary ctx => Sys2Proof.Machine.execSweepBoundary ctx s
  | .generatorSeedingDone ctx => Sys2Proof.Machine.execGeneratorSeedingDone ctx s
  | .tileDrain prog => Sys2Proof.Machine.execTileDrain prog s
  | .tileOutputWritten prog => Sys2Proof.Machine.execTileOutputWritten prog s
  | .faultRetry d => Sys2Proof.Machine.execFaultRetry d s
  | .knownAnswerWindow core pass engine => Sys2Proof.Machine.execKnownAnswerWindow core pass engine s
  | .fenceSequence reservesOk => Sys2Proof.Machine.execFenceSequence reservesOk s
  | .fenceOtpWrite interrupted => Sys2Proof.Machine.execFenceOtpWrite interrupted s
  | .fatalError cause unit => Sys2Proof.Machine.execFatalError cause unit s
  | .fetchDumpDone => Sys2Proof.Machine.execFetchDumpDone  s
  | .seating model placement => Sys2Proof.Machine.execSeating model placement s
  | .contextWriteBack ctx => Sys2Proof.Machine.execContextWriteBack ctx s
  | .dynamicLoadBalance model placement => Sys2Proof.Machine.execDynamicLoadBalance model placement s
  | .shareEviction model placement => Sys2Proof.Machine.execShareEviction model placement s
  | .memWriteBack unit addr => Sys2Proof.Machine.execMemWriteBack unit addr s
  | .groomerRead unit upsets => Sys2Proof.Machine.execGroomerRead unit upsets s
  | .hbmRefresh stack => Sys2Proof.Machine.execHbmRefresh stack s
  | .trailRecordWrite => Sys2Proof.Machine.execTrailRecordWrite  s
  | .trailSpill => Sys2Proof.Machine.execTrailSpill  s
  | .trailIntervalEnd key => Sys2Proof.Machine.execTrailIntervalEnd key s
  | .healthTestFail source test samples => Sys2Proof.Machine.execHealthTestFail source test s samples
  | .sourceRestart source => Sys2Proof.Machine.execSourceRestart source s
  | .sourceStartupPass source samples => Sys2Proof.Machine.execSourceStartupPass source s samples
  | .conditionedBlock samples => Sys2Proof.Machine.execConditionedBlock s samples
  | .drbgInstantiate => Sys2Proof.Machine.execDrbgInstantiate  s
  | .drbgReseed => Sys2Proof.Machine.execDrbgReseed  s
  | .drbgGenerate => Sys2Proof.Machine.execDrbgGenerate  s
  | .hostWaitExpiry r => Sys2Proof.Machine.execHostWaitExpiry r s
  | .sleepEntryComplete => Sys2Proof.Machine.execSleepEntryComplete  s
  | .wakeNAssert => Sys2Proof.Machine.execWakeNAssert  s
  | .rtcAlarm => Sys2Proof.Machine.execRtcAlarm  s
  | .thermalWake sensor temp => Sys2Proof.Machine.execThermalWake sensor temp s
  | .leashActivity port lane inWindow => Sys2Proof.Machine.execLeashActivity port lane inWindow s
  | .sleepExitComplete cores hbms => Sys2Proof.Machine.execSleepExitComplete s cores hbms
  | .coreClkGate half => Sys2Proof.Machine.execCoreClkGate half s
  | .throttleTempReached sensor temp => Sys2Proof.Machine.execThrottleTempReached sensor temp s
  | .throttleStepTimer half => Sys2Proof.Machine.execThrottleStepTimer half s
  | .alertTemp sensor temp => Sys2Proof.Machine.execAlertTemp sensor temp s
  | .relockDone => Sys2Proof.Machine.execRelockDone  s
  | .thermtrip sensor temp => Sys2Proof.Machine.execThermtrip sensor temp s
  | .pwrOkAssert => Sys2Proof.Machine.execPwrOkAssert  s
  | .pwrOkDeassert => Sys2Proof.Machine.execPwrOkDeassert  s
  | .inputUndervoltage mv => Sys2Proof.Machine.execInputUndervoltage mv s
  | .rstNAssert => Sys2Proof.Machine.execRstNAssert  s
  | .warmReset => Sys2Proof.Machine.execWarmReset  s
  | .rstNDeassert => Sys2Proof.Machine.execRstNDeassert  s
  | .glitchDetected kind unit => Sys2Proof.Machine.execGlitchDetected kind unit s
  | .startDone failed => Sys2Proof.Machine.execStartDone failed s
  | .boot => Sys2Proof.Machine.execBoot  s
  | .secRecover path value => Sys2Proof.Machine.execSecRecover path value s
  | .muzzle path value => Sys2Proof.Machine.execMuzzle path value s
  | .muzzleArmExpiry path => Sys2Proof.Machine.execMuzzleArmExpiry path s
  | .indData path value => Sys2Proof.Machine.execIndData path value s
  | .loWordRead path addr => Sys2Proof.Machine.execLoWordRead path addr s
  | .secChallenge0 path => Sys2Proof.Machine.execSecChallenge0 path s
  | .fetchStatusKept path value => Sys2Proof.Machine.execFetchStatusKept path value s
  | .registerWrite path addr value hw => Sys2Proof.Machine.execRegisterWrite path addr value hw s
  | .commandBoundary => Sys2Proof.Machine.execCommandBoundary  s
  | .sidebandRegRead bytes pecOk => Sys2Proof.Machine.execSidebandRegRead bytes pecOk s
  | .sidebandRegWrite bytes pecOk => Sys2Proof.Machine.execSidebandRegWrite bytes pecOk s
  | .indRead bytes pecOk => Sys2Proof.Machine.execIndRead bytes pecOk s
  | .indWrite bytes pecOk => Sys2Proof.Machine.execIndWrite bytes pecOk s
  | .telemetry bytes pecOk => Sys2Proof.Machine.execTelemetry bytes pecOk s
  | .alertResponse => Sys2Proof.Machine.execAlertResponse  s
  | .setdasa addr => Sys2Proof.Machine.execSetdasa addr s
  | .entdaa addr => Sys2Proof.Machine.execEntdaa addr s
  | .rstdaa => Sys2Proof.Machine.execRstdaa  s
  | .getpid => Sys2Proof.Machine.execGetpid  s
  | .getbcr => Sys2Proof.Machine.execGetbcr  s
  | .getdcr => Sys2Proof.Machine.execGetdcr  s
  | .getstatus => Sys2Proof.Machine.execGetstatus  s
  | .enec => Sys2Proof.Machine.execEnec  s
  | .disec => Sys2Proof.Machine.execDisec  s
  | .extest => Sys2Proof.Machine.execExtest  s
  | .samplePreload cells => Sys2Proof.Machine.execSamplePreload cells s
  | .idcode => Sys2Proof.Machine.execIdcode  s
  | .clamp => Sys2Proof.Machine.execClamp  s
  | .highz => Sys2Proof.Machine.execHighz  s
  | .bypass => Sys2Proof.Machine.execBypass  s
  | .leashFrameBoundary port => Sys2Proof.Machine.execLeashFrameBoundary port s
  | .alertTempRelease sensor temp => Sys2Proof.Machine.execAlertTempRelease sensor temp s
  | .wakeNDeassert => Sys2Proof.Machine.execWakeNDeassert  s
  | .joinIdChange level => Sys2Proof.Machine.execJoinIdChange level s
  | .flitCrcError port seq vl why => Sys2Proof.Machine.execFlitCrcError port seq vl why s
  | .moveComplete r => Sys2Proof.Machine.execMoveComplete r s
  | .fillComplete r => Sys2Proof.Machine.execFillComplete r s
  | .modelLoadComplete r => Sys2Proof.Machine.execModelLoadComplete r s
  | .ctxSaveComplete r => Sys2Proof.Machine.execCtxSaveComplete r s

end Sys2Proof.Machine
end

