-- ==== Sys2Proof/Machine/Idle.lean ====
section
/-!
DEFINITION. What happens when no command waits: one period of the RTC passes (15 R478; log 2).
-/

namespace Sys2Proof.Machine

/-- One RTC period passes: the count advances by 1. -/
def idle (s : State) : State := { s with rtc := s.rtc + 1 }

end Sys2Proof.Machine
end

