-- ==== Sys2Proof/Safety.lean ====
section
/-!
DEFINITION. What a safe run is, and the words that the statements use: a command that the Handler takes now, operands that pass
a command's checks, a path that can be accessed, the share of a sweep that a core works on.
-/

namespace Sys2Proof.Machine

/-- The invariant of every run: HBM and the scratchpads are held in their one canonical form. -/
def State.Inv (s : State) : Prop := Memory.wf s.hbm ∧ Memory.wf s.spad

/-- A run is safe while no command of it stops the machine. -/
def Safe (s : State) : Prop := ∃ t, step s = .next t

/-- The Handler takes a command in Run after START_DONE, and no earlier command of its session holds it up (10 R324). -/
def Ready (s : State) (r : Req) (op : Nat) (ctx model : Option Nat) : Prop :=
  takes s r op false false = true ∧ mustWait s r op ctx model = false

/-- The same for a command that Doze or the time before START_DONE may serve (15 R457, R474). -/
def ReadyEarly (s : State) (r : Req) (op : Nat) (early doze : Bool) : Prop :=
  takes s r op early doze = true ∧ mustWait s r op none none = false

/-- A context that sits with a sweep in progress or about to begin, and the core's share of it (03 R99). -/
def ShareAt (s : State) (core i : Nat) (c : Ctx) (seat : Seat) (w : Sweep) (h : Share) : Prop :=
  lookup s.ctxs i = some c ∧ sweepOf s i c = some (seat, w) ∧ w.shares.find? (fun x => x.core == core) = some h

/-- The sweep of a seated context. -/
def sweepNow (s : State) (i : Nat) : Option Sweep := (lookup s.ctxs i).bind (fun c => c.seat.bind (·.sweep))

/-- The share of a core in a context's sweep. -/
def shareNow (s : State) (core i : Nat) : Option Share :=
  (sweepNow s i).bind (fun w => w.shares.find? (fun x => x.core == core))

/-- The content of a context as readers outside its seat see it (08 R270). -/
def contentOf (s : State) (i : Nat) : Option CtxData := (lookup s.ctxs i).map ctxNow

/-- A tagged reply left on a port, from that port's own addresses (10 R304): the newest output. -/
def LeftOn (t : State) (port : Nat) (r : Reply) : Prop := ∃ x, x.mac = macOf t port ∧ t.out.head? = some (.reply port false x r)

/-- A Leash message reached an ACTIVE port whole and in order, within its buffer, and keeps the rules of R374 and R375 (12 R398). -/
def Arrives (s : State) (kind : Nat) (m : LeashMsg) : Prop :=
  linkActive s m.port = true ∧ m.kind = kind ∧ m.first = 0 ∧ m.data.length = dataLen m ∧
  flitsOf (dataLen m) ≤ bufferRoom s m.port m.vl ∧ m.seq = (port s m.port).rxSeq ∧ messageOk s m = true

/-- The state in which a message that arrives whole is handled: its flits are accepted, and none of it is under way (12 R378, R379). -/
def afterFlits (s : State) (m : LeashMsg) : State := setPartial (acceptFlits s m (runFlits m)) m.port m.vl none

/-- A path reaches the register word at an address (17 R501, R503). -/
def Reaches (s : State) (p a : Nat) : Prop :=
  pathOpen s p = true ∧ (regInfo a).isSome = true ∧ (p = 8 → deepSleep s = true → switchedReg a = false)

/-- A 64-bit counter (17 R509, R511); `lo` is the address of its low word. -/
def count64 (s : State) (lo : Nat) : Nat := regVal s lo + 2 ^ 32 * regVal s (lo + 4)

/-- The module sleeps, and neither an exit nor a fatal error is under way (15 R456, R463). -/
def Asleep (s : State) : Prop :=
  s.faults.fatal = none ∧ s.power.entering = none ∧ s.power.st ≠ .run ∧ s.power.exiting = false ∧ s.power.phase ≠ .off ∧
  s.power.phase ≠ .reset

/-- The exit from the sleep state has begun, under a wake source's code and WAKE_EVENTS bit (15 R461, R478). -/
def ExitBegun (s t : State) (code : Nat) : Prop :=
  t.power.exiting = true ∧ t.power.wake = code ∧ t.power.lastWake = code ∧ t.power.st = s.power.st ∧ regBit t 0x1004 (code - 1) = true

/-- What a speculative vector leaves in the pending plane at validation: its sample, or, of an invalid one, that of the vector over
the committed values, under the same key (03 R105). -/
def validatedUpd (m : Model) (w : Sweep) (h : Share) (v : Vec) : Option Upd :=
  if v.invalid then
    (keyOf m w v.var v.rep).map (drawSample w.work (vectorOf m w.work (h.plane.getD v.rep []) v.var v.rep false))
  else h.spec.find? (fun u => u.var == v.var && u.rep == v.rep)

/-- A register word whose reads have no effect of their own: no word of the indirect window, of the challenge, of a pair, and no
engine status (17 R506, R509, R510, R515). -/
def plainRead (a : Nat) : Bool :=
  a != 0x50000 && a != 0x50004 && a != 0x50008 && !(decide (0x5040 ≤ a ∧ a ≤ 0x506C)) && !isHighWord a && (pairHigh a).isNone &&
  !(decide (0x10000 ≤ a ∧ a < 0x22000) && (a % 0x1000) ∈ [0x204, 0x300, 0x500])

/-- A register word whose writes have no effect but on the register: none of MUZZLE, SEC_RECOVER, FETCH_STATUS, IND. -/
def plainWrite (a : Nat) : Bool :=
  a != 0x5008 && a != 0x5018 && a != 0x2024 && a != 0x50000 && a != 0x50004 && a != 0x50008

/-- The value in effect that a read returns (17 R506). -/
def valueInEffect (s : State) (armed : Bool) (a : Nat) : Nat := (viewReg s armed a).getD (regVal s a)

/-- A region inside the map, aligned and, for one that is written, clear of what may not be written (11 R336). -/
def RegionOk (s : State) (a n align : Nat) (write : Bool) : Prop :=
  inMap a n = true ∧ a % align = 0 ∧ (write = true → writeProtected s a n = false)

/-- The operands of a CTX_CREATE with inline data pass every check of R264 and R347: model, index and place of the context. -/
def CreateFits (s : State) (p : List Byte) (mi : Nat) (m : Model) (i a : Nat) : Prop :=
  let cap := if u16 p 12 = 0 then 64 else u16 p 12
  let class_ := classOf (usedBytes m (u8 p 9) cap)
  modelOfHandle s (u32 p 0) = some (mi, m) ∧ u64 p 24 = 0 ∧ p.length = 32 + (createLens m (u8 p 9) (u8 p 10)).sum ∧
  u8 p 11 = 0 ∧ u16 p 14 = 0 ∧ 1 ≤ u8 p 9 ∧ u8 p 9 ≤ m.maxReplicas ∧ u8 p 10 ≤ 1 ∧ u16 p 12 ≤ 4096 ∧
  (u8 p 8 < 8 ∨ u8 p 8 = 0xFF) ∧
  (u32 p 4 = 0xFFFFFFFF ∨ (u32 p 4 < 2 ^ 18 ∧ lookup s.ctxs (u32 p 4) = none)) ∧
  belowK m (clampeds m) (createEvidence m (p.drop 32)) = true ∧
  (createLatent m (u8 p 9) (u8 p 10) (p.drop 32)).all (belowK m (latents m)) = true ∧
  targetIndex s (u32 p 4) = some i ∧
  poolPlace s i none (homeOf (u8 p 8) i) (classBytes class_.1 class_.2) = some a ∧ class_.2 ≤ 4096

/-- Where a context stands in the run list of a placement of its model (08 R271). -/
def runList (s : State) (mi place : Nat) : List Nat := ((lookup s.models mi).bind (fun m => m.lists[place]?)).getD []

/-- The opcode of a run command, and the command (04 R121). -/
def runInstr (op : Nat) (r : Req) (p : List Byte) : Instr :=
  if op = 0x40 then .runSample r p else if op = 0x41 then .runAnneal r p else .runTemper r p

/-- A run command passes every check of R354: its context is Idle, its fields are in range, its schedule or ladder is allowed, and
the table it names is `tbl`, read in the state `v`. -/
def RunFits (s : State) (op : Nat) (p : List Byte) (c : Ctx) (tbl : List Byte) (v : State) : Prop :=
  let b := slice p 8 128
  let kind := kindOf op
  let table := kind != 3 && pSchedule b == 3
  ctxOf s (u32 p 0) = some c ∧ (if op = 0x42 then p.length = 136 + 4 * c.replicas else p.length = 136) ∧ p.length ≤ 392 ∧
  allZero (slice p 4 4) = true ∧ unusedBad kind b = false ∧ rangesBad kind b = false ∧ c.st = .idle ∧
  (table = true → pTableLen b ≤ c.tableCap ∧ RegionOk s (pTableAddr b) (8 * pTableLen b) 64 false) ∧
  (if table then readHbm s (pTableAddr b) (8 * pTableLen b) else (some [], s)) = (some tbl, v) ∧
  (kind ≠ 3 → scheduleBad b tbl = false) ∧ (kind = 3 → ladderBad c (p.drop 136) = false) ∧
  margBad c kind b = false ∧ exchBad kind b = false

/-- A model's run lists: one for each placement, of which there is at least one (08 R267, R271). -/
def ListsFit (m : Model) : Prop := m.lists.length = m.placements.length ∧ m.placements ≠ []

/-- A TENSOR_OP, accepted under the modes `md`, whose program has been read and passes the program check (05 R170). -/
def ProgFits (s : State) (md : Modes) (pl b : List Byte) (v : State) : Prop :=
  pl.length = 16 ∧ allZero (slice pl 12 4) = true ∧ RegionOk s (u64 pl 0) (u32 pl 8) 64 false ∧ 32 ≤ u32 pl 8 ∧ u32 pl 8 ≤ 8224 ∧
  readHbm s (u64 pl 0) (u32 pl 8) = (some b, v) ∧ progBad v md.tree md.gn5 b = false ∧
  (progSteps b).any (stepTooLong md.gn5 (progTensors b)) = false

/-- The operands of the tile in progress of a MATMUL step have been read, in the state `v`, and hold no invalid encoding. -/
def OperandsRead (s : State) (p : Prog) (a b : Tensor) (as bs : List (List Group)) (pre : List (List Word)) (v : State) : Prop :=
  let ra := readGroups s a (tileM p)
  let rb := readGroups ra.2 b (tileN p)
  ra.1 = some as ∧ rb.1 = some bs ∧
  (if biasLate (curStep p).outStage then (some [], rb.2) else readPreload rb.2 p (curStep p)) = (some pre, v) ∧
  as.any (·.any (·.bad)) = false ∧ bs.any (·.any (·.bad)) = false

/-- The operands of an ACC_DRAIN of mode FENCE are in range (11 R357). -/
def FenceFits (s : State) (b : List Byte) : Prop :=
  b.length = 16 ∧ u8 b 0 = 0 ∧ allZero (slice b 1 3 ++ slice b 6 6) = true ∧ (u32 b 12 = 0 ∨ (ctxOf s (u32 b 12)).isSome = true)

/-- A MOVE of a local kind, 0 to 2, passes the checks of R359 and R361. -/
def LocalMoveFits (s : State) (p : List Byte) : Prop :=
  u8 p 0 < 3 ∧ allZero (slice p 1 3) = true ∧ u32 p 4 = bridge ∧
  (u8 p 0 = 0 → p.length = 32 ∧ RegionOk s (u64 p 8) (u64 p 24) 1 false ∧ RegionOk s (u64 p 16) (u64 p 24) 1 true) ∧
  (u8 p 0 = 1 → p.length = 32 + u64 p 24 ∧ u64 p 8 = 0 ∧ RegionOk s (u64 p 16) (u64 p 24) 1 true) ∧
  (u8 p 0 = 2 → p.length = 32 ∧ u64 p 16 = 0 ∧ u64 p 24 ≤ 8184 ∧ RegionOk s (u64 p 8) (u64 p 24) 1 false)

/-- A MOVE over Leash, kinds 3 to 5, passes the checks of R359 and R361. -/
def RemoteMoveFits (s : State) (p : List Byte) : Prop :=
  3 ≤ u8 p 0 ∧ u8 p 0 ≤ 5 ∧ allZero (slice p 1 3) = true ∧ p.length = 32 ∧
  (u8 p 0 = 3 → u32 p 4 ≠ bridge ∧ s.join.st = .complete ∧ u32 p 4 < s.join.count ∧ routesTo s (u32 p 4) ≠ [] ∧
    RegionOk s (u64 p 8) (u64 p 24) 1 false ∧ inMap (u64 p 16) (u64 p 24) = true) ∧
  (u8 p 0 = 4 → u32 p 4 = bridge ∧ (bridgePort s).isSome = true ∧ RegionOk s (u64 p 8) (u64 p 24) 1 false) ∧
  (u8 p 0 = 5 → u32 p 4 = bridge ∧ (bridgePort s).isSome = true ∧ RegionOk s (u64 p 16) (u64 p 24) 1 true)

/-- The operands of an ACC_DRAIN of mode COMBINE, accepted under the modes `md`, pass every check of R200, R336 and R358. -/
def CombineFits (s : State) (md : Modes) (b : List Byte) : Prop :=
  u8 b 0 = 1 ∧ b.length = 128 + 48 * u8 b 3 ∧ b.length ≠ 16 ∧ drainReserved b = false ∧ combineRangeBad b = false ∧
  (combineTensors b).any tensorOutside = false ∧
  [32, 64].any (fun o => (combineTensor b o).any (fun x => writeProtected s x.addr (tensorSize x))) = false ∧
  partsBad b = false ∧ combineShapeBad b = false ∧ combineTooLong md.gn5 b = false

/-- The step in progress with the OUT_SCALE that the output stage takes. -/
def stepNow (p : Prog) : TStep := cleanScale p (curStep p)

/-- The columns of the drained tile, as the output stage takes them: the column's number, its elements, its late bias. -/
def tileColumns (p : Prog) (q : Tile) (late : List (List Word)) : List (Nat × List Elem × List Word) :=
  (List.range q.elems.length).map (fun k => ((tileN p).getD k 0, q.elems.getD k [], late.getD k []))

/-- Bytes written at an address: a code word that could be read, or that they cover whole, holds them; every other byte reads as
before (13 R414, R417, R418). -/
def Written (s t : State) (a : Nat) (bs : List Byte) : Prop :=
  (∀ k, k < bs.length →
    ((peek s ((a + k) / 8 * 8)).isSome = true ∨ (a ≤ (a + k) / 8 * 8 ∧ (a + k) / 8 * 8 + 8 ≤ a + bs.length)) →
    peek t (a + k) = bs[k]?) ∧
  (∀ b, b < a ∨ a + bs.length ≤ b → peek t b = peek s b)

/-- A token and, where the command has one, the region that the token's digest covers have been read, in the state `v`. -/
def TokenRead (s : State) (a : Nat) (region : Option (Nat × Nat)) (token bytes : List Byte) (v : State) : Prop :=
  ∃ w, readToken s a = (some token, w) ∧ region.elim (some [], w) (fun d => readHbm w d.1 d.2) = (some bytes, v)

/-- A raw frame that check 1 accepts while the module is in Run, without 802.1CB and unmetered (10 R302, R303). -/
def FrameFits (s : State) (f : Frame) (data : List Byte) : Prop :=
  frontEndOn s = true ∧ (ethPort s f.port).link = true ∧ f.fcsOk = true ∧ frameOk s f = true ∧ policed s f = some s ∧ f.rTags = [] ∧
  f.body = .raw 0x88B5 data ∧ isWhistle f = false ∧ s.power.st = .run ∧ s.power.entering = none

/-- The packet passes checks 2 to 6 as a command of open session `k` (10 R307, R310, R319). -/
def PacketFits (s : State) (data : List Byte) (k op : Nat) (seq : Word) (resend : Bool) : Prop :=
  data.length = 64 + u16 data 8 ∧ u8 data 0 = 1 ∧ u8 data 1 = 0 ∧ u8 data 2 = k ∧ k < 8 ∧ u8 data 3 = op ∧ op ≠ 3 ∧
  w32 data 4 = seq ∧ u16 data 8 ≤ 8192 ∧ u16 data 10 = 1 + 2 * ofBool resend ∧ u32 data 12 = 0 ∧ (session s k).isOpen = true ∧
  hmac384 (session s k).kH (data.take (16 + u16 data 8)) = slice data (16 + u16 data 8) 48

/-- The member has learnt that member `j` is lost: it is INCOMPLETE, and barriers, member MOVEs and a SET that waits are over
(12 R395, R396). -/
def KnowsLost (s t : State) (j : Nat) : Prop :=
  t.join.st = .incomplete ∧ t.join.lost = s.join.lost ++ [j] ∧ t.join.lostFirst = some (s.join.lostFirst.getD j) ∧
  t.join.barriers = [] ∧ (∀ m ∈ t.moves, m.kind ≠ 3) ∧ t.join.setReq = none

end Sys2Proof.Machine
end

