-- ==== Sys2Proof/Certificates/Slice0/Obligations.lean ====
section
/-!
DEFINITION. The statements for the provers: what the rules of the spec say the module does, family by family of its commands.
-/

open Sys2Proof Sys2Proof.Machine

/-! ### The block and its queue -/

/-- The command at the front of the queue has its effect, with the queue's rest. -/
def Obligations.StepRunsFront : Prop :=
  ∀ (c : Instr) (s : State), step { s with pending := c :: s.pending } = exec c s

/-- No command stops the module: every step is safe. On an empty queue one RTC period passes and nothing else changes (the
model's choice, log 2). -/
def Obligations.StepsNeverStop : Prop :=
  (∀ s : State, Safe s) ∧
  (∀ s : State, s.pending = [] → ∃ t, step s = .next t ∧ t.rtc = s.rtc + 1 ∧ { t with rtc := s.rtc } = s)

/-- Right after reset nothing waits, no session is open, no model is loaded, no context lives, every code word of HBM reads as
sealed, the module is in Run, SINGLE and not in a fatal error, and no core is fenced in volatile form. At reset every stored
register reads as the reset value of its table row. -/
def Obligations.ResetLeaves : Prop :=
  (State.reset.pending = [] ∧ (∀ k, (session State.reset k).isOpen = false) ∧ State.reset.models = [] ∧ State.reset.ctxs = [] ∧
   (∀ a, peek State.reset a = none) ∧ State.reset.power.st = .run ∧ State.reset.join.st = .single ∧
   State.reset.faults.fatal = none ∧ (∀ p, (coreState State.reset p).volatile = false)) ∧
  (∀ a i, regInfo a = some i → regVal State.reset a = i.reset)

/-- The canonical form of HBM and of the scratchpads holds at reset. -/
def Obligations.ResetCanonical : Prop :=
  State.reset.Inv

/-- Every step keeps the canonical form of HBM and of the scratchpads. -/
def Obligations.StepKeepsCanonical : Prop :=
  ∀ s t : State, s.Inv → step s = .next t → t.Inv

/-! ### Replies, PING, INFO and sessions -/

/-- The reply of a command of an open session, with its port's link up and without CB_REPLY, is tagged under K_M, leaves on
the port that received the command, from that port's MAC address, and enters the session's cache of 32; the command is no
longer taken. The reply of a
command of a closed session is discarded. A reply over Ethernet leaves every register, memory, table, core and power state as
it was. -/
def Obligations.ReplyIsTaggedCachedAndSent : Prop :=
  (∀ (s : State) (r : Req) (k op : Nat) (st : Status) (d : Nat) (p : List Byte) (own : Nat),
     r.session = some k → (session s k).isOpen = true → r.src.carrier ≠ .leash → regBit s 0x6050 5 = false →
     (ethPort s r.src.port).link = true →
     ∃ (x : Reply) (w : Sender), w.mac = macOf s r.src.port ∧ x.tagged = true ∧ x.session = k ∧ x.opcode = op ∧ x.seq = r.seq ∧
       x.status = st ∧ x.detail = d ∧ x.payload = p ∧
       x.tag = hmac384 (session s k).kM (x.header ++ x.payload) ∧
       (reply s r op st d p own).out = .reply r.src.port false w x :: s.out ∧
       (session (reply s r op st d p own) k).cache = (x :: (session s k).cache).take 32 ∧
       (∀ t ∈ (reply s r op st d p own).taken, ¬ (t.r = r ∧ t.opcode = op))) ∧
  (∀ (s : State) (r : Req) (k op : Nat) (st : Status) (d : Nat) (p : List Byte) (own : Nat),
     r.session = some k → (session s k).isOpen = false →
     (reply s r op st d p own).out = s.out ∧ (reply s r op st d p own).sessions = s.sessions) ∧
  (∀ (s : State) (r : Req) (op : Nat) (st : Status) (d : Nat) (p : List Byte) (own : Nat), r.src.carrier ≠ .leash →
     ∃ ss tk us o, reply s r op st d p own = { s with sessions := ss, taken := tk, unsent := us, out := o })

/-- PING echoes a payload of at most 64 bytes; INFO without a payload replies the 64 bytes of its layout, which begin with
the part number. -/
def Obligations.PingAndInfoReplyOk : Prop :=
  (∀ (s : State) (r : Req) (p : List Byte), Ready s r 0x01 none none → p.length ≤ 64 →
    exec (.ping r p) s = .next (reply (unqueue s r 0x01) r 0x01 .ok 0 p)) ∧
  (∀ (s : State) (r : Req), Ready s r 0x02 none none →
    exec (.info r []) s = .next (reply (unqueue s r 0x02) r 0x02 .ok 0 (infoBytes s)) ∧
    (infoBytes s).length = 64 ∧ (infoBytes s).take 8 = ascii "GN7-M384")

/-- A SESSION_CLOSE that comes after every earlier command of its session has replied, and an idle session at its timeout,
close the session: its number is free again and its register path is gone. Every other session stays as it was but for a
reply. -/
def Obligations.SessionsClose : Prop :=
  (∀ (s : State) (r : Req) (k : Nat), r.session = some k → s.taken.any (fun t => t.r.session == some k) = false →
    Ready s r 0x04 none none →
    ∃ t, exec (.sessionClose r []) s = .next t ∧ (session t k).isOpen = false ∧ lookup t.paths k = none ∧
      (∀ j, j ≠ k → session t j = session s j) ∧ t.hbm = s.hbm ∧ t.regs = s.regs) ∧
  (∀ (s : State) (k : Nat), k < 8 → idleExpired s k = true →
    ∃ t, exec (.sessionIdleTimeout k) s = .next t ∧ (session t k).isOpen = false ∧ lookup t.paths k = none ∧
      (∀ j, j ≠ k → session t j = session s j) ∧ t.out = s.out)

/-- A SESSION_OPEN whose signature verifies under the operator key of its slot waits for 104 bytes of the DRBG; one that does
not is counted, and answered AUTH_FAILED when it opens an interval. -/
def Obligations.SessionOpenIsChecked : Prop :=
  ∀ (s : State) (r : Req) (p key : List Byte), r.session = none → Ready s r 0x03 none none → p.length = 248 →
    allZero (slice p 1 3 ++ slice p 149 3) = true → u8 p 0 ≤ 3 → u8 p 52 = 4 →
    operatorKey s.sec.otp (u8 p 0) = some key → s.ent.st ≠ .failed →
    ∃ t, exec (.sessionOpen r p) s = .next t ∧
      (ecdsaOk key (sha384 (p.take 152)) (slice p 152 96) = true →
        t.ent.queue = s.ent.queue ++ [⟨.session r p, 104, []⟩] ∧ t.out = s.out) ∧
      (ecdsaOk key (sha384 (p.take 152)) (slice p 152 96) = false →
        let f := authFailure (unqueue s r 0x03) r.src
        t = (if f.1 then reply f.2 r 0x03 .authFailed 0x020C else f.2) ∧ t.ent.queue = s.ent.queue ∧ regVal t 0x682C = min (regVal s 0x682C + 1) 0xFFFFFFFF)

/-! ### Registers -/

/-- A REG_READ of one plain word returns the value in effect, never a pending one; REG_STATUS.PENDING counts the registers
that hold a pending value, up to its 127. -/
def Obligations.ReadsReturnTheValueInEffect : Prop :=
  ∀ (s : State) (r : Req) (p : List Byte) (k : Nat), r.session = some k → k < 8 → p.length = 8 → u16 p 4 = 1 →
    allZero (slice p 6 2) = true → (regInfo (u32 p 0)).isSome = true → plainRead (u32 p 0) = true →
    ReadyEarly s r 0x10 (earlyWords p false) true →
    let u := unqueue s r 0x10
    exec (.regRead r p) s =
      .next (reply u r 0x10 .ok 0 (leBytes 4 1 ++ leBytes 4 (valueInEffect u (path s k).armed (u32 p 0)))) ∧
    (∀ h b, u32 p 0 ≠ 0x24 → valueInEffect { s with heldRegs := h } b (u32 p 0) = valueInEffect s b (u32 p 0)) ∧
    (∀ b, valueInEffect s b 0x24 = min (pendingRegs s) 127)

/-- REG_READ and REG_READ_IND read their words upward and stop at the first that fails: the reply counts the words read and
carries them, with the failing word's status. REG_WRITE and REG_WRITE_IND write their words upward and stop at the first that
fails: the reply counts the words written. The command's own end is a command boundary. -/
def Obligations.RegAccessesStopAtTheFirstFailure : Prop :=
  (∀ (s : State) (r : Req) (p : List Byte) (k : Nat) (ind : Bool), r.session = some k → p.length = 8 →
     1 ≤ u16 p 4 → u16 p 4 ≤ 256 → allZero (slice p 6 2) = true →
     let op := if ind then 0x12 else 0x10
     let u := unqueue s r op
     let got := readMany (u16 p 4) (loadInd u k (u32 p 0) ind) k (u32 p 0) ind
     ReadyEarly s r op (earlyWords p ind) true →
     exec (if ind then .regReadInd r p else .regRead r p) s =
       .next (reply got.2.2 r op (got.2.1.getD (.ok, 0)).1 (got.2.1.getD (.ok, 0)).2 (leBytes 4 (got.1.length / 4) ++ got.1)) ∧
     (got.2.1 = none → got.1.length = 4 * u16 p 4) ∧ (got.2.1.isSome = true → got.1.length < 4 * u16 p 4)) ∧
  (∀ (s : State) (r : Req) (p : List Byte) (k : Nat) (ind : Bool), r.session = some k → p.length = 8 + 4 * u16 p 4 →
     1 ≤ u16 p 4 → u16 p 4 ≤ 256 → allZero (slice p 6 2) = true →
     let op := if ind then 0x13 else 0x11
     let u := unqueue s r op
     let done := writeMany (payloadWords p) (loadInd u k (u32 p 0) ind) k (u32 p 0) ind
     ReadyEarly s r op (earlyWords p ind) true →
     exec (if ind then .regWriteInd r p else .regWrite r p) s =
       .next (reply (commandBoundary done.2.2) r op (done.2.1.getD (.ok, 0)).1 (done.2.1.getD (.ok, 0)).2 (leBytes 4 done.1)) ∧
     (done.2.1 = none → done.1 = u16 p 4) ∧ (done.2.1.isSome = true → done.1 < u16 p 4))

/-- A write that takes effect at once changes the bits of its RW fields, clears the W1C bits written as 1 that hardware does
not set in the same cycle, and keeps every other bit; a counter's count of that cycle is lost and its miss flag set; a masked
register takes the bits that the upper half names; every other register keeps its value. A write that waits for the command
boundary leaves every value in effect; at the boundary its RW fields take the pending value. -/
def Obligations.WritesTakeEffectAtTheirBoundary : Prop :=
  (∀ (s : State) (p a : Nat) (i : RegInfo) (v hw : Word), Reaches s p a → regInfo a = some i → plainWrite a = true →
    i.guarded = false → i.masked = false → i.bound = .now → i.miss = none →
    ∃ t, exec (.registerWrite p a v hw) s = .next t ∧
      regVal t a = (((regVal s a &&& (0xFFFFFFFF ^^^ (i.rw ||| i.w1c))) ||| (v.toNat &&& i.rw) |||
        (regVal s a &&& i.w1c &&& (0xFFFFFFFF ^^^ v.toNat)) ||| (hw.toNat &&& i.w1c)) % 2 ^ 32) ∧
      (∀ b, b ≠ a → regVal t b = regVal s b) ∧ { t with regs := s.regs } = s) ∧
  (∀ (s : State) (p a m b : Nat) (i : RegInfo) (v hw : Word), Reaches s p a → regInfo a = some i → plainWrite a = true →
    i.guarded = false → i.masked = false → i.bound = .now → i.miss = some (m, b) → m ≠ a → b < 32 → hw.toNat ≠ 0 →
    ∃ t, exec (.registerWrite p a v hw) s = .next t ∧ regBit t m b = true ∧
      regVal t a = (((regVal s a &&& (0xFFFFFFFF ^^^ (i.rw ||| i.w1c))) ||| (v.toNat &&& i.rw) |||
        (regVal s a &&& i.w1c &&& (0xFFFFFFFF ^^^ v.toNat)) ||| (hw.toNat &&& i.w1c)) % 2 ^ 32) ∧
      (∀ c, c ≠ a → c ≠ m → regVal t c = regVal s c)) ∧
  (∀ (s : State) (p a : Nat) (i : RegInfo) (v hw : Word), Reaches s p a → regInfo a = some i → plainWrite a = true →
    i.guarded = false → i.masked = true → i.bound = .now →
    ∃ t, exec (.registerWrite p a v hw) s = .next t ∧ (∀ b, b ≠ a → regVal t b = regVal s b) ∧
      regVal t a = ((regVal s a &&& (0xFFFF ^^^ v.toNat / 2 ^ 16)) ||| (v.toNat % 2 ^ 16 &&& v.toNat / 2 ^ 16)) % 2 ^ 32) ∧
  (∀ (s : State) (p a : Nat) (i : RegInfo) (v hw : Word), Reaches s p a → regInfo a = some i → plainWrite a = true →
    i.guarded = false → i.bound = .command → i.rw ≠ 0 → s.heldRegs = [] →
    ∃ t u, exec (.registerWrite p a v hw) s = .next t ∧ (∀ b, regVal t b = regVal s b) ∧ t.heldRegs = [(a, v)] ∧
      exec .commandBoundary t = .next u ∧ u.heldRegs = [] ∧
      regVal u a = (((regVal s a &&& (0xFFFFFFFF ^^^ i.rw)) ||| (v.toNat &&& i.rw)) % 2 ^ 32) ∧
      (∀ b, b ≠ a → regVal u b = regVal s b))

/-- A guarded register accepts a write only from an armed path, and the write ends the arm; from any other path it fails with
ACCESS_DENIED 0x0331 and changes nothing but the record of the failure. The key written to MUZZLE arms the path, any other
value disarms it, and the arm ends with its expiry. -/
def Obligations.GuardNeedsAnArm : Prop :=
  (∀ (s : State) (p : Nat) (v : Word), pathOpen s p = true →
    ∃ t, exec (.muzzle p v) s = .next t ∧ (path t p).armed = (v == 0x2B0ED06F#32) ∧
      (∀ q, q ≠ p → path t q = path s q) ∧ t.regs = s.regs ∧ t.heldRegs = s.heldRegs) ∧
  (∀ (s : State) (p : Nat), ∃ t, exec (.muzzleArmExpiry p) s = .next t ∧ (path t p).armed = false ∧
    (∀ q, q ≠ p → path t q = path s q)) ∧
  (∀ (s : State) (p a : Nat) (i : RegInfo) (v hw : Word), Reaches s p a → regInfo a = some i → plainWrite a = true →
    i.guarded = true → (path s p).armed = false →
    exec (.registerWrite p a v hw) s = .next (accessFailed s p a false (.accessDenied, 0x0331))) ∧
  (∀ (s : State) (p a : Nat) (i : RegInfo) (v hw : Word), Reaches s p a → regInfo a = some i → plainWrite a = true →
    i.guarded = true → i.bound = .command → i.rw ≠ 0 → (path s p).armed = true →
    ∃ t, exec (.registerWrite p a v hw) s = .next t ∧ (path t p).armed = false ∧ lookup t.heldRegs a = some v ∧ t.regs = s.regs)

/-- A read of a low word returns the low half of the value in effect and latches the high half into the path's shadow, which a
later read of the high word returns whatever the counter does meanwhile. A read of SEC_CHALLENGE0 latches the eleven other words
of the challenge, and where there is none yet draws it from a READY block that owes nobody bytes, in one generate call. A read
or a write of IND_DATA that succeeds moves IND_ADDR on by 4, modulo 2^24, under INC, and leaves it otherwise, where a guarded
word asks for an arm, which the write ends; one that fails leaves it and is recorded, as is the bad word of the recovery buffer
that it met. -/
def Obligations.AccessesHaveTheirSideEffects : Prop :=
  ((∀ (s : State) (p a h : Nat), Reaches s p a → pairHigh a = some h → isHighWord a = false →
     ∃ t, exec (.loWordRead p a) s = .next t ∧
       lookup (path t p).shadows h = some (BitVec.ofNat 32 (valueInEffect s (path s p).armed h)) ∧
       (∀ q, q ≠ p → path t q = path s q) ∧ t.regs = s.regs ∧ { t with paths := s.paths } = s) ∧
   (∀ (s : State) (p h : Nat), Reaches s p h → isHighWord h = true →
     readReg s p h = (.ok ((lookupD (path s p).shadows h 0).toNat, s), s)) ∧
   (∀ (s : State) (p : Nat) (c : List Byte), pathOpen s p = true → s.sec.challenge = some c →
     ∃ t, exec (.secChallenge0 p) s = .next t ∧
       (path t p).challenge = (List.range 11).map (fun k => BitVec.ofNat 32 (bigEndianWord c (k + 1))) ∧
       { t with paths := s.paths } = s) ∧
   (∀ (s : State) (p : Nat), pathOpen s p = true → s.sec.challenge = none → s.ent.st = .ready → s.ent.queue = [] →
     reseedDue s = false →
     let c := (drbgGenerate s.ent.drbg 48).1
     ∃ t, exec (.secChallenge0 p) s = .next t ∧ t.sec.challenge = some c ∧
       (s.ent.drbg.key.length = 32 → c.length = 48) ∧ t.ent.calls = s.ent.calls + 1 ∧ t.ent.drbg = (drbgGenerate s.ent.drbg 48).2 ∧
       (path t p).challenge = (List.range 11).map (fun k => BitVec.ofNat 32 (bigEndianWord c (k + 1))))) ∧
  ((∀ (s t : State) (p w : Nat), pathOpen s p = true → indRead s (path s p).indAddr = .ok (w, t) →
     exec (.indData p none) s = .next (modPath t p (fun q =>
       { q with indAddr := if q.indInc then (q.indAddr + 4) % 2 ^ 24 else q.indAddr }))) ∧
   (∀ (s t : State) (p w : Nat) (v : Word), pathOpen s p = true → indGuarded (path s p).indAddr = false →
     indWrite s (path s p).indAddr v.toNat = .ok (w, t) →
     exec (.indData p (some v)) s = .next (modPath t p (fun q =>
       { q with indAddr := if q.indInc then (q.indAddr + 4) % 2 ^ 24 else q.indAddr }))) ∧
   (∀ (s t : State) (p w : Nat) (v : Word), pathOpen s p = true → indGuarded (path s p).indAddr = true →
     ((path s p).armed = false →
       exec (.indData p (some v)) s = .next (accessFailed s p (path s p).indAddr true (.accessDenied, 0x0331))) ∧
     ((path s p).armed = true →
       indWrite (modPath s p (fun q => { q with armed := false })) (path s p).indAddr v.toNat = .ok (w, t) →
       exec (.indData p (some v)) s = .next (modPath t p (fun q =>
         { q with indAddr := if q.indInc then (q.indAddr + 4) % 2 ^ 24 else q.indAddr })))) ∧
   (∀ (s : State) (p : Nat) (e : Status × Nat), pathOpen s p = true → indRead s (path s p).indAddr = .error e →
     let a := (path s p).indAddr
     exec (.indData p none) s = .next (accessFailed (if 0x800000 ≤ a then sramFailed s (a - 0x800000) else s) p a true e)))

/-- GO written to SEC_RECOVER in recovery makes the boot ROM verify the image in the buffer: one that passes is installed in
slot A, preferred and booted; one that fails sets FAILED. Writing 1 to FETCH_STATUS.KEPT clears KEPT in the register, and in
the header of a dump that is valid. -/
def Obligations.RecoveryAndKept : Prop :=
  (∀ (s : State) (p : Nat) (v : Word), Reaches s p 0x5018 → v.toNat % 2 = 1 → s.power.phase = .recovery →
    ∃ t, exec (.secRecover p v) s = .next t ∧
      (slotBoots s.sec.otp (recoveryImage s) = true →
        t.sec.slotA = recoveryImage s ∧ t.sec.preferB = false ∧ t.sec.recovered = true ∧ t.sec.bootB = false ∧
        t.power.phase = .booted) ∧
      (slotBoots s.sec.otp (recoveryImage s) = false → regBit t 0x5018 2 = true ∧ t.sec = s.sec)) ∧
  (∀ (s : State) (p : Nat) (v : Word), Reaches s p 0x2024 → bitOf v.toNat 2 = 1 → s.faults.dump.kept = true →
    ∃ t, exec (.fetchStatusKept p v) s = .next t ∧ t.faults.dump = { s.faults.dump with kept := false } ∧
      (s.faults.dump.valid = true → t.hbm = (writeHbm s (fetchAddr 0x16) [0]).hbm) ∧
      (s.faults.dump.valid = false → t.hbm = s.hbm))

/-! ### Models and contexts -/

/-- An accepted MODEL_LOAD reads the image and keeps its reply for MODEL_LOAD_COMPLETE. An image that passes every check
becomes a model at the lowest free index, with the next generation of that index; one that fails changes no model. Contexts
and what has left stay as they were. MODEL_LOAD_COMPLETE sends the reply that a load kept. -/
def Obligations.ModelLoadInstallsACheckedImage : Prop :=
  (∀ (s : State) (r : Req) (p : List Byte), Ready s r 0x20 none none → p.length = 16 → RegionOk s (u64 p 0) (u64 p 8) 64 false →
     let u := unqueue s r 0x20
     let img := (readImage u (u64 p 0) (u64 p 8)).1
     ∃ t, exec (.modelLoad r p) s = .next t ∧ t.ctxs = s.ctxs ∧ t.out = s.out ∧
       (∀ e, buildModel u img (u64 p 8) = .error e → t.models = s.models ∧
         t.loads = s.loads ++ [⟨r, e.st, e.detail, loadReply 0 0 e.record e.section_ 0 [] 0⟩]) ∧
       (∀ m, buildModel u img (u64 p 8) = .ok m → ∃ i, lowestFree s.models 4096 0 = some i ∧
         lookup t.models i = some { m with gen := nextModelGen s i } ∧ (∀ j, j ≠ i → lookup t.models j = lookup s.models j) ∧
         ∃ l, t.loads = s.loads ++ [l] ∧ l.r = r ∧ l.status = .ok ∧ u32 l.payload 0 = (i + 2 ^ 12 * nextModelGen s i) % 2 ^ 32)) ∧
  (∀ (s : State) (l : Load), s.loads.find? (fun x => x.r == l.r) = some l →
     exec (.modelLoadComplete l.r) s =
       .next (reply { s with loads := s.loads.filter (fun x => !(x.r == l.r)) } l.r 0x20 l.status l.detail l.payload))

/-- MODEL_VERIFY without an image reads every word of the coded model: with no bad word it replies OK with the digest,
MODEL_ID and the words corrected; with one it replies DATA_ERROR and marks the model. MODEL_FREE of a model without contexts
releases it, its shares and schedules on the cores and its slots, and nothing of another model. A model with a live context is not freed: CONTEXT_BUSY
0x0360. -/
def Obligations.ModelVerifyAndFree : Prop :=
  ((∀ (s : State) (r : Req) (p : List Byte) (i : Nat) (m : Model), Ready s r 0x21 none (some (u32 p 0 % 2 ^ 12)) →
     p.length = 16 → allZero (slice p 4 4) = true → u64 p 8 = 0 → modelOfHandle s (u32 p 0) = some (i, m) →
     let v := scrubModel (unqueue s r 0x21) m
     let out := m.digest ++ m.modelId ++ leBytes 8 v.1 ++ zeros 8
     (v.2.1 = true → exec (.modelVerify r p) s = .next (reply v.2.2 r 0x21 .ok 0 out)) ∧
     (v.2.1 = false → ∃ t, exec (.modelVerify r p) s = .next (reply t r 0x21 .dataError 0x0307 out) ∧
       lookup t.models i = some { m with bad := true })) ∧
   (∀ (s : State) (r : Req) (p : List Byte) (i : Nat) (m : Model), Ready s r 0x22 none (some (u32 p 0 % 2 ^ 12)) →
     p.length = 8 → allZero (slice p 4 4) = true → modelOfHandle s (u32 p 0) = some (i, m) →
     s.ctxs.any (fun e => e.2.model == i) = false →
     ∃ t, exec (.modelFree r p) s = .next (reply t r 0x22 .ok) ∧ lookup t.models i = none ∧
       (∀ j, j ≠ i → lookup t.models j = lookup s.models j) ∧
       (∀ c, (coreState t c).shares = (coreState s c).shares.filter (fun h => h.model != i)) ∧
       (∀ c, (coreState t c).schedules = (coreState s c).schedules.filter (fun e => !(e.1 == .model i))) ∧
       t.slots = s.slots.filter (fun e => !(e.owner == .model i)) ∧ t.ctxs = s.ctxs ∧ t.hbm = s.hbm)) ∧
  (∀ (s : State) (r : Req) (p : List Byte) (i : Nat) (m : Model), Ready s r 0x22 none (some (u32 p 0 % 2 ^ 12)) →
     p.length = 8 → allZero (slice p 4 4) = true → modelOfHandle s (u32 p 0) = some (i, m) →
     s.ctxs.any (fun e => e.2.model == i) = true →
     exec (.modelFree r p) s = .next (reply (unqueue s r 0x22) r 0x22 .contextBusy 0x0360))

/-- CTX_CREATE whose operands pass every check makes an Idle context at its index, with the next generation, the values,
seeds, fields and energies of R264, and writes its class; every other context and every model stays. -/
def Obligations.CtxCreateMakesAnIdleContext : Prop :=
  ∀ (s : State) (r : Req) (p : List Byte) (mi i a : Nat) (m : Model), Ready s r 0x30 none (some (u32 p 0 % 2 ^ 12)) →
    CreateFits s p mi m i a →
    let data := p.drop 32
    let ev := createEvidence m data
    let feats := createFeatures m data
    let cap := if u16 p 12 = 0 then 64 else u16 p 12
    ∃ t c, exec (.ctxCreate r p) s = .next t ∧ lookup t.ctxs i = some c ∧ c.gen = nextCtxGen s i ∧ c.model = mi ∧
      c.st = .idle ∧ c.seat = none ∧ c.addr = a ∧ c.replicas = u8 p 9 ∧
      c.data = newCtxData m (u8 p 9) cap (w64 p 16) ev feats (createLatent m (u8 p 9) (u8 p 10) data)
        (codeFields m (neuralOuts m (mergeVals m.vars ev []) feats)) ∧
      (let k := classOf (usedBytes m (u8 p 9) cap)
       Written s t a (fit (classBytes k.1 k.2) (ctxBytes m (u8 p 9) cap 0 c.data))) ∧
      (∀ j, j ≠ i → lookup t.ctxs j = lookup s.ctxs j) ∧ t.models = s.models

/-- CTX_UPDATE of an Idle context whose words can be read applies its items whole, computes fields and energies anew and
increments EVIDENCE_VERSION; it touches no other context. -/
def Obligations.CtxUpdateAppliesItsItems : Prop :=
  ∀ (s : State) (r : Req) (p : List Byte) (c : Ctx), Ready s r 0x31 (some (ctxIndex (u32 p 0))) none →
    p.length = 16 + 8 * u16 p 6 → 1 ≤ u16 p 6 → u16 p 6 ≤ 1022 → u16 p 4 ≤ 1 → allZero (slice p 8 8) = true →
    (updateItems p).any (fun b => u8 b 3 != 0) = false → ctxOf s (u32 p 0) = some c → c.st = .idle →
    let m := ctxModel s c
    let d := updateData m c.data (updateItems p) (u16 p 4 == 1) (fun d => neuralOuts m (mergeVals m.vars d.evidence []) d.features)
    (updateItems p).any (itemBad m c) = false → (readSpans (unqueue s r 0x31) c.addr (updateSpans m c)).1 = true →
    ∃ t, exec (.ctxUpdate r p) s = .next t ∧ lookup t.ctxs (ctxIndex (u32 p 0)) = some { c with data := d } ∧
      d.evidenceVersion = (c.data.evidenceVersion + 1) % 2 ^ 64 ∧
      (∀ j, j ≠ ctxIndex (u32 p 0) → lookup t.ctxs j = lookup s.ctxs j) ∧ t.models = s.models ∧ t.saves = s.saves

/-- CTX_SAVE takes the image of an Idle or Paused context at once and lets that of a Running one wait for its boundary;
CTX_SAVE_COMPLETE writes the image and replies its length and digest. Neither changes a context. -/
def Obligations.CtxSaveWritesTheImage : Prop :=
  (∀ (s : State) (r : Req) (p : List Byte) (c : Ctx), Ready s r 0x32 (some (ctxIndex (u32 p 0))) none → p.length = 24 →
    allZero (slice p 4 4) = true → ctxOf s (u32 p 0) = some c → RegionOk s (u64 p 8) (u64 p 16) 64 false →
    badSaveRegion s c (u64 p 8) (u64 p 16) = false →
    ∃ t v, exec (.ctxSave r p) s = .next t ∧ t.ctxs = s.ctxs ∧ t.hbm = s.hbm ∧
      (c.st = .running → t.saves = s.saves ++ [v] ∧ v.image = none ∧ v.deferred = true) ∧
      (c.st ≠ .running → (readHbm (unqueue s r 0x32) c.addr c.used).1.isSome = true →
        t.saves = s.saves ++ [v] ∧ v.image = some (savedImage s c c.st) ∧ v.addr = u64 p 8 ∧ v.r = r)) ∧
  (∀ (s : State) (v : Save) (img : List Byte), s.saves.find? (fun x => x.r == v.r) = some v → v.image = some img →
    s.destroys.any (fun d => ctxIndex d.2 == v.ctx) = false →
    ∃ t, exec (.ctxSaveComplete v.r) s = .next t ∧ t.hbm = (writeHbm s v.addr img).hbm ∧ t.ctxs = s.ctxs ∧
      t.saves = s.saves.filter (fun x => !(x.r == v.r)) ∧
      t.out = (reply s v.r 0x32 .ok 0 (leBytes 8 img.length ++ slice img 0xA0 48)
        ((if v.deferred then flagDeferred else 0) + (if v.repaired then flagRepaired else 0))).out)

/-- CTX_RESTORE of an image that passes checks 1 to 6 makes a context with the image's content, Idle or Paused as it was
saved. -/
def Obligations.CtxRestoreMakesTheSavedContext : Prop :=
  ∀ (s v : State) (r : Req) (p img : List Byte) (mi i a : Nat) (m : Model),
    Ready s r 0x33 (if 2 ^ 18 ≤ u32 p 16 ∧ u32 p 16 ≠ 0xFFFFFFFF then some (ctxIndex (u32 p 16)) else none) none →
    p.length = 24 → allZero (slice p 21 3) = true → (u8 p 20 < 8 ∨ u8 p 20 = 0xFF) → RegionOk s (u64 p 0) (u64 p 8) 64 false →
    readSaved (unqueue s r 0x33) (u64 p 0) (u64 p 8) = (some img, v) → savedHeaderBad img (u64 p 8) = false →
    savedDigestBad img = false → savedModel s img = some (mi, m) → savedBodyBad m img = false →
    restoreTarget s (u32 p 16) = none → targetIndex s (u32 p 16) = some i →
    poolPlace s i (some i) (homeOf (u8 p 20) i) (classBytes (classOf (u32 img 0x0C)).1 (classOf (u32 img 0x0C)).2) = some a →
    ∃ t c, exec (.ctxRestore r p) s = .next t ∧ lookup t.ctxs i = some c ∧ c.gen = nextCtxGen s i ∧ c.model = mi ∧
      c.st = (if u8 img 8 = 2 then .paused else .idle) ∧ c.addr = a ∧ c.data = ctxFrom m (u8 img 7) (u16 img 0x0A) img ∧
      (∀ j, j ≠ i → lookup t.ctxs j = lookup s.ctxs j) ∧ t.models = s.models

/-- CTX_DESTROY frees an Idle context's entry at once, or keeps the command while a save of the context is being written;
CTX_QUERY replies the fields of the entry and changes nothing else. -/
def Obligations.CtxDestroyAndQuery : Prop :=
  (∀ (s : State) (r : Req) (p : List Byte) (c : Ctx), Ready s r 0x34 (some (ctxIndex (u32 p 0))) none → p.length = 8 →
    allZero (slice p 4 4) = true → ctxOf s (u32 p 0) = some c → c.st = .idle →
    let u := unqueue s r 0x34
    (s.saves.any (fun v => v.ctx == ctxIndex (u32 p 0)) = false →
      exec (.ctxDestroy r p) s = .next (reply { u with ctxs := del u.ctxs (ctxIndex (u32 p 0)) } r 0x34 .ok)) ∧
    (s.saves.any (fun v => v.ctx == ctxIndex (u32 p 0)) = true →
      ∃ t, exec (.ctxDestroy r p) s = .next t ∧ t.ctxs = s.ctxs ∧ t.destroys = s.destroys ++ [(r, u32 p 0)])) ∧
  (∀ (s : State) (r : Req) (p : List Byte) (c : Ctx), Ready s r 0x35 (some (ctxIndex (u32 p 0))) none → p.length = 8 →
    allZero (slice p 4 4) = true → ctxOf s (u32 p 0) = some c →
    exec (.ctxQuery r p) s = .next (reply (unqueue s r 0x35) r 0x35 .ok 0 (queryBytes s (u32 p 0) c)) ∧
    (queryBytes s (u32 p 0) c).length = 64)

/-- STATS_READ replies the selected data of a context inline, or writes it to the region given; SELECT 2 gives, for every
latent variable of the range, the smallest state with the largest marginal count. -/
def Obligations.StatsReadReturnsTheSelection : Prop :=
  (∀ (s : State) (r : Req) (p : List Byte) (c : Ctx), Ready s r 0x46 (some (ctxIndex (u32 p 0))) none → p.length = 24 →
    u16 p 6 = 0 → u8 p 4 ≤ 5 → (u8 p 4 ≠ 4 → u8 p 5 = 0) → (u8 p 4 = 4 → u8 p 5 < c.replicas) →
    (u8 p 4 = 0 ∨ u8 p 4 = 5 → u32 p 8 = 0 ∧ u32 p 12 = 0) → ctxOf s (u32 p 0) = some c →
    u32 p 8 + u32 p 12 ≤ (ctxModel s c).vars.length →
    let u := unqueue s r 0x46
    let m := ctxModel s c
    let out := statsData m c (ctxNow c) (u8 p 4) (u8 p 5) (u32 p 8) (u32 p 12)
    let got := if c.seat.isSome then (true, u) else readSpans u c.addr (statsSpans m c (u8 p 4) (u8 p 5) (u32 p 8) (u32 p 12))
    got.1 = true →
    (u64 p 16 = 0 → out.length ≤ 8192 → exec (.statsRead r p) s = .next (reply got.2 r 0x46 .ok 0 out)) ∧
    (u64 p 16 ≠ 0 → RegionOk s (u64 p 16) out.length 64 true →
      exec (.statsRead r p) s = .next (reply (writeHbm got.2 (u64 p 16) out) r 0x46 .ok 0 (leBytes 8 out.length)))) ∧
  (∀ (m : Model) (c : Ctx) (d : CtxData) (rep first count : Nat), statsData m c d 2 rep first count =
    (latentIn m first count).map (fun i => BitVec.ofNat 8 (mostProbable (countsOf m d i)))) ∧
  (∀ row : List Nat, row ≠ [] → mostProbable row < row.length ∧
    (∀ k, k < row.length → row.getD k 0 ≤ row.getD (mostProbable row) 0) ∧
    (∀ k, k < mostProbable row → row.getD k 0 < row.getD (mostProbable row) 0))

/-! ### Runs, sweeps and the scheduler -/

/-- RUN_SAMPLE, RUN_ANNEAL and RUN_TEMPER that pass every check, in SEEDED or CONTINUE mode, make their context Running with
the content of a run's start; the run takes the model's next number a and goes to the tail of the list of placement a mod P.
No reply leaves, and no other context changes. A run in ENTROPY mode waits for 8 bytes of the DRBG while the block is READY,
its context still Idle (the model's choice, log 45); it fails with ENTROPY_NOT_READY or ENTROPY_FAILED otherwise. -/
def Obligations.RunCommandsAdmitARun : Prop :=
  (∀ (s v : State) (op : Nat) (r : Req) (p tbl : List Byte) (c : Ctx) (m : Model), op = 0x40 ∨ op = 0x41 ∨ op = 0x42 →
     Ready s r op (some (ctxIndex (u32 p 0))) none → RunFits (unqueue s r op) op p c tbl v → pSeedMode (slice p 8 128) ≤ 1 →
     lookup s.models c.model = some m → ListsFit m →
     let i := ctxIndex (u32 p 0)
     let place := m.nextRun % m.placements.length
     ∃ t c' x, exec (runInstr op r p) s = .next t ∧ lookup t.ctxs i = some c' ∧ c'.st = .running ∧
       c'.data = startData m c.data (kindOf op) (slice p 8 128) tbl (p.drop 136) (runSeedOf (slice p 8 128) none) ∧
       c'.run = some x ∧ x.r = r ∧ x.number = m.nextRun ∧ x.placement = place ∧
       runList t c.model place = runList s c.model place ++ [i] ∧
       (lookup t.models c.model).map (·.nextRun) = some (m.nextRun + 1) ∧
       (∀ j, j ≠ i → lookup t.ctxs j = lookup s.ctxs j) ∧ t.out = s.out) ∧
  (∀ (s v : State) (op : Nat) (r : Req) (p tbl : List Byte) (c : Ctx), op = 0x40 ∨ op = 0x41 ∨ op = 0x42 →
     Ready s r op (some (ctxIndex (u32 p 0))) none → RunFits (unqueue s r op) op p c tbl v → pSeedMode (slice p 8 128) = 2 →
     ∃ t, exec (runInstr op r p) s = .next t ∧ t.ctxs = s.ctxs ∧
       (s.ent.st = .ready → t.ent.queue = s.ent.queue ++ [⟨.seed r op p tbl, 8, []⟩] ∧ t.out = s.out) ∧
       (s.ent.st = .failed → t = reply v r op .entropyFailed) ∧
       (s.ent.st ≠ .ready → s.ent.st ≠ .failed → t = reply v r op .entropyNotReady))

/-- RUN_RESUME admits a Paused context again under the model's next number, with its content but for energies computed in
full; of a context that is not Paused it fails with NOT_READY. RUN_PAUSE of a Running context waits for its boundary without a
reply; RUN_ABORT of one returns it, Idle and out of every list of its model, to its content at the last boundary. After the
run's last boundary, and of an Idle context, both complete with NOT_READY; RUN_PAUSE of a Paused context replies OK. -/
def Obligations.RunsPauseResumeAndAbort : Prop :=
  (∀ (s : State) (r : Req) (p : List Byte) (c : Ctx) (m : Model), Ready s r 0x44 (some (ctxIndex (u32 p 0))) none →
     p.length = 8 → allZero (slice p 4 4) = true → ctxOf s (u32 p 0) = some c → lookup s.models c.model = some m → ListsFit m →
     let i := ctxIndex (u32 p 0)
     let place := m.nextRun % m.placements.length
     (c.st = .paused → ∃ t c' x, exec (.runResume r p) s = .next t ∧ lookup t.ctxs i = some c' ∧ c'.st = .running ∧
       c'.data = { c.data with energy := fullEnergies m c.data } ∧ c'.run = some x ∧ x.number = m.nextRun ∧
       runList t c.model place = runList s c.model place ++ [i] ∧ (∀ j, j ≠ i → lookup t.ctxs j = lookup s.ctxs j)) ∧
     (c.st ≠ .paused → exec (.runResume r p) s = .next (reply (unqueue s r 0x44) r 0x44 .notReady 0x0361))) ∧
  (∀ (s : State) (r : Req) (p : List Byte) (c : Ctx), p.length = 8 → allZero (slice p 4 4) = true → ctxOf s (u32 p 0) = some c →
     let i := ctxIndex (u32 p 0)
     (Ready s r 0x43 (some i) none →
       (c.st = .running → runOver c = false → ∃ t, exec (.runPause r p) s = .next t ∧ t.out = s.out ∧
         lookup t.ctxs i = some { c with run := c.run.map (fun v => { v with pauses := v.pauses ++ [r] }) } ∧
         (∀ j, j ≠ i → lookup t.ctxs j = lookup s.ctxs j)) ∧
       (c.st = .paused → exec (.runPause r p) s = .next (reply (unqueue s r 0x43) r 0x43 .ok)) ∧
       (c.st = .idle ∨ (c.st = .running ∧ runOver c = true) →
         exec (.runPause r p) s = .next (reply (unqueue s r 0x43) r 0x43 .notReady 0x0361))) ∧
     (Ready s r 0x45 (some i) none →
       (c.st ≠ .idle → runOver c = false → ∃ t c', exec (.runAbort r p) s = .next t ∧ lookup t.ctxs i = some c' ∧
         c'.st = .idle ∧ c'.seat = none ∧ c'.run = none ∧ c'.data = ctxNow c ∧ (∀ q, i ∉ runList t c.model q) ∧
         (∀ j, j ≠ i → lookup t.ctxs j = lookup s.ctxs j)) ∧
       (c.st = .idle ∨ runOver c = true →
         exec (.runAbort r p) s = .next (reply (unqueue s r 0x45) r 0x45 .notReady 0x0361))))

/-- A batch of field vectors whose pass keys are drawn, of a colour that works on committed values, completes with the vectors
over the core's committed plane; a speculative one over the plane as it stood when speculation began. No plane of samples
changes, and readers outside see the last boundary. It begins when no fence holds it and, at the first issue of a sweep, no
word that the sweep's engines read yields DATA_ERROR. Once a sweep has issued, a batch of at most 256 slots is sampled slot after
slot: a slot with its vector complete and its pass
key drawn receives its sample once, in the speculative plane for speculative work and in the pending plane otherwise; the
committed plane stays. -/
def Obligations.VectorsAndSamples : Prop :=
  (∀ (s : State) (core i : Nat) (c : Ctx) (seat : Seat) (w : Sweep) (h : Share) (batch : List Slot), ShareAt s core i c seat w h →
     let m := ctxModel s c
     let k := colourOf m (batch.headD default).var
     batchOk m w h c.replicas k batch = true →
     (w.issued = true ∨ (readPlaces (sweepPlaces s c seat w) s).1 = none) →
     (h.vecs.any (fun v => colourOf m v.var == k) = true ∨ c.run.any (fun v => heldByFence s v.r core) = false) →
     (modeOf m w h c.replicas k (specEn s h) = .plain → ∃ t h', exec (.fieldVectorComplete core i batch) s = .next t ∧
       shareNow t core i = some h' ∧ h'.plane = h.plane ∧ h'.pend = h.pend ∧ h'.spec = h.spec ∧
       h'.vecs = h.vecs ++ batch.map (fun q => vectorOf m w.work (h.plane.getD q.rep []) q.var q.rep false) ∧
       contentOf t i = contentOf s i) ∧
     (modeOf m w h c.replicas k (specEn s h) = .speculative → ∃ t h', exec (.fieldVectorComplete core i batch) s = .next t ∧
       shareNow t core i = some h' ∧ h'.base = some (h.base.getD h.plane) ∧ h'.plane = h.plane ∧ h'.pend = h.pend ∧
       h'.spec = h.spec ∧
       h'.vecs = h.vecs ++ batch.map (fun q =>
         vectorOf m w.work ((h.base.getD h.plane).getD q.rep []) q.var q.rep true) ∧
       contentOf t i = contentOf s i)) ∧
  ((∀ (s : State) (core i : Nat) (c : Ctx) (seat : Seat) (w : Sweep) (h : Share) (batch : List Slot), ShareAt s core i c seat w h →
     batch.length ≤ 256 → w.issued = true → ∃ t h', exec (.sampleBatch core i batch) s = .next t ∧ shareNow t core i = some h' ∧
       h' = batch.foldl (sampleSlot (ctxModel s c) w) h ∧ h'.plane = h.plane ∧ h'.vecs = h.vecs ∧ contentOf t i = contentOf s i) ∧
   (∀ (m : Model) (w : Sweep) (h : Share) (q : Slot) (v : Vec) (k : PassKey), vecAt h q.var q.rep = some v →
     keyOf m w q.var q.rep = some k →
     (sampled h q.var q.rep = true → sampleSlot m w h q = h) ∧
     (sampled h q.var q.rep = false → v.spec = false → (sampleSlot m w h q).pend = h.pend ++ [drawSample w.work v k] ∧ (sampleSlot m w h q).spec = h.spec) ∧
     (sampled h q.var q.rep = false → v.spec = true → (sampleSlot m w h q).spec = h.spec ++ [drawSample w.work v k] ∧ (sampleSlot m w h q).pend = h.pend)))

/-- A pass key of a stream and replica is drawn for the lowest colour that has none; the instance advances by its pass, and no
other instance moves. -/
def Obligations.PassKeysAreDrawnInOrder : Prop :=
  ∀ (s : State) (i t r k : Nat) (c : Ctx) (seat : Seat) (w : Sweep), lookup s.ctxs i = some c → sweepOf s i c = some (seat, w) →
    let m := ctxModel s c
    (sweepStreams m (w.shares.map (·.block))).contains t = true → r < c.replicas → nextKey m w t r = some k →
    let g := genIndex w.work t r
    let out := (w.work.gens.getD g default).pass
    ∃ u w', exec (.passKeyDraw i t r) s = .next u ∧ sweepNow u i = some w' ∧
      w'.keys = w.keys ++ [⟨t, r, k, out.1.1, out.1.2⟩] ∧ w'.drawn = w.drawn ++ [(t, r, k)] ∧
      w'.work.gens = w.work.gens.set g out.2 ∧ w'.shares = w.shares ∧ contentOf u i = contentOf s i

/-- The flip walk carries every waiting change into the speculative vectors of its replica that share a factor with the
changed variable and marks them invalid; it changes no other vector, and nothing where there is no speculative work. Validation moves each valid sample to the pending plane,
draws each invalid one again from the committed plane, and counts the invalid ones in SPEC_DISCARD. -/
def Obligations.FlipWalkAndValidation : Prop :=
  (∀ (s : State) (core i : Nat) (c : Ctx) (seat : Seat) (w : Sweep) (h : Share), ShareAt s core i c seat w h →
    (h.base = none → exec (.flipWalk core i) s = .next s) ∧
    (h.base.isSome = true → allIssued (ctxModel s c) h ((specColour (ctxModel s c) h).getD 0) c.replicas = true →
      let h' := { h with vecs := h.unwalked.foldl (fun vs f => vs.map (fun v => correctVec (ctxModel s c) v f)) h.vecs, unwalked := [] }
      exec (.flipWalk core i) s = .next (putSweep s i seat (setShare w h')) ∧
      shareNow (putSweep s i seat (setShare w h')) core i = some h')) ∧
  (∀ (m : Model) (v : Vec) (f : Upd × Nat), v.spec = true → v.rep = f.1.rep → adjacent m v.var f.1.var = true →
    (correctVec m v f).invalid = true) ∧
  (∀ (m : Model) (v : Vec) (f : Upd × Nat), v.spec = false ∨ v.rep ≠ f.1.rep ∨ adjacent m v.var f.1.var = false →
    correctVec m v f = v) ∧
  (∀ (s : State) (core i k : Nat) (c : Ctx) (seat : Seat) (w : Sweep) (h : Share), ShareAt s core i c seat w h →
    let m := ctxModel s c
    specColour m h = some k → h.colour = k → remoteDoneBelow m w h k k = true → h.unwalked = [] →
    allIssued m h k c.replicas = true → specReady m w h = true →
    let discards := coreReg ((physOf s core).getD 0) 0x410
    ∃ t, exec (.validation core i) s = .next t ∧ ∃ h', shareNow t core i = some h' ∧ h'.spec = [] ∧ h'.base = none ∧
      h'.plane = h.plane ∧ h'.pend = h.pend ++ (h.vecs.filter (·.spec)).filterMap (validatedUpd m w h) ∧
      count64 t discards = (count64 s discards + h.vecs.countP (fun v => v.spec && v.invalid)) % 2 ^ 64 ∧
      contentOf t i = contentOf s i)

/-- A colour commits when every sample of it is in the pending plane and every remote commit that its fields depend on has
arrived: its samples become the committed values of the core and of the sweep's state, leave the pending plane, and go out to
the blocks that import the colour. A remote commit that arrives writes its samples into the core's plane. -/
def Obligations.ColourCommitsPublish : Prop :=
  (∀ (s : State) (core i : Nat) (c : Ctx) (seat : Seat) (w : Sweep) (h : Share), ShareAt s core i c seat w h →
    let m := ctxModel s c
    let us := h.pend.filter (fun u => colourOf m u.var == h.colour)
    h.colour < m.colours → us.length = (slotsOf m h.block h.colour c.replicas).length →
    remoteDoneBelow m w h h.colour h.colour = true →
    ∃ t w' h', exec (.colourCommit core i) s = .next t ∧ sweepNow t i = some w' ∧ shareNow t core i = some h' ∧
      h'.plane = writePlane h.plane us ∧ h'.colour = nextColour m h.block (h.colour + 1) ∧
      h'.pend = h.pend.filter (fun u => colourOf m u.var != h.colour) ∧ w'.work.latent = writeLatent m w.work.latent us ∧
      w'.remote = w.remote ++ (importers m w h.block h.colour).map (fun o => ⟨h.block, o, h.colour, us⟩) ∧
      contentOf t i = contentOf s i) ∧
  (∀ (s : State) (core from_ i : Nat) (c : Ctx) (seat : Seat) (w : Sweep) (h o : Share) (r : Remote), ShareAt s core i c seat w h →
    w.shares.find? (fun x => x.core == from_) = some o →
    w.remote.find? (fun x => x.fromBlock == o.block && x.toBlock == h.block) = some r →
    arrivalWaits (ctxModel s c) h r = false →
    ∃ t w' h', exec (.remoteCommitArrival core from_ i) s = .next t ∧ sweepNow t i = some w' ∧ shareNow t core i = some h' ∧
      h'.plane = writePlane h.plane r.upds ∧ h'.arrived = h.arrived ++ [(r.fromBlock, r.colour)] ∧ h'.pend = h.pend ∧
      w'.remote = eraseFirst (fun x => x == r) w.remote ∧ contentOf t i = contentOf s i)

/-- At the boundary of a sweep or round, readers see the content that the six steps give. -/
def Obligations.SweepBoundaryPublishes : Prop :=
  ∀ (s : State) (i : Nat) (c : Ctx) (seat : Seat) (w : Sweep), lookup s.ctxs i = some c → sweepOf s i c = some (seat, w) →
    sweepOver (ctxModel s c) c w = true →
    (nextTurn (ctxModel s c) w = none → ∃ t, exec (.sweepBoundary i) s = .next t ∧
      contentOf t i = some (boundaryData (ctxModel s c) w).1 ∧ (∀ j, j ≠ i → lookup t.ctxs j = lookup s.ctxs j)) ∧
    (∀ q n, nextTurn (ctxModel s c) w = some (q, n) → ∃ t w', exec (.sweepBoundary i) s = .next t ∧ sweepNow t i = some w' ∧
      w'.subset = q ∧ w'.turn = n ∧ w'.work = w.work ∧ contentOf t i = contentOf s i)

/-- At each boundary the best record is replaced by the replica with the lowest energy, the lowest-numbered among equals, only
when that energy is strictly lower than BEST_ENERGY. -/
def Obligations.BestRecordIsStrictlyBetter : Prop :=
  ∀ (m : Model) (w : Sweep), (finalEnergies m w).energy ≠ [] →
    let e := (finalEnergies m w).energy
    let b := (boundaryData m w).1
    ∃ r, r < e.length ∧ (∀ k, k < e.length → e.getD r 0 ≤ e.getD k 0) ∧ (∀ k, k < r → e.getD r 0 < e.getD k 0) ∧
      (e.getD r 0 < w.work.bestEnergy → b.bestEnergy = e.getD r 0 ∧ b.bestReplica = r ∧ b.bestSweep = w.work.sweep + 1 ∧
        b.bestState = w.work.latent.getD r []) ∧
      (w.work.bestEnergy ≤ e.getD r 0 → b.bestEnergy = w.work.bestEnergy ∧ b.bestReplica = w.work.bestReplica ∧
        b.bestSweep = w.work.bestSweep ∧ b.bestState = w.work.bestState)

/-- SEATING seats the first waiting context of a list for the sweeps left, at most RESIDENCY_MAX, when the words of its class can
be read; the hardware generators then seed a run that is not seeded. CONTEXT_WRITE_BACK at the last boundary of a residency puts the
context, unseated, at the tail of its list; at the last of a run it makes the context Idle and sends the run's reply, where the
words of the seat can be read. With
DLB_EN, a placement without a waiting context takes the last waiting context of the longest list; an eviction that makes room
loads the absent shares. -/
def Obligations.ResidenciesBeginAndEnd : Prop :=
  ((∀ (s : State) (mi place i : Nat) (l : List Nat) (c : Ctx), waitingIn s mi place = i :: l → lookup s.ctxs i = some c →
     engineOn s = true → fenceDue s (.model mi) (runLogical s c place) = false → (listAt s mi place).length - (waitingIn s mi place).length < 3 →
     absentShares s mi (runBlocks s c place) = [] → s.heldRegs = [] → (ctxModel s c).bad = false →
     (readHbm s c.addr (moveLen c)).1.isSome = true →
     ∃ t c' seat, exec (.seating mi place) s = .next t ∧ lookup t.ctxs i = some c' ∧ c'.seat = some seat ∧
       seat.placement = place ∧ seat.left = min (pSweeps c.data.params - c.data.sweep) (residencyMax s) ∧ seat.data = c.data ∧
       seat.sweep = none ∧ (∀ j, j ≠ i → lookup t.ctxs j = lookup s.ctxs j) ∧ t.models = s.models) ∧
   (∀ (s : State) (i : Nat) (c : Ctx) (v : Run), engineOn s = true → lookup s.ctxs i = some c → c.run = some v →
     ∃ t, exec (.generatorSeedingDone i) s = .next t ∧ lookup t.ctxs i = some { c with run := some { v with seeded := true } } ∧
       (∀ j, j ≠ i → lookup t.ctxs j = lookup s.ctxs j) ∧ { t with ctxs := s.ctxs } = s)) ∧
  (∀ (s : State) (i : Nat) (c : Ctx) (seat : Seat) (v : Run), lookup s.ctxs i = some c → c.seat = some seat → c.run = some v →
     engineOn s = true → seat.sweep = none → (readPlaces (seat.places.map (·.2)) s).1 = none →
     (v.stop = none → seat.left = 0 → ∃ t c', exec (.contextWriteBack i) s = .next t ∧ lookup t.ctxs i = some c' ∧ c'.seat = none ∧
       c'.data = seat.data ∧ c'.st = c.st ∧ t.out = s.out ∧
       (∀ m, lookup s.models c.model = some m → seat.placement < m.lists.length →
         runList t c.model seat.placement = (runList s c.model seat.placement).filter (· != i) ++ [i])) ∧
     (∀ reason, v.stop = some reason → ∃ t u c', exec (.contextWriteBack i) s = .next t ∧
       u = takeSaves (unseat (readPlaces (seat.places.map (·.2)) s).2 i c .idle) i .idle v.repaired ∧
       t = runReply u (runNow c v) reason seat.data ∧ lookup t.ctxs i = some c' ∧ c'.st = .idle ∧
       c'.seat = none ∧ c'.run = none ∧ c'.data = seat.data ∧ (∀ q, i ∉ runList t c.model q))) ∧
  ((∀ (s : State) (mi place q i : Nat) (m : Model), engineOn s = true → regBit s 0x100 0 = true → lookup s.models mi = some m →
     place < m.lists.length → waitingIn s mi place = [] → donor s mi place = some q → (waitingIn s mi q).getLast? = some i →
     ∃ t, exec (.dynamicLoadBalance mi place) s = .next t ∧ (∀ p, p ≠ place → i ∉ runList t mi p) ∧
       (runList t mi place).getLast? = some i ∧ regVal t 0x118 = min (regVal s 0x118 + 1) 0xFFFFFFFF) ∧
   (∀ (s v : State) (mi place i : Nat) (l : List Nat) (c : Ctx), waitingIn s mi place = i :: l → lookup s.ctxs i = some c →
     engineOn s = true → absentShares s mi (runBlocks s c place) ≠ [] →
     roomFor s (modelAt s mi) (absentShares s mi (runBlocks s c place)) = some v →
     ∃ t, exec (.shareEviction mi place) s = .next t ∧ t.ctxs = s.ctxs ∧
       (∀ e ∈ absentShares s mi (runBlocks s c place), hasShare t mi e.1 e.2 = true)))

/-! ### Tensor programs, drains, MOVE and FILL -/

/-- An accepted TENSOR_OP whose program passes its check stands as a program in progress at its first tile, under the ACC_MODE
of its acceptance; nothing is written and no reply leaves. A program that fails its check ends with BAD_PARAM 0x0340 and runs
nothing. -/
def Obligations.TensorOpStartsItsProgram : Prop :=
  (∀ (s v : State) (r : Req) (pl b : List Byte), Ready s r 0x50 none none →
     ProgFits (unqueue s r 0x50) (modesOf s r 0x50) pl b v →
     ∃ t p, exec (.tensorOp r pl) s = .next t ∧ t.progs = s.progs ++ [p] ∧ p.r = r ∧ p.tensors = progTensors b ∧
       p.steps = progSteps b ∧ p.gn5 = (modesOf s r 0x50).gn5 ∧ p.tree = (modesOf s r 0x50).tree ∧ p.cur = 0 ∧ p.tile = 0 ∧
       p.drained = none ∧ t.hbm = s.hbm ∧ t.out = s.out) ∧
  (∀ (s v : State) (r : Req) (pl b : List Byte), Ready s r 0x50 none none → pl.length = 16 → allZero (slice pl 12 4) = true →
     RegionOk s (u64 pl 0) (u32 pl 8) 64 false → 32 ≤ u32 pl 8 → u32 pl 8 ≤ 8224 →
     readHbm (unqueue s r 0x50) (u64 pl 0) (u32 pl 8) = (some b, v) →
     progBad v (modesOf s r 0x50).tree (modesOf s r 0x50).gn5 b = true →
     exec (.tensorOp r pl) s = .next (reply v r 0x50 .badParam 0x0340 (progPayload [] none 0)) ∧ v.progs = s.progs)

/-- A tile that may begin, of a MATMUL step whose operands can be read, drains as the accumulation gives it; one of a CONVERT step drains its
operand's values. The elements are not written yet. The output stage writes the columns of the drained tile, and the program
goes on: the next tile of the step, the next step, or after the last tile of the last step, its end. -/
def Obligations.TilesDrainAndAreWritten : Prop :=
  ((∀ (s v : State) (r : Req) (p : Prog) (a b : Tensor) (as bs : List (List Group)) (pre : List (List Word)),
     findProg s r = some p → p.drained = none → tileBegins s p = true → (curStep p).op = 0 →
     tensorAt p.tensors (curStep p).a = some a → tensorAt p.tensors (curStep p).b = some b → OperandsRead s p a b as bs pre v →
     ∃ t p', exec (.tileDrain r) s = .next t ∧ findProg t r = some p' ∧
       p'.drained = some (matmulTile p (curStep p) a.fmt b.fmt as bs pre) ∧ p'.tile = p.tile ∧ t.hbm = s.hbm) ∧
   (∀ (s v : State) (r : Req) (p : Prog) (a : Tensor) (bs : List (List Byte)), findProg s r = some p → p.drained = none →
     tileBegins s p = true → (curStep p).op ≠ 0 → tensorAt p.tensors (curStep p).a = some a →
     let m := (tileM p).headD 0
     let off := if a.fmt = 7 then 4 * m else m / 32 * groupBytes a.fmt
     let len := if a.fmt = 7 then 4 * (tileM p).length else narrowBytes a.fmt (tileM p).length
     readVecs s a off len (tileN p) = (some bs, v) →
     let q := convertTile p.gn5 a (List.zipWith (fun n b => (vecAddr a n + off, b)) (tileN p) bs)
     q.2 = false →
     ∃ t p', exec (.tileDrain r) s = .next t ∧ findProg t r = some p' ∧ p'.drained = some q.1 ∧ p'.tile = p.tile ∧ t.hbm = s.hbm)) ∧
  (∀ (s : State) (r : Req) (p : Prog) (q : Tile) (c : Tensor) (late : List (List Word)) (v : State), findProg s r = some p → p.r = r →
     p.drained = some q → tileRuns s p = true → readLate s p (stepNow p) = (some late, v) → tensorAt p.tensors (curStep p).c = some c →
     sentinelDue s p (curStep p) = false →
     ∃ t, exec (.tileOutputWritten r) s = .next t ∧ t.hbm = (writeColumns p (stepNow p) c q v (tileColumns p q late)).1.hbm ∧
       (p.tile + 1 < curTiles p → ∃ p', findProg t r = some p' ∧ p'.cur = p.cur ∧ p'.tile = p.tile + 1 ∧ p'.drained = none) ∧
       (curTiles p ≤ p.tile + 1 → p.notWritten = 0 → p.cur + 1 < p.steps.length →
         ∃ p', findProg t r = some p' ∧ p'.cur = p.cur + 1 ∧ p'.tile = 0 ∧ p'.drained = none) ∧
       (curTiles p ≤ p.tile + 1 → p.steps.length ≤ p.cur + 1 → findProg t r = none))

/-- With FP32_TREE at 0, outside GN5 mode, every element of an FP32 tile is accumulated in sequential order: acc_0 is the
preload or +0, and each leaf sum is added in turn, in ascending K, whatever the tile's width. -/
def Obligations.SequentialOrder : Prop :=
  ∀ (p : Prog) (t : TStep) (fa fb m n : Nat) (as bs : List (List Group)) (pre : List (List Word)), t.acc = 1 → p.tree = false →
    p.gn5 = false → m < as.length → n < bs.length →
    ∃ col, (matmulTile p t fa fb as bs pre).elems[n]? = some col ∧
      col[m]? = some (.fp ((leafSums (sliceBlocks fa fb) (products fa fb (as.getD m []) (bs.getD n []))).foldl (fpPlus false)
        (((pre.getD n [])[m]?).getD 0, false)).1)

/-- A fence takes its place among the drains without a reply, and replies OK once no work that it includes is left; a COMBINE
takes its place too. A COMBINE whose parts can be read writes its combined columns and ends. -/
def Obligations.DrainsFenceAndCombine : Prop :=
  ((∀ (s : State) (r : Req) (b : List Byte), (FenceFits s b ∨ CombineFits s (modesOf s r 0x51) b) →
     Ready s r 0x51 (if u8 b 0 = 0 ∧ u32 b 12 ≠ 0 then some (ctxIndex (u32 b 12)) else none) none →
     ∃ t d, exec (.accDrain r b) s = .next t ∧ t.drains = s.drains ++ [d] ∧ d.r = r ∧ d.combine = (u8 b 0 == 1) ∧ d.payload = b ∧
       d.cores = maskCores s (u16 b 4) ∧ t.out = s.out ∧ t.hbm = s.hbm) ∧
   (∀ (s : State) (r : Req) (d : Drain), s.drains.find? (fun x => x.r == r) = some d → engineOn s = true → fenceWaits s d = false →
     d.combine = false →
     exec (.accDrainComplete r) s = .next (reply { s with drains := s.drains.filter (fun e => !(e.r == r)) } r 0x51 .ok)) ∧
   (∀ (s : State) (r : Req) (d : Drain), s.drains.find? (fun x => x.r == r) = some d → fenceWaits s d = true →
     exec (.accDrainComplete r) s = .next s)) ∧
  (∀ (s : State) (r : Req) (d : Drain) (cols : List (List PartColumn)) (pre : List (List Word)),
     s.drains.find? (fun x => x.r == r) = some d → d.r = r → engineOn s = true → fenceWaits s d = false → d.combine = true →
     let t := { combineStep d.payload with outScale := cleanWord d.gn5 0 (combineStep d.payload).outScale }
     let like := ((combineParts d.payload).headD default).x
     let u := { s with drains := s.drains.filter (fun e => !(e.r == r)) }
     let rc := readColumns u d.gn5 (combineParts d.payload) (List.range like.vectors)
     let rp := combinePreload rc.2 d.gn5 d.payload like.vectors
     rc.1 = some cols → rp.1 = some pre →
     let q := combineTile d t like.kLen cols pre
     ∃ x, exec (.accDrainComplete r) s = .next x ∧ x.drains = u.drains ∧
       x.hbm = (combineWrites d t rp.2 ((List.range q.1.length).zipWith
         (fun n c => (n, c.1, c.2, if biasLate t.outStage then pre.getD n [] else [])) q.1)).1.hbm)

/-- A local MOVE is checked and waits; its completion reads the source up to the first bad word, writes what was read to the
destination byte by byte, and replies the bytes moved: the destination holds them, and every byte outside it is as before. A
MOVE over Leash stands in progress with one piece that waits for its answer for each 4,096 bytes. -/
def Obligations.MovesCopyBytes : Prop :=
  ((∀ (s : State) (r : Req) (p : List Byte), Ready s r 0x60 none none → LocalMoveFits s p →
     ∃ t m, exec (.move r p) s = .next t ∧ t.moves = s.moves ++ [m] ∧ m.r = r ∧ m.kind = u8 p 0 ∧ m.src = u64 p 8 ∧
       m.dst = u64 p 16 ∧ m.len = u64 p 24 ∧ (u8 p 0 = 1 → m.data = p.drop 32) ∧ t.hbm = s.hbm ∧ t.out = s.out) ∧
   (∀ (s : State) (r : Req) (m : Move), findMove s r = some m → m.kind < 3 →
     let got := if m.kind = 1 then (m.data, true, s) else readPart s m.src m.len
     ∃ u, exec (.moveComplete r) s = .next (reply u r 0x60 (if got.2.1 then .ok else .dataError) (if got.2.1 then 0 else 0x0307)
         (leBytes 8 got.1.length ++ (if m.kind = 2 then got.1 else []))) ∧
       u.moves = s.moves.filter (fun x => !(x.r == r)) ∧ u.out = s.out ∧
       (m.kind = 2 → u.hbm = s.hbm ∧ u.marks = s.marks) ∧ (m.kind ≠ 2 → Written s u m.dst got.1))) ∧
  (∀ (s : State) (r : Req) (p : List Byte), Ready s r 0x60 none none → RemoteMoveFits s p → 0 < u64 p 24 →
     (u8 p 0 ≠ 5 → (readPart (unqueue s r 0x60) (u64 p 8) (u64 p 24)).2.1 = true) →
     ∃ t m, exec (.move r p) s = .next t ∧ t.moves = s.moves ++ [m] ∧ m.r = r ∧ m.done = 0 ∧
       m.tags.length = (u64 p 24 + 4095) / 4096 ∧ m.tags.map (·.2) = piecesOf (u64 p 24) ∧ t.hbm = s.hbm)

/-- A FILL is checked and waits; its completion writes its pattern or its seeded elements over the region, in whole code words
that are readable afterwards, and replies the bytes filled. -/
def Obligations.FillWritesItsRegion : Prop :=
  (∀ (s : State) (r : Req) (p : List Byte), Ready s r 0x61 none none → p.length = 40 → allZero (slice p 1 7) = true → u8 p 0 ≤ 4 →
    (u8 p 0 = 0 → u64 p 24 = 0) → (u8 p 0 ≠ 0 → u64 p 32 = 0) → u64 p 16 % 8 = 0 → RegionOk s (u64 p 8) (u64 p 16) 8 true →
    ∃ t, exec (.fill r p) s = .next t ∧ t.hbm = s.hbm ∧ t.out = s.out ∧
      t.fills = s.fills ++ [{ r := r, kind := u8 p 0, dst := u64 p 8, len := u64 p 16, seed := w64 p 24, pattern := w64 p 32 }]) ∧
  (∀ (s : State) (f : Fill), s.fills.find? (fun x => x.r == f.r) = some f → f.dst % 8 = 0 → f.len % 8 = 0 →
    ∃ u, exec (.fillComplete f.r) s = .next (reply u f.r 0x61 .ok 0 (leBytes 8 f.len)) ∧
      u.fills = s.fills.filter (fun g => !(g.r == f.r)) ∧ (fillBytes f).length = f.len ∧ Written s u f.dst (fillBytes f) ∧
      u.out = s.out ∧ u.ctxs = s.ctxs ∧ u.models = s.models)

/-! ### Entropy -/

/-- ENTROPY_GET while the block is READY and its queue has room waits at the end of the DRBG's queue; HOST_WAIT_EXPIRY takes
it out and completes it with BUSY, sets HOST_BUSY and gives a hint of at least 10 us. A block that is not READY refuses it. A
generate call serves the earliest request of the lowest consumer order, at most 256 bytes a call: an ENTROPY_GET that still
needs more keeps what it has; one that has all its bytes replies them. No call is made while a reseed is due. -/
def Obligations.EntropyGetWaitsItsTurn : Prop :=
  ((∀ (s : State) (r : Req) (p : List Byte), Ready s r 0x70 none none → p.length = 4 → u16 p 2 = 0 → 1 ≤ u16 p 0 → u16 p 0 ≤ 1024 →
     regBit s 0x400C 0 = true →
     (s.ent.st = .ready → hostWaiting s < 64 → regField s 0x400C 8 8 ≠ 0 → ∃ t, exec (.entropyGet r p) s = .next t ∧
       t.ent = { s.ent with queue := s.ent.queue ++ [⟨.host r, u16 p 0, []⟩] } ∧ t.out = s.out) ∧
     (s.ent.st = .failed → exec (.entropyGet r p) s = .next (reply (unqueue s r 0x70) r 0x70 .entropyFailed)) ∧
     (s.ent.st = .startup ∨ s.ent.st = .halted →
       exec (.entropyGet r p) s = .next (reply (unqueue s r 0x70) r 0x70 .entropyNotReady))) ∧
   (∀ (s : State) (r : Req), s.ent.queue.any (fun q => q.what == .host r) = true → ∃ t u n, exec (.hostWaitExpiry r) s = .next t ∧
     t = replyBusy u r 0x70 0 n ∧ 10 ≤ n ∧ u.out = s.out ∧ t.ent.queue = eraseFirst (fun q => q.what == .host r) s.ent.queue ∧ regBit t 0x4008 4 = true)) ∧
  ((∀ (s : State) (e : EntReq), entropyOn s = true → s.ent.st = .ready → reseedDue s = false → nextDraw s.ent.queue = some e →
     callBytes e < e.need - e.got.length →
     ∃ t, exec .drbgGenerate s = .next t ∧ t.ent.calls = s.ent.calls + 1 ∧ t.ent.drbg = (drbgGenerate s.ent.drbg 256).2 ∧
       t.out = s.out ∧ t.ent.queue = s.ent.queue.map (fun x =>
         if x == e then { x with got := e.got ++ (drbgGenerate s.ent.drbg 256).1 } else x)) ∧
   (∀ (s : State) (e : EntReq) (r : Req), entropyOn s = true → s.ent.st = .ready → reseedDue s = false →
     nextDraw s.ent.queue = some e → e.what = .host r → e.need - e.got.length ≤ 256 → s.ent.drbg.key.length = 32 →
     let bs := (drbgGenerate s.ent.drbg (e.need - e.got.length)).1
     ∃ t u, exec .drbgGenerate s = .next t ∧ bs.length = e.need - e.got.length ∧ t = reply u r 0x70 .ok 0 (e.got ++ bs) ∧
       u.ent.queue = eraseFirst (fun x => x == e) s.ent.queue ∧ u.ent.calls = s.ent.calls + 1) ∧
   (∀ s : State, reseedDue s = true → exec .drbgGenerate s = .next s) ∧
   (∀ (q : List EntReq) (e f : EntReq), nextDraw q = some e → f ∈ q → e ∈ q ∧ drawOrder e.what ≤ drawOrder f.what))

/-- Samples of a source that fail a health test halt the DRBG and lose its state, blow a fuse of the source and
restart or fence it, and complete every waiting ENTROPY_GET and run seed; with fewer than two unfenced sources the block is
FAILED and nothing waits any more. A failed source restarts, passes both tests over 1,024 samples and is healthy; 1,024 samples
of the healthy sources that pass their tests condition into one output by SHA-384; two outputs, with every unfenced source
healthy, instantiate the DRBG, which is then READY and sets its event; one output reseeds it when a reseed is due. -/
def Obligations.SourcesFailAndRecover : Prop :=
  (∀ (s : State) (n test : Nat) (samples : List Bool), entropyOn s = true → s.ent.st ≠ .failed → n < s.ent.sources.length →
     n < s.sec.otp.entropyFails.length →
     (sourceAt s.ent n = .healthy ∨ (sourceAt s.ent n = .startup ∧ samples.length ≤ 1024)) →
     (runTests n (testsOf s.ent n) samples).2 = some test →
     let fails := min 3 (s.sec.otp.entropyFails.getD n 0 + 1)
     ∃ t, exec (.healthTestFail n test samples) s = .next t ∧ t.ent.instantiated = false ∧ t.ent.outputs = [] ∧
       t.ent.drbg = drbgZero ∧
       (t.ent.st = .halted ∨ t.ent.st = .failed) ∧ t.sec.otp.entropyFails.getD n 0 = fails ∧
       sourceAt t.ent n = (if fails = 3 then .fenced else .restarting) ∧ t.ent.queue.any endsOnHalt = false ∧
       (t.ent.sources.countP (· != .fenced) < 2 → t.ent.st = .failed ∧ t.ent.queue = []) ∧
       (2 ≤ t.ent.sources.countP (· != .fenced) → t.ent.st = .halted)) ∧
  ((∀ (s : State) (n : Nat), entropyOn s = true → sourceAt s.ent n = .restarting →
     ∃ t, exec (.sourceRestart n) s = .next t ∧ sourceAt t.ent n = .startup ∧ (∀ k, k ≠ n → sourceAt t.ent k = sourceAt s.ent k) ∧
       { t with ent := s.ent } = s) ∧
   (∀ (s : State) (n : Nat) (samples : List Bool), entropyOn s = true → sourceAt s.ent n = .startup → samples.length = 1024 →
     (runTests n {} samples).2 = none →
     ∃ t, exec (.sourceStartupPass n samples) s = .next t ∧ sourceAt t.ent n = .healthy ∧
       (∀ k, k ≠ n → sourceAt t.ent k = sourceAt s.ent k) ∧ { t with ent := s.ent } = s) ∧
   (∀ (s : State) (samples : List Bool) (ts : List SourceTests), entropyOn s = true → samples.length = 1024 →
     healthySources s.ent ≠ [] → blockTests s.ent samples = some ts →
     let x := sha384 (blockBytes samples)
     (s.ent.st = .ready →
       exec (.conditionedBlock samples) s = .next { s with ent := { s.ent with tests := ts, outputs := [x] } }) ∧
     (s.ent.st = .startup ∨ s.ent.st = .halted → allHealthy s.ent = true → s.ent.katFailed = false →
       exec (.conditionedBlock samples) s =
         .next { s with ent := { s.ent with tests := ts, outputs := (s.ent.outputs ++ [x]).take 2 } })) ∧
   (∀ (s : State) (x y : List Byte), entropyOn s = true → s.ent.st = .startup ∨ s.ent.st = .halted → s.ent.katFailed = false →
     s.ent.outputs = [x, y] → allHealthy s.ent = true → ∃ t, exec .drbgInstantiate s = .next t ∧
       t.ent = { s.ent with st := .ready, outputs := [], instantiated := true, calls := 0, seededAt := s.rtc,
                            drbg := drbgInstantiate x (y.take 16) s.sec.otp.serial } ∧
       regBit t 0x4008 0 = true) ∧
   (∀ (s : State) (x : List Byte) (xs : List (List Byte)), entropyOn s = true → s.ent.st = .ready → s.ent.outputs = x :: xs →
     reseedDue s = true →
     exec .drbgReseed s = .next { s with ent := { s.ent with
       outputs := [], drbg := drbgReseed s.ent.drbg x, calls := 0, seededAt := s.rtc } }))

/-! ### Power, clocks and reset -/

/-- POWER_SET to a sleep state begins the entry when no work is in progress and no sampled wake source is present; the entry
completes in that state with the reply, and Den loses HBM, models and contexts. The exit returns the module to Run, with what
sleep has kept where no checker fails its test. -/
def Obligations.SleepAndWake : Prop :=
  (∀ (s : State) (r : Req) (p : List Byte), ReadyEarly s r 0x80 false (dozeServes s 0x80 p) → p.length = 16 →
    allZero (slice p 1 7) = true → 1 ≤ u8 p 0 → u8 p 0 ≤ 3 → (u8 p 0 = 1 → u64 p 8 = 0) → s.power.st = .run →
    workInProgress s = false → wakeActive s = false →
    ∃ t, exec (.powerSet r p) s = .next t ∧ t.power.entering = some ⟨stateOfCode (u8 p 0), r, none⟩ ∧ t.power.retain = w64 p 8 ∧
      t.power.st = .run ∧ t.models = s.models ∧ t.ctxs = s.ctxs ∧ t.hbm = s.hbm) ∧
  (∀ (s : State) (e : Entry), s.power.entering = some e → ∃ t u, exec .sleepEntryComplete s = .next t ∧ t.power.st = e.target ∧
    u.out = s.out ∧ t.out = (reply u e.r 0x80 .ok).out ∧
    t.power.entering = none ∧ (∀ i, (lookup t.ctxs i).bind (·.seat) = none) ∧
    (e.target = .den → t.hbm = [] ∧ t.models = [] ∧ t.ctxs = []) ∧
    (e.target ≠ .den → (∀ x ∈ s.ctxs, x.2.seat = none) → t.hbm = s.hbm ∧ t.models = s.models)) ∧
  (∀ (s : State) (cores hbms : List Nat), s.power.exiting = true → ∃ t, exec (.sleepExitComplete cores hbms) s = .next t ∧
    t.power.st = .run ∧ t.power.exiting = false ∧
    (s.power.st = .doze ∨ (cores = [] ∧ hbms = []) → t.models = s.models ∧ t.ctxs = s.ctxs ∧ t.hbm = s.hbm) ∧
    (s.power.st = .doze → t.cores = s.cores))

/-- A sleeping module begins its exit, under the source's code and WAKE_EVENTS bit, when WAKE_N is asserted, the RTC reaches
an armed ALARM, a junction sensor reaches an armed THERM_WAKE, or a Leash receive lane is active. WAKE_N is taken as a level
while the module is out of reset, and deassertion only changes the level; the sensor's conversion is taken in every state.
WAKE_ARM sets the alarm and THERM_WAKE, and replies the count. -/
def Obligations.WakeSourcesBeginTheExit : Prop :=
  (∀ s : State, Asleep s → ∃ t, exec .wakeNAssert s = .next t ∧ ExitBegun s t 4) ∧
  (∀ s : State, Asleep s → alarmPresent s = true → ∃ t, exec .rtcAlarm s = .next t ∧ ExitBegun s t 5) ∧
  (∀ (s : State) (n : Nat) (temp : Int), Asleep s → n < 24 → thermalPresent (setSensor s n temp) = true →
    ∃ t, exec (.thermalWake n temp) s = .next t ∧ ExitBegun s t 6) ∧
  (∀ (s : State) (p l : Nat) (w : Bool), Asleep s → p < 4 → l < 8 → ∃ t, exec (.leashActivity p l w) s = .next t ∧ ExitBegun s t 3) ∧
  (∀ s : State, exec .wakeNDeassert s = .next { s with power := { s.power with wakeN := false } }) ∧
  (∀ s : State, s.power.phase ≠ .off → s.power.phase ≠ .reset → ∃ t, exec .wakeNAssert s = .next t ∧ t.power.wakeN = true) ∧
  (∀ (s : State) (n : Nat) (temp : Int), n < 24 → ∃ t, exec (.thermalWake n temp) s = .next t ∧ sensor t n = ⟨reading s n temp, true⟩) ∧
  (∀ (s : State) (r : Req) (p : List Byte), ReadyEarly s r 0x81 true true → p.length = 16 → allZero (slice p 9 7) = true →
    u8 p 8 ≤ 105 → (u64 p 0 = 0 ∨ s.rtc < u64 p 0) →
    let u := unqueue s r 0x81
    exec (.wakeArm r p) s =
      .next (reply { u with power := { u.power with alarm := w64 p 0, thermWake := u8 p 8 } } r 0x81 .ok 0 (leBytes 8 s.rtc)))

/-- The thermal step of a half rises by 1, up to 5, when its hottest sensor reaches THROTTLE_TEMP and for each further period
at or above it, and falls by 1 below it less HYST; ALERT_TEMP names its sensor and asserts ALERT_N until the sensor falls
below it less HYST; a relock runs the halves at the step being entered; a half without work is gated. THERMTRIP of a sensor at
115 degrees turns the module off until a cold start: HBM is lost and the signal stays asserted. -/
def Obligations.ThermalStepsAndClocks : Prop :=
  ((∀ (s : State) (n : Nat) (temp : Int), n < 24 → thermalOn s = true →
     let h := halfOfSensor n
     hottest s (12 * h) 12 < throttleTemp s → throttleTemp s ≤ reading s n temp →
     ∃ t, exec (.throttleTempReached n temp) s = .next t ∧ (half t h).thermal = min 5 ((half s h).thermal + 1) ∧
       sensor t n = ⟨reading s n temp, true⟩) ∧
   (∀ (s : State) (h : Nat), h < 2 → thermalOn s = true →
     (throttleTemp s ≤ hottest s (12 * h) 12 → ∃ t, exec (.throttleStepTimer h) s = .next t ∧
       (half t h).thermal = min 5 ((half s h).thermal + 1)) ∧
     (hottest s (12 * h) 12 < throttleTemp s - hystTemp s → ∃ t, exec (.throttleStepTimer h) s = .next t ∧
       (half t h).thermal = (half s h).thermal - 1)) ∧
   (∀ (s : State) (n : Nat) (temp : Int), n < 24 → thermalOn s = true →
     (alertTempOf s ≤ reading s n temp → ∃ t, exec (.alertTemp n temp) s = .next t ∧ n ∈ t.power.alertTemps ∧
       (s.power.rstN = false → alertN t = true) ∧ 5 ≤ thermalOf t (halfOfSensor n)) ∧
     (reading s n temp < alertTempOf s - hystTemp s → ∃ t, exec (.alertTempRelease n temp) s = .next t ∧
       t.power.alertTemps = s.power.alertTemps.filter (· != n))) ∧
   (∀ s : State, s.power.north.relock.isSome = true ∨ s.power.south.relock.isSome = true → ∃ t, exec .relockDone s = .next t ∧
     t.power.north = { s.power.north with step := namedStep s.power.north, relock := none } ∧
     t.power.south = { s.power.south with step := namedStep s.power.south, relock := none }) ∧
   (∀ (s : State) (h : Nat), h < 2 → s.power.st = .run → s.power.phase = .running → halfBusy s h = false →
     ∃ t, exec (.coreClkGate h) s = .next t ∧ half t h = { half s h with gated := true } ∧ half t (1 - h) = half s (1 - h))) ∧
  (∀ (s : State) (n : Nat) (temp : Int), s.power.phase ≠ .off → s.power.phase ≠ .tripped → n < 24 → 115 * 16 ≤ reading s n temp →
     ∃ t, exec (.thermtrip n temp) s = .next t ∧ t.power.thermtrip = true ∧ t.power.phase = .tripped ∧ t.hbm = [] ∧ t.marks = [] ∧
       t.faults = s.faults ∧ engineOn t = false)

/-- PWR_OK deasserted, or an input out of range, leaves only OTP, the firmware slots, the pins and what the model itself
keeps; PWR_OK asserted with RST_N deasserted is a cold start: every session, model, context and byte of HBM is gone, the RTC
counts from 0, and the map is that of OTP. -/
def Obligations.PowerLossAndColdStart : Prop :=
  (∀ (s : State) (c : Instr), c = .pwrOkDeassert ∨ (∃ mv, c = .inputUndervoltage mv ∧ s.power.pwrOk = true ∧ (mv < 44000 ∨ 59000 < mv)) →
    ∃ t, exec c s = .next t ∧ t.power.phase = .off ∧ t.hbm = [] ∧ t.trail = {} ∧ t.sessions = [] ∧ t.models = [] ∧ t.ctxs = [] ∧
      t.regs = [] ∧ t.sec.slotA = s.sec.slotA ∧ t.sec.slotB = s.sec.slotB ∧ t.power.rstN = s.power.rstN ∧
      (s.faults.otpPending = none → t.sec.otp = s.sec.otp)) ∧
  (∀ s : State, s.power.pwrOk = false → s.power.inputBad = false → s.power.rstN = false → ∃ t, exec .pwrOkAssert s = .next t ∧ t.power.phase = .starting ∧
    t.power.resetKind = 0 ∧ t.rtc = 0 ∧ t.hbm = [] ∧ t.sessions = [] ∧ t.models = [] ∧ t.ctxs = [] ∧ t.regs = [] ∧
    (s.faults.otpPending = none → t.sec.otp = s.sec.otp ∧ t.map = otpMap s.sec.otp) ∧ t.trail.waiting = [coldResetRec])

/-- RST_N asserted takes the control links down and makes a warm reset by pin due; a warm reset that is due keeps HBM, the RTC
and the Trail's ring, closes every session, empties the model and context tables and sets RESET_KIND; RST_N deasserted then
starts the module, or the cold start that PWR_OK has made due. A glitch closes the sessions at once, clears the keys and makes
a warm reset due. -/
def Obligations.WarmResetKeepsMemory : Prop :=
  (∀ s : State, s.power.phase ≠ .off → s.power.phase ≠ .tripped → s.power.phase ≠ .reset → ∃ t, exec .rstNAssert s = .next t ∧
    t.power.rstN = true ∧ t.power.resetDue = some 1 ∧ t.eth = [] ∧ t.hbm = s.hbm) ∧
  (∀ (s : State) (kind : Nat), s.power.resetDue = some kind → ∃ t, exec .warmReset s = .next t ∧ t.hbm = s.hbm ∧ t.marks = s.marks ∧
    t.rtc = s.rtc ∧ t.sessions = [] ∧ t.models = [] ∧ t.ctxs = [] ∧ t.taken = [] ∧ t.heldRegs = [] ∧ t.power.resetKind = kind ∧
    t.power.resetDue = none ∧ t.power.phase = (if s.power.rstN then .reset else .starting) ∧
    regVal t 0x5010 = regVal s 0x5010 ∧ t.trail.frozen = false ∧
    (s.trail.waiting = [] → s.trail.intervals = [] → t.trail.ring = s.trail.ring)) ∧
  (∀ s : State, s.power.phase = .reset → ∃ t, exec .rstNDeassert s = .next t ∧ t.power.phase = .starting ∧ t.power.rstN = false ∧
    (s.power.coldDue = true → t.rtc = 0 ∧ t.hbm = []) ∧ (s.power.coldDue = false → t.hbm = s.hbm ∧ t.rtc = s.rtc)) ∧
  (∀ (s : State) (kind unit : Nat), s.power.phase ≠ .off → s.power.phase ≠ .reset → ∃ t, exec (.glitchDetected kind unit) s = .next t ∧
    (∀ k, k < 8 → (session t k).isOpen = false) ∧ t.sec.hss = none ∧ t.sec.challenge = none ∧ t.ent.instantiated = false ∧ t.ent.drbg = drbgZero ∧
    t.power.resetDue = some (s.power.resetDue.getD 3) ∧ regVal t 0x5010 = min (regVal s 0x5010 + 1) 0xFFFFFFFF)

/-- The boot ROM runs the preferred slot when its image verifies, else the other slot, else waits in recovery; START_DONE
forms the map from OTP, fences in it the cores that failed their tests, and the Handler takes commands, or the fatal error of too
few cores stands. -/
def Obligations.BootAndStart : Prop :=
  (∀ s : State, s.power.phase = .starting → bootWaits s = false →
    let ok := fun b => slotBoots s.sec.otp (if b then s.sec.slotB else s.sec.slotA)
    ∃ t, exec .boot s = .next t ∧
      (ok s.sec.preferB = true → t.power.phase = .booted ∧ t.sec.bootB = s.sec.preferB) ∧
      (ok s.sec.preferB = false → ok (!s.sec.preferB) = true → t.power.phase = .booted ∧ t.sec.bootB = !s.sec.preferB) ∧
      (ok s.sec.preferB = false → ok (!s.sec.preferB) = false → t.power.phase = .recovery ∧ t.sec = s.sec)) ∧
  (∀ (s : State) (failed : List Nat), s.power.phase = .booted → s.faults.fatal = none →
    let u := each ((List.range 18).filter (fun p => failed.contains p)) { s with map := otpMap s.sec.otp } fenceAtStart
    (u.faults.fatal = none → ∃ t, exec (.startDone failed) s = .next t ∧ t.power.phase = .running ∧ t.map = u.map ∧
      t.faults = u.faults ∧ t.cores = u.cores ∧ (failed = [] → t.map = otpMap s.sec.otp ∧ t.faults = s.faults)) ∧
    (u.faults.fatal.isSome = true → exec (.startDone failed) s = .next u))

/-! ### Faults, Trail, dump and the Groomer -/

/-- TRAIL_FREEZE replies HEAD and OLDEST, discards what waits and counts it in TRAIL_MISSED; TRAIL_THAW of a frozen Trail
replies and clears the count and leaves one TRAIL_MISSED record that carries it, and of a Trail that is not frozen changes
nothing; TRAIL_READ of a frozen Trail replies the records named, 64 bytes each, those of the ring as they are. The event that
waits longest is written with the next SEQ, and dropped when SPILL_EN and a full ring of records that wait leave no room; a
spill copies the records that wait into the spill region and nothing outside it; an interval that ends leaves one record with
its count. -/
def Obligations.TrailKeepsItsRecords : Prop :=
  ((∀ (s : State) (r : Req), ReadyEarly s r 0x90 true true → s.trail.frozen = false →
     ∃ u, exec (.trailFreeze r []) s = .next (reply u r 0x90 .ok 0 (leBytes 8 s.trail.head ++ leBytes 8 s.trail.oldest)) ∧
       u.trail = { s.trail with
         frozen := true, waiting := [], missed := min (s.trail.missed + s.trail.waiting.length) 0xFFFFFFFF }) ∧
   (∀ (s : State) (r : Req), ReadyEarly s r 0x92 true true → s.trail.frozen = true → s.trail.waiting = [] →
     ∃ u x, exec (.trailThaw r []) s = .next (reply u r 0x92 .ok 0 (leBytes 4 s.trail.missed)) ∧
       u.trail = { s.trail with frozen := false, missed := 0, waiting := [x] } ∧ x.code = 0x0800 ∧ x.count = s.trail.missed) ∧
   (∀ (s : State) (r : Req), ReadyEarly s r 0x92 true true → s.trail.frozen = false →
     exec (.trailThaw r []) s = .next (reply (unqueue s r 0x92) r 0x92 .ok 0 (leBytes 4 0))) ∧
   (∀ (s : State) (r : Req) (p : List Byte), ReadyEarly s r 0x91 (trailOnDie s p) (trailOnDie s p) → p.length = 16 →
     allZero (slice p 10 6) = true → 1 ≤ u16 p 8 → u16 p 8 ≤ 127 → s.trail.frozen = true → s.trail.oldest ≠ 0 →
     s.trail.oldest ≤ u64 p 0 → u64 p 0 + u16 p 8 ≤ s.trail.head + 1 →
     let got := recordsFrom (u16 p 8) (u64 p 0) (unqueue s r 0x91)
     exec (.trailRead r p) s = .next (reply got.2 r 0x91 .ok 0 got.1) ∧ got.1.length = 64 * u16 p 8 ∧ got.2.trail.ring = s.trail.ring ∧
       (∀ x, s.trail.ringFirst ≤ u64 p 0 → s.trail.ring.find? (fun y => y.seq == u64 p 0) = some x → got.1.take 64 = x.bytes))) ∧
  ((∀ (s : State) (ws : List Rec) (x : Rec), s.trail.frozen = false → s.trail.waiting = ws ++ [x] →
     (s.trail.ring.length < 4096 → exec .trailRecordWrite s = .next { s with trail := { s.trail with
       waiting := ws, head := s.trail.head + 1, ring := { x with seq := s.trail.head + 1 } :: s.trail.ring } }) ∧
     (4096 ≤ s.trail.ring.length → 4096 ≤ s.trail.unspilled → regBit s 0x3000 0 = true →
       ∃ t, exec .trailRecordWrite s = .next t ∧ t.trail = { s.trail with waiting := ws } ∧
         regVal t 0x301C = min (regVal s 0x301C + 1) 0xFFFFFFFF)) ∧
   (∀ s : State, regBit s 0x3000 0 = true → s.trail.frozen = false → hbmState s = 2 →
     ∃ t, exec .trailSpill s = .next t ∧ t.trail = { s.trail with spilled := s.trail.head } ∧
       (∀ a, a < spillBase ∨ spillBase + spillSize ≤ a → peek t a = peek s a) ∧
       (let xs := s.trail.ring.filter (fun y => s.trail.spilled < y.seq)
        xs.Pairwise (fun x y => spillAddr x.seq ≠ spillAddr y.seq) →
        ∀ x ∈ xs, ∀ k, k < 64 → peek t (spillAddr x.seq + k) = x.bytes[k]?)) ∧
   (∀ (s : State) (key : IntervalKey) (i : Interval), s.trail.intervals.find? (fun j => j.key == key) = some i →
     ended s i.opened (intervalMs key) = true → s.trail.frozen = false → s.trail.waiting.length < 64 →
     exec (.trailIntervalEnd key) s = .next { s with trail := { s.trail with
       intervals := s.trail.intervals.filter (fun j => !(j.key == key)), waiting := { i.first with count := i.count } :: s.trail.waiting } }))

/-- A fatal error stops every core and all work, thaws the Trail, asserts ALERT_N, keeps its first cause and, unless
KEEP_FIRST keeps an earlier dump, begins a dump, whose end makes it VALID and KEPT; a later one counts in LATER_FATALS of a
dump that is kept. DUMP_READ replies the bytes of a dump that is VALID. -/
def Obligations.FatalErrorStopsAndDumps : Prop :=
  (∀ (s : State) (cause unit : Nat), s.power.phase ≠ .off → s.power.phase ≠ .reset → s.faults.fatal = none →
    ∃ t, exec (.fatalError cause unit) s = .next t ∧ t.faults.fatal = some (cause, unit) ∧ t.faults.due = [] ∧ t.taken = [] ∧
      t.moves = [] ∧ t.fills = [] ∧ t.progs = [] ∧ t.drains = [] ∧ t.loads = [] ∧ t.trail.frozen = false ∧ engineOn t = false ∧
      t.power.entering = none ∧ t.power.exiting = false ∧ (s.power.rstN = false → alertN t = true) ∧
      (regBit s 0x2020 0 = false ∨ s.faults.dump.kept = false → t.faults.dump.writing = true ∧ t.faults.dump.cause = cause ∧
        t.faults.dump.unit = unit ∧ t.faults.dump.number = s.faults.dump.number + 1) ∧
      (regBit s 0x2020 0 = true → s.faults.dump.kept = true →
        t.faults.dump = { s.faults.dump with later := s.faults.dump.later + 1 })) ∧
  (∀ (s : State) (cause unit : Nat) (c : Nat × Nat), s.power.phase ≠ .off → s.power.phase ≠ .reset → s.faults.fatal = some c →
    ∃ t, exec (.fatalError cause unit) s = .next t ∧ t.faults.fatal = some c ∧
      (regBit s 0x2020 0 = true → s.faults.dump.kept = true →
        t.faults.dump = { s.faults.dump with later := s.faults.dump.later + 1 })) ∧
  (∀ s : State, s.faults.dump.writing = true → ∃ t, exec .fetchDumpDone s = .next t ∧
    t.faults.dump = { s.faults.dump with writing := false, valid := true, kept := true, later := 0, size := t.faults.dump.size } ∧
    256 ≤ t.faults.dump.size ∧ t.models = s.models ∧ t.ctxs = s.ctxs ∧ t.sessions = s.sessions ∧ t.out = s.out) ∧
  (∀ (s : State) (r : Req) (p bytes : List Byte), Ready s r 0x93 none none → p.length = 16 → allZero (slice p 10 6) = true →
    1 ≤ u16 p 8 → u16 p 8 ≤ 8192 → s.faults.dump.valid = true → s.faults.dump.writing = false →
    u64 p 0 + u16 p 8 ≤ s.faults.dump.size → (readDump (unqueue s r 0x93) (u64 p 0) (u16 p 8)).1 = some bytes →
    exec (.dumpRead r p) s = .next (reply (readDump (unqueue s r 0x93) (u64 p 0) (u16 p 8)).2 r 0x93 .ok 0 bytes) ∧
    bytes.length = u16 p 8)

/-- A residue in a tile is counted on its core and the tile tried again from its operands, while RETRY_MAX allows and the
second's count stays below FENCE_THRESHOLD; the attempt after the last retry decides the core's fence. A known-answer window
that passes clears the core's failures; the first failure is counted and tried again, and the second in a row decides the core's
fence. -/
def Obligations.FaultsAreRetriedThenFenced : Prop :=
  (∀ (s : State) (p : Nat) (r : Req) (q : Prog), watched s p = true → findProg s r = some q → q.r = r → q.drained = none →
    tilePhys s (curStep q).coreMask q.tile = p → failedAttempts s (.tile r q.cur q.tile) ≤ retryMax s →
    ((coreState s p).times.filter (fun x => !ended s x 1000)).length + 1 < fenceThreshold s →
    ∃ t, exec (.faultRetry (.tileResidue p r)) s = .next t ∧ (coreState t p).faults = (coreState s p).faults + 1 ∧
      lookupItem (coreState t p).failed (.tile r q.cur q.tile) = lookupItem (coreState s p).failed (.tile r q.cur q.tile) + 1 ∧
      regVal t (coreReg p 0x218) = min (regVal s (coreReg p 0x218) + 1) 0xFFFFFFFF ∧ regVal t 0x2014 = min (regVal s 0x2014 + 1) 0xFFFFFFFF ∧
      findProg t r = some { q with repaired := true } ∧ t.faults.due = s.faults.due ∧ t.hbm = s.hbm ∧ t.out = s.out) ∧
  (∀ (s : State) (p : Nat) (r : Req) (q : Prog), watched s p = true → findProg s r = some q → q.r = r → q.drained = none →
    tilePhys s (curStep q).coreMask q.tile = p → retryMax s < failedAttempts s (.tile r q.cur q.tile) →
    s.faults.fatal = none → s.faults.due = [] → exhausts s.map p = false →
    ∃ t, exec (.faultRetry (.tileResidue p r)) s = .next t ∧ t.faults.due = [(p, 0)] ∧ (coreState t p).faults = (coreState s p).faults + 1 ∧
      failedAttempts t (.tile r q.cur q.tile) = 1 ∧ t.progs = s.progs ∧ t.map = s.map) ∧
  (∀ (s : State) (p engine : Nat), watched s p = true → regBit s 0x84 0 = true →
    (∃ t, exec (.knownAnswerWindow p true engine) s = .next t ∧ (coreState t p).windowFails = 0 ∧ { t with cores := s.cores } = s) ∧
    ((coreState s p).windowFails = 0 → ((coreState s p).times.filter (fun x => !ended s x 1000)).length + 1 < fenceThreshold s →
      ∃ t, exec (.knownAnswerWindow p false engine) s = .next t ∧ t.faults.due = s.faults.due ∧ (coreState t p).windowFails = 1 ∧
        (coreState t p).faults = (coreState s p).faults + 1 ∧ regVal t 0x2014 = min (regVal s 0x2014 + 1) 0xFFFFFFFF) ∧
    (s.faults.fatal = none → s.faults.due = [] → exhausts s.map p = false → 1 ≤ (coreState s p).windowFails →
      ∃ t, exec (.knownAnswerWindow p false engine) s = .next t ∧ t.faults.due = [(p, 2)] ∧
        (coreState t p).windowFails = (coreState s p).windowFails + 1 ∧ (coreState t p).faults = (coreState s p).faults + 1))

/-- A fence gives the core's logical number to the lowest unused reserve, or with none left to the core that holds logical 15;
the fenced core holds none; a free generation is then due, and its write carries the map in force and ends volatile fences.
FAULT_MAP reads the map, or fences a mask at once. -/
def Obligations.FencesChangeTheMap : Prop :=
  (∀ (s : State) (ok : List Nat) (p reason : Nat), s.faults.due = [(p, reason)] → s.faults.fatal = none → s.power.phase = .running →
    mapByte s.map p < 16 → exhausts s.map p = false → (∀ q ∈ reservesOf s.map, q ∈ ok) →
    ∃ t, exec (.fenceSequence ok) s = .next t ∧ t.faults.due = [] ∧ mapByte t.map p = 0xFF ∧
      (∀ q rest, reservesOf s.map = q :: rest → mapByte t.map q = mapByte s.map p) ∧
      (∀ h, reservesOf s.map = [] → mapByte s.map p ≠ 15 → physOfMap s.map 15 = some h → mapByte t.map h = mapByte s.map p) ∧
      (gensUsed s.sec.otp < 4 → t.faults.otpPending = some (s.faults.otpPending.getD p)) ∧
      (4 ≤ gensUsed s.sec.otp → (coreState t p).volatile = true) ∧ t.sec.otp = s.sec.otp) ∧
  (∀ (s : State) (cut : Bool) (p : Nat), s.faults.due = [] → s.faults.otpPending = some p → gensUsed s.sec.otp < 4 →
    ∃ t, exec (.fenceOtpWrite cut) s = .next t ∧ t.faults.otpPending = none ∧
      t.sec.otp = writeGeneration s.sec.otp cut (fun g => { g with map := s.map }) ∧
      (cut = false → ∀ q, (coreState t q).volatile = false) ∧ (cut = true → t.cores = s.cores) ∧ t.map = s.map) ∧
  (∀ (s : State) (r : Req) (p : List Byte), s.faults.due = [] → Ready s r 0x94 none none → p.length = 8 →
    allZero (slice p 1 3) = true →
    (u8 p 0 = 0 → u32 p 4 = 0 →
      exec (.faultMap r p) s = .next (reply (unqueue s r 0x94) r 0x94 .ok 0 (faultMapBytes s))) ∧
    (∀ m, u8 p 0 = 1 → u32 p 4 < 2 ^ 18 → maskedMap s.map (u32 p 4) = some m → s.models = [] →
      ∃ u, exec (.faultMap r p) s = .next (reply u r 0x94 .ok 0 (faultMapBytes u)) ∧ u.map = m ∧ u.sec.otp = s.sec.otp) ∧
    (u8 p 0 = 1 → u32 p 4 < 2 ^ 18 → maskedMap s.map (u32 p 4) = none →
      exec (.faultMap r p) s = .next (reply (unqueue s r 0x94) r 0x94 .badParam 0x0373)))

/-- A walker of a stack reads its next burst and moves on by 64 bytes, wrapping at the stack's end: a correctable word is
counted and its write-back is due, an uncorrectable one is counted; no byte changes. A walker of a core moves on by one line.
Errors that have struck words of the unit stand before the read. A write-back leaves the word clean and no longer due, and its
bytes as they were. A refresh changes nothing. -/
def Obligations.GroomerReadsAndMends : Prop :=
  (∀ (s : State) (n : Nat), n < 8 → walking s 0 = true →
    let o := lookupD s.walkers n 0
    ∃ t, exec (.groomerRead (.hbm n) []) s = .next t ∧ t.walkers = put s.walkers n ((o + 64) % stackSize) ∧ t.hbm = s.hbm ∧
      t.marks = s.marks ∧
      (markedIn s (.hbm n) (n * stackSize + o) 64 = [] → t.writeBacks = s.writeBacks) ∧
      (∀ a, markedIn s (.hbm n) (n * stackSize + o) 64 = [a] → lookup s.marks a = some .correctable →
        (MemUnit.hbm n, a) ∈ t.writeBacks ∧ regVal t 0x48014 = min (regVal s 0x48014 + 1) 0xFFFFFFFF) ∧
      (∀ a, markedIn s (.hbm n) (n * stackSize + o) 64 = [a] → lookup s.marks a = some .uncorrectable →
        t.writeBacks = s.writeBacks ∧ regVal t 0x48018 = min (regVal s 0x48018 + 1) 0xFFFFFFFF)) ∧
  (∀ (s : State) (p : Nat), mapByte s.map p < 16 → walking s 1 = true →
    ∃ t, exec (.groomerRead (.spad p) []) s = .next t ∧ (coreState t p).walker = ((coreState s p).walker + 1) % 10240 ∧
      t.spad = s.spad ∧ t.spadMarks = s.spadMarks) ∧
  (∀ (s : State) (u : MemUnit) (es : List Upset), es.all (fun e => !e.decoder) = true →
    exec (.groomerRead u es) s = exec (.groomerRead u []) (each es s (strike u))) ∧
  (∀ (s : State) (u : MemUnit) (a : Nat), (u, a) ∈ s.writeBacks → (s.power.st = .run ∨ s.power.st = .doze) →
    ∃ t, exec (.memWriteBack u a) s = .next t ∧ lookup (unitMarks t u) (markKey u a) = none ∧
      (∀ k, k ≠ markKey u a → lookup (unitMarks t u) k = lookup (unitMarks s u) k) ∧
      (u, a) ∉ t.writeBacks ∧ t.hbm = s.hbm ∧ t.spad = s.spad ∧ t.regs = s.regs) ∧
  (∀ (s : State) (n : Nat), exec (.hbmRefresh n) s = .next s)

/-! ### Leash and joining -/

/-- JOIN_CONFIG reads the join. A SET enters JOINING with its settings and no port is joined yet; one with topology SINGLE, which has
no other member, starts the self-test at once. A LEAVE notice goes out on every joined port that is ACTIVE, and the module is SINGLE
again. A member missing when the wait ends makes it INCOMPLETE; members that are there start the self-test with its 16 barriers, and
the self-test's result decides COMPLETE or INCOMPLETE. SELFTEST traffic is counted. -/
def Obligations.JoiningCompletesOrFails : Prop :=
  (∀ (s : State) (r : Req) (p : List Byte), Ready s r 0xA0 none none → p.length = 16 →
    (allZero p = true → exec (.joinConfig r p) s = .next (reply (unqueue s r 0xA0) r 0xA0 .ok 0 (joinBytes s))) ∧
    (u8 p 0 = 1 → u8 p 1 ≠ 0 → allZero (slice p 2 2) = true → joinRange s (u8 p 1) (u32 p 8) (u32 p 12) = true → joinBusy s = false →
      ∃ t, exec (.joinConfig r p) s = .next t ∧ (∀ n, (port t n).partnerJoined = false) ∧ t.join =
        { nextTag := s.join.nextTag, st := .joining, topology := u8 p 1, systemId := w32 p 4, count := u32 p 8, self := u32 p 12,
          setReq := some r }) ∧
    (u8 p 0 = 1 → u8 p 1 = 0 → allZero (slice p 2 2) = true → joinRange s 0 (u32 p 8) (u32 p 12) = true → joinBusy s = false →
      ∃ t, exec (.joinConfig r p) s = .next t ∧ (∀ n, (port t n).partnerJoined = false) ∧ t.join =
        { nextTag := s.join.nextTag, st := .joining, topology := 0, systemId := w32 p 4, count := 1, self := 0, setReq := some r,
          selfTest := true }) ∧
    (u8 p 0 = 2 → allZero (p.drop 1) = true → joinBusy s = false →
      ∃ u, exec (.joinConfig r p) s = .next (reply u r 0xA0 .ok 0 (joinBytes u)) ∧ (∀ n, (port u n).partnerJoined = false) ∧
        u.join = { nextTag := s.join.nextTag, lost := s.join.lost, lostFirst := s.join.lostFirst } ∧
        (∀ n ∈ joinedPorts s, (port s n).st = .active → ∃ f : CtrlFlit, Out.ctrl n f ∈ u.out ∧ f.notice = 2))) ∧
  (∀ s : State, s.join.st = .joining → s.join.selfTest = false →
    (joinReady s = false → ∃ u : State,
      u.join = { s.join with st := .incomplete, setReq := none, selfTest := false, missing := membersMissing s } ∧
      exec .joinWaitTimeout s =
        .next (s.join.setReq.elim u (fun r => reply u r 0xA0 .joinIncomplete 0x0350 (joinBytes u)))) ∧
    (joinReady s = true → ∃ t, exec .joinWaitTimeout s = .next t ∧ t.join.st = .joining ∧ t.join.selfTest = true ∧
      t.join.setReq = s.join.setReq ∧ t.join.selfBytes = 0 ∧
      (1 < s.join.count → (∀ k < 16, heldRounds s (selfBarrierId k) 0 = []) →
        t.join.barriers = s.join.barriers ++ (List.range 16).map (fun k => ⟨selfBarrierId k, 0, none, 0, []⟩)))) ∧
  (∀ (s : State) (passed : Bool), s.join.st = .joining → s.join.selfTest = true →
    let ok := passed && selfTestDone s
    ∃ u : State, u.join = { s.join with
        st := if ok then .complete else .incomplete, setReq := none, selfTest := false
        barriers := s.join.barriers.filter (fun b => b.r.isSome) } ∧
      exec (.joinSelftestDone passed) s = .next (s.join.setReq.elim u (fun r =>
        if ok then reply u r 0xA0 .ok 0 (joinBytes u) else reply u r 0xA0 .joinIncomplete 0x0350 (joinBytes u)))) ∧
  (∀ (s : State) (m : LeashMsg), Arrives s 9 m → ∃ t, exec (.selftest m) s = .next t ∧
    t.join = { s.join with selfBytes := s.join.selfBytes + m.data.length } ∧ t.hbm = s.hbm) ∧
  (∀ (s : State) (level : BitVec 3), exec (.joinIdChange level) s = .next { s with power := { s.power with joinId := level } })

/-- A BARRIER takes its place among the 16 and waits for the arrivals of its rounds; an arrival for a barrier not yet entered
is held, up to 64 on a port; the arrival of a round moves the barrier to the next, that of the last round releases it with the time;
a timeout ends it. A TIME message measures the link's delay, or gives a member without a grandmaster member 0's time, put on by the
link's delay (how it is found, and who passes the time on, are the model's choice, log 81); TIME_SEND sends this member's time on
every joined port that is ACTIVE: with nothing before it, as one flit. -/
def Obligations.BarriersAndTime : Prop :=
  (∀ (s : State) (r : Req) (p : List Byte), Ready s r 0xA1 none none → p.length = 16 → allZero (slice p 12 4) = true →
    u32 p 4 ≤ 18 → s.join.barriers.any (fun b => b.id == w32 p 0) = false → joined s = true → 2 ^ u32 p 4 ≤ s.join.count →
    s.join.st ≠ .incomplete → s.join.barriers.length < 16 → heldRounds s (w32 p 0) (u32 p 4) = [] → 0 < roundsOf s (u32 p 4) →
    ∃ t, exec (.barrier r p) s = .next t ∧ t.join.barriers = s.join.barriers ++ [⟨w32 p 0, u32 p 4, some r, 0, []⟩] ∧
      (∃ x ∈ t.taken, x.r = r ∧ x.opcode = 0xA1)) ∧
  (∀ (s : State) (m : LeashMsg), Arrives s 6 m →
    (s.join.barriers.find? (fun b => b.id == m.tag) = none → (port s m.port).barrierMsgs.length < 64 →
      ∃ t, exec (.barrierMessage m) s = .next t ∧ (port t m.port).barrierMsgs = (port s m.port).barrierMsgs ++ [m] ∧
        t.join = s.join) ∧
    (∀ b, s.join.barriers.find? (fun x => x.id == m.tag) = some b → noticeFor s b.id b.scope m = true → u8 m.data 4 = b.round →
      b.round + 1 < roundsOf s b.scope → b.round + 1 ∉ b.seen →
      ∃ t, exec (.barrierMessage m) s = .next t ∧ t.join.barriers = s.join.barriers.map (fun x =>
        if x.id == m.tag then { b with round := b.round + 1, seen := b.seen ++ [b.round] } else x)) ∧
    (∀ b r, s.join.barriers.find? (fun x => x.id == m.tag) = some b → b.r = some r → noticeFor s b.id b.scope m = true →
      u8 m.data 4 = b.round → b.round + 1 = roundsOf s b.scope →
      ∃ u, exec (.barrierMessage m) s = .next (reply u r 0xA1 .ok 0 (leBytes 8 (trailTime s).1 ++ zeros 8)) ∧
        u.join.barriers = s.join.barriers.filter (fun x => x.id != m.tag))) ∧
  (∀ (s : State) (b : Barrier) (r : Req), s.join.barriers.find? (fun x => x.id == b.id) = some b → b.r = some r →
    ∃ u, exec (.barrierTimeout b.id) s = .next (reply u r 0xA1 .joinIncomplete 0x0381) ∧
      u.join = { s.join with barriers := s.join.barriers.filter (fun x => x.id != b.id) }) ∧
  (∀ (s : State) (m : LeashMsg), Arrives s 7 m → ∃ t, exec (.time m) s = .next t ∧
    (hasGrandmaster s = true → t.join = { s.join with
        linkDelay := put s.join.linkDelay m.port ((trailTime s).1 - u64 m.data 0) } ∧ t.gptp = s.gptp) ∧
    (hasGrandmaster s = false → t.join = { s.join with linkDelay := put s.join.linkDelay m.port (Config.linkDelay m.port) } ∧
      t.gptp = (if s.join.self ≠ 0 ∧ (m.srcMember = 0 ∨ m.port ∈ routesTo s 0) then
        some (u64 m.data 0 + Config.linkDelay m.port, s.rtc) else s.gptp))) ∧
  (∀ s : State, ∃ t, exec .timeSend s = .next t ∧ t.join = s.join ∧ t.gptp = s.gptp ∧ t.hbm = s.hbm ∧
    (∀ n, joinedPorts s = [n] → (port s n).st = .active → serdesOn s = true → (port s n).waiting = [] → (port s n).replay = [] →
      outstanding (port s n) 3 = 0 →
      t.out = .flit n (msgFlit (leashMsg s n 3 0x07 ((memberAt s n).getD 0) 0 0 (leBytes 8 (trailTime s).1)) 0 (port s n).txSeq) ::
        s.out))

/-- A member that learns of a loss, or declares one when a joined port stays out of ACTIVE or a sleeping partner does not
answer its Whistles, is INCOMPLETE and ends what the loss ends; a loss it knows changes nothing. A Whistle goes out again while
messages wait for a sleeping partner; Whistles that nobody answers on a port without a member make the port LOST. -/
def Obligations.LossIsDeclaredOnce : Prop :=
  (∀ (s : State) (m : LeashMsg), s.join.st ≠ .single → Arrives s 8 m → u32 m.data 0 < s.join.count → u32 m.data 0 ∉ s.join.lost →
    ∃ t, exec (.lost m) s = .next t ∧ KnowsLost s t (u32 m.data 0) ∧ t.hbm = s.hbm ∧ t.ctxs = s.ctxs) ∧
  (∀ (s : State) (n j : Nat), s.join.st ≠ .single → j ∉ s.join.lost → memberAt s n = some j → n < 4 →
    ((port s n).st = .training ∨ (port s n).st = .down) → (port s n).sleepNotice = false →
    ∃ t, exec (.lossTimeout n) s = .next t ∧ KnowsLost s t j ∧ t.hbm = s.hbm ∧ t.ctxs = s.ctxs) ∧
  (∀ (s : State) (n j : Nat), s.join.st ≠ .single → j ∉ s.join.lost → memberAt s n = some j → n < 4 → (port s n).st = .asleep →
    (port s n).whistling = true →
    ∃ t, exec (.whistleTimeout n) s = .next t ∧ KnowsLost s t j ∧ t.hbm = s.hbm ∧ t.ctxs = s.ctxs) ∧
  (∀ (s : State) (m : LeashMsg), Arrives s 8 m → u32 m.data 0 ∈ s.join.lost →
    ∃ t, exec (.lost m) s = .next t ∧ t.join = s.join ∧ t.moves = s.moves) ∧
  (∀ (s : State) (n : Nat), n < 4 → serdesOn s = true → (port s n).st = .asleep → hasTraffic (port s n) = true →
    regBit s (portReg n 0) 3 = true →
    ∃ t, exec (.whistleRepeat n) s = .next t ∧ t.out = .whistle n :: s.out ∧
      port t n = { port s n with whistling := true } ∧ t.join = s.join) ∧
  (∀ (s : State) (n : Nat), n < 4 → (port s n).st = .asleep → (port s n).whistling = true → memberAt s n = none →
    ∃ t, exec (.whistleTimeout n) s = .next t ∧ port t n = { port s n with st := .lost, whistling := false } ∧ t.join = s.join)

/-- A port sends a CTRL flit when one is due; one that arrives with a bad CRC or a reserved field is counted, and a good one frees
credit, its SLEEP notice marking the partner ASLEEP; unacknowledged flits are sent again in order; a lost CTRL flit, lane signal or
training time starts training; training ends at the largest allowed width with a whole lane group; a flit that cannot be accepted is
counted by its fault and, where it had a SEQ, the first one discarded draws a NAK; LK_CTRL takes effect at the end of a frame: EN
at 0 takes the port DOWN, and a DOWN port trains once EN is 1. -/
def Obligations.LeashPortsTrainAndReplay : Prop :=
  (∀ (s : State) (n : Nat), linkActive s n = true → ∃ t, exec (.ctrlFlitDue n) s = .next t ∧
    t.out = .ctrl n (ctrlFlit (port s n) false 0) :: s.out ∧ port t n = { port s n with sinceCtrl := 0 } ∧
    (∀ k, k ≠ n → port t k = port s k)) ∧
  (∀ (s : State) (n : Nat) (f : CtrlFlit), linkActive s n = true →
    (f.ok = false → exec (.leashCtrlFlit n f) s = .next (bump s (portReg n 0x20) 1)) ∧
    (f.ok = true → f.reservedZero = false → exec (.leashCtrlFlit n f) s = .next (bump s (portReg n 0x28) 1)) ∧
    (f.ok = true → f.reservedZero = true → f.nak = false → f.notice < 2 → ∃ t, exec (.leashCtrlFlit n f) s = .next t ∧
      (port t n).freedByPartner = (List.range 4).map (fun v => f.freed.getD v 0 % 4096) ∧
      (port t n).st = (if f.notice = 1 then .asleep else .active) ∧ (f.notice = 1 → (port t n).sleepNotice = true) ∧
      (port t n).naks = 0 ∧ t.hbm = s.hbm)) ∧
  (∀ (s : State) (n : Nat), linkActive s n = true → (port s n).replay ≠ [] →
    ∃ t, exec (.leashReplayTimeout n) s = .next t ∧ t.ports = s.ports ∧
      regVal t (portReg n 0x30) = min (regVal s (portReg n 0x30) + 1) 0xFFFFFFFF ∧
      t.out = ((port s n).replay.map (fun x => Out.flit n (msgFlit x.msg x.index x.seq))).reverse ++ s.out) ∧
  (let Trains := fun (s t : State) (n : Nat) =>
     (port t n).st = .training ∧ (port t n).lanes = 0 ∧ (port t n).replay = (port s n).replay ∧ (∀ k, k ≠ n → port t k = port s k) ∧
     ((port s n).everActive = true → regVal t (portReg n 0x2C) = min (regVal s (portReg n 0x2C) + 1) 0xFFFFFFFF)
   (∀ (s : State) (n : Nat), linkActive s n = true → s.heldRegs = [] →
     ∃ t, exec (.leashCtrlTimeout n) s = .next t ∧ Trains s t n) ∧
   (∀ (s : State) (n lane : Nat), linkActive s n = true → (port s n).lanes.getLsbD lane = true → s.heldRegs = [] →
     ∃ t, exec (.laneSignalLoss n lane) s = .next t ∧ Trains s t n) ∧
   (∀ (s : State) (n : Nat), n < 4 → serdesOn s = true → (port s n).st = .training → s.heldRegs = [] →
     ∃ t, exec (.leashTrainingTimeout n) s = .next t ∧ Trains s t n)) ∧
  (∀ (s : State) (n w g : Nat) (lanes : BitVec 8) (q : Option LinkParams) (words : List LaneWord), n < 4 → serdesOn s = true →
    (port s n).st = .training → regBit s (portReg n 0) 0 = true →
    chooseWidth lanes.toNat (regField s (portReg n 0) 1 2) = some (w, g) →
    ∃ t, exec (.leashTrainingDone n lanes q words) s = .next t ∧ (port t n).st = .active ∧ (port t n).width = w ∧
      (port t n).lanes = BitVec.ofNat 8 g ∧ (port t n).partner = q ∧
      (port t n).partnerJoined = q.any (partnerAgrees s n) ∧
      Out.training n ⟨s.join.systemId, s.join.self, s.join.topology, n⟩ ∈ t.out) ∧
  (∀ (s : State) (n seq vl : Nat) (why : FlitError), linkActive s n = true →
    ∃ t, exec (.flitCrcError n seq vl why) s = .next t ∧ (port t n).rxSeq = (port s n).rxSeq ∧
      (why ∈ [.crc, .ctrlCrc] → regVal t (portReg n 0x20) = min (regVal s (portReg n 0x20) + 1) 0xFFFFFFFF) ∧
      (why = .fec → regVal t (portReg n 0x24) = min (regVal s (portReg n 0x24) + 1) 0xFFFFFFFF) ∧
      (why ∈ [.type3, .ctrlReserved, .seqWindow] → regVal t (portReg n 0x28) = min (regVal s (portReg n 0x28) + 1) 0xFFFFFFFF) ∧
      (if why ∈ [.crc, .fec, .unexpectedSeq, .seqWindow] ∧ (port s n).nakSent = false then
        (port t n).nakSent = true ∧ t.out = .ctrl n (ctrlFlit (port t n) true 0) :: s.out
       else t.out = s.out ∧ t.ports = s.ports)) ∧
  (∀ (s : State) (n : Nat), n < 4 →
    (regBit (frameBoundary s n) (portReg n 0) 0 = true →
      (if (port s n).st = .down ∧ serdesOn s = true ∧ s.power.phase ≠ .starting then
        ∃ t, exec (.leashFrameBoundary n) s = .next t ∧ (port t n).st = .training ∧ (port t n).lanes = 0
       else exec (.leashFrameBoundary n) s = .next (frameBoundary s n))) ∧
    (regBit (frameBoundary s n) (portReg n 0) 0 = false → ∃ t, exec (.leashFrameBoundary n) s = .next t ∧ (port t n).st = .down ∧
      (port t n).lanes = 0 ∧ (port t n).partnerJoined = (port s n).partnerJoined))

/-- A WRITE for this member writes its bytes inside the map and clear of what may not be written, and no others; one for another
member writes nothing and waits, or leaves, on its route; the acknowledgement or the data of a MOVE's last message completes the
MOVE, and an acknowledgement that refuses ends it; a READ_REQ, which only a bridge serves, is a violation and writes nothing; the
segments of a VALAZ packet are held in order until the last, whose packet goes through the front end's checks. -/
def Obligations.LeashMessagesAreServed : Prop :=
  (∀ (s : State) (m : LeashMsg), Arrives s 1 m → m.destMember = s.join.self → inMap m.addr m.data.length = true →
    writeProtected s m.addr m.data.length = false →
    ∃ t, exec (.write m) s = .next t ∧ Written s t m.addr m.data ∧ t.ctxs = s.ctxs ∧ t.models = s.models) ∧
  (∀ (s : State) (m : LeashMsg), Arrives s 1 m → m.destMember = s.join.self →
    (inMap m.addr m.data.length = false ∨ writeProtected s m.addr m.data.length = true) →
    ∃ t, exec (.write m) s = .next t ∧ t.hbm = s.hbm ∧ t.marks = s.marks) ∧
  (∀ (s : State) (m : LeashMsg), Arrives s 1 m → m.destMember ≠ s.join.self →
    ∃ t, exec (.write m) s = .next t ∧ t.hbm = s.hbm ∧ t.marks = s.marks ∧
      (∀ n ns, routesTo s m.destMember = n :: ns → m.destMember ∉ s.join.lost →
        ∃ x : LeashMsg, x.kind = 1 ∧ x.tag = m.tag ∧ x.addr = m.addr ∧ x.destMember = m.destMember ∧ x.data = m.data ∧
          ((∃ o ∈ (port t n).waiting, o.msg = x) ∨ (∃ y ∈ (port t n).replay, y.msg = x)))) ∧
  (∀ (s : State) (m : LeashMsg) (v : Move) (off len : Nat), Arrives s 2 m → m.destMember = s.join.self →
    moveOf s m.tag false = some (v, off, len) →
    (u8 m.data 0 = 0 → v.tags = [(m.tag, off, len)] → v.bad = false →
      ∃ u, exec (.writeAck m) s = .next (reply u v.r 0x60 .ok 0 (leBytes 8 (v.done + len))) ∧
        u.moves = s.moves.filter (fun x => !(x.r == v.r)) ∧ u.hbm = s.hbm) ∧
    (u8 m.data 0 ≠ 0 →
      ∃ u, exec (.writeAck m) s = .next (reply u v.r 0x60 .badParam 0x0304 (leBytes 8 v.done)) ∧
        u.moves = s.moves.filter (fun x => !(x.r == v.r)) ∧ u.hbm = s.hbm)) ∧
  (∀ (s : State) (m : LeashMsg), Arrives s 3 m → ∃ t, exec (.readReq m) s = .next t ∧ t.hbm = s.hbm ∧ t.moves = s.moves ∧
    regVal t (portReg m.port 0x28) = min (regVal s (portReg m.port 0x28) + 1) 0xFFFFFFFF) ∧
  (∀ (s : State) (m : LeashMsg) (v : Move) (off len : Nat), Arrives s 4 m → moveOf s m.tag true = some (v, off, len) →
    v.tags = [(m.tag, off, len)] → v.bad = false → m.data.length = len →
    ∃ u, exec (.readData m) s = .next (reply u v.r 0x60 .ok 0 (leBytes 8 (v.done + len))) ∧
      u.moves = s.moves.filter (fun x => !(x.r == v.r)) ∧ Written s u (v.dst + off) m.data) ∧
  (∀ (s : State) (m : LeashMsg), Arrives s 5 m →
    (joinSegment (port s m.port).partial? m = .broken → ∃ t, exec (.valaz m) s = .next t ∧ (port t m.port).partial? = none ∧
      t.sessions = s.sessions ∧ regVal t (portReg m.port 0x28) = min (regVal s (portReg m.port 0x28) + 1) 0xFFFFFFFF) ∧
    (∀ v, joinSegment (port s m.port).partial? m = .more v → ∃ t, exec (.valaz m) s = .next t ∧
      (port t m.port).partial? = some v ∧ t.sessions = s.sessions) ∧
    (∀ bs, joinSegment (port s m.port).partial? m = .whole bs → ∃ u, exec (.valaz m) s =
      .next (receivePacket u ⟨.leash, m.port, [], 0, m.srcMember, none, []⟩ bs (fun n => n == bs.length)) ∧
      (port u m.port).partial? = none ∧ u.sessions = s.sessions ∧ u.regs = s.regs))

/-! ### The front end -/

/-- The reply cache of a session holds its most recent 32 tagged replies, payloads included, and a command whose SEQ is
cached, sent again with RESEND, has its reply sent again bit for bit, tag included, to where it came from. -/
def Obligations.CachedRepliesAreSentAgain : Prop :=
  (∀ (s : State) (r : Req) (k op : Nat) (st : Status) (d : Nat) (p : List Byte) (own : Nat), r.session = some k →
    (session s k).isOpen = true →
    ∃ x : Reply, x.payload = p ∧ x.seq = r.seq ∧ x.tagged = true ∧
      (session (reply s r op st d p own) k).cache = (x :: (session s k).cache).take 32) ∧
  (∀ (s : State) (f : Frame) (data : List Byte) (k op : Nat) (seq : Word) (c : Reply), FrameFits s f data →
    PacketFits s data k op seq true → -1024 ≤ (seq - (session s k).nextSeq).toInt → (seq - (session s k).nextSeq).toInt ≤ -1 →
    seq ∉ (session s k).lost → (session s k).cache.find? (fun x => x.seq == seq) = some c → regBit s 0x6050 5 = false →
    ∃ t x, exec (.frameReceived f) s = .next t ∧ t.out = replyOut s f.port false x :: s.out ∧ x.bytes = c.bytes ∧
      x.dest = frameSource f ∧ (session t k).cache = (session s k).cache ∧ (session t k).queue = (session s k).queue)

/-- A command in sequence that passes the checks and has room enters its session's queue, with the modes in effect, and moves NEXT_SEQ
on; a wait that expires declares the missing SEQ lost and lets the held command proceed; a Whistle frame is counted and goes no further. ARP
and Neighbor Solicitation for the module's address are answered; 802.1AS sets the time; a link comes up and goes down; the
start of a gate cycle applies its pending values. -/
def Obligations.FramesReachTheirSession : Prop :=
  (∀ (s : State) (f : Frame) (data : List Byte) (k op : Nat) (seq : Word), FrameFits s f data → PacketFits s data k op seq false →
    (session s k).nextSeq = seq → (session s k).reorder = [] → s.faults.fatal = none → assigned op = true →
    (session s k).queue.length < 1024 → queuedService (session s k).queue + serviceOf op ≤ budget s →
    ∃ t, exec (.frameReceived f) s = .next t ∧ (session t k).nextSeq = seq + 1 ∧ t.out = s.out ∧
      (session t k).queue = (session s k).queue ++ [⟨some k, op, seq, slice data 16 (u16 data 8), frameSource f, modesNow s⟩] ∧
      (∀ j, j ≠ k → session t j = session s j)) ∧
  (∀ (s : State) (k : Nat) (p : Packet), k < 8 → (session s k).isOpen = true → (session s k).reorder = [p] →
    p.seq = (session s k).nextSeq + 1 → s.faults.fatal = none → assigned p.opcode = true → s.power.st = .run →
    s.power.entering = none → (session s k).queue.length < 1024 → queuedService (session s k).queue + serviceOf p.opcode ≤ budget s →
    ∃ t, exec (.reorderWaitExpiry k) s = .next t ∧ (session t k).lost =
        (((session s k).nextSeq :: (session s k).lost).take 1024).filter (· != p.seq) ∧
      (session t k).queue = (session s k).queue ++ [{ p with modes := modesNow s }] ∧ (session t k).nextSeq = p.seq + 1 ∧ (session t k).reorder = []) ∧
  (∀ (s : State) (f : Frame), isWhistle f = true → frontEndOn s = true → (ethPort s f.port).link = true → f.fcsOk = true →
    frameOk s f = true → policed s f = some s → f.rTags = [] → frameWakes s f = false →
    ∃ t, exec (.ethernetWhistleFrame f) s = .next t ∧ t.sessions = s.sessions ∧ t.openQueue = s.openQueue ∧ t.out = s.out ∧
      regVal t 0x6834 = min (regVal s 0x6834 + 1) 0xFFFFFFFF) ∧
  (∀ (s : State) (e : Nat) (mac ip target : List Byte), frontEndOn s = true → (ethPort s e).link = true → allZero target = false →
    (target = ip4Of s → exec (.arpRequest e mac ip target) s = .next { s with out := .arp e mac ip :: s.out }) ∧
    (target = ip6Of s → exec (.neighborSolicitation e mac ip target) s = .next { s with out := .neighborAdv e mac ip :: s.out })) ∧
  (∀ (s : State) (e t : Nat), frontEndOn s = true → (ethPort s e).link = true → regBit s 0x6050 7 = true →
    exec (.gptpMessage e 0 t) s = .next { s with gptp := some (t, s.rtc) }) ∧
  (∀ (s : State) (e eye : Nat) (fast : Bool) (fec gptp : BitVec 2), e < 2 → frontEndOn s = true → regBit s (0x6000 + 0x10 * e) 0 = true →
    s.unsent = [] → ∃ t, exec (.ethLinkUp e fast fec gptp eye) s = .next t ∧ (ethPort t e).link = true ∧ (ethPort t e).eye = eye ∧
      { t with eth := s.eth } = s ∧ (∀ k, k ≠ e → ethPort t k = ethPort s k)) ∧
  (∀ (s : State) (e : Nat), ∃ t, exec (.ethLinkDown e) s = .next t ∧ (ethPort t e).link = false ∧ { t with eth := s.eth } = s ∧
    (∀ k, k ≠ e → ethPort t k = ethPort s k)) ∧
  (∀ (s : State) (e : Nat) (v : Word), e < 2 → s.heldRegs = [(0x6055 + 4 * e, v)] →
    ∃ t, exec (.gateCycleStart e) s = .next t ∧ t.heldRegs = [] ∧ regVal t (0x6054 + 4 * e) = v.toNat ∧
      (∀ a, a ≠ 0x6054 + 4 * e → regVal t a = regVal s a))

/-! ### Security and sideband -/

/-- A privileged command whose token and data can be read judges the token: one that is accepted lets FW_STAGE put a correct
image that rollback allows into the slot that did not boot, FW_ACTIVATE choose the staged slot, OTP_PROGRAM write the next
generation with its field, DEBUG_UNLOCK blow a fuse and unlock its features; one that is not gives ACCESS_DENIED 0x0390. The
signature checks are opaque (log 10). ATTEST waits for its nonce. -/
def Obligations.PrivilegedCommandsNeedTheirToken : Prop :=
  (∀ (s v : State) (r : Req) (p token img : List Byte), Ready s r 0xE0 none none → p.length = 24 → u64 p 16 ≤ maxImage →
    RegionOk s (u64 p 0) 392 64 false → RegionOk s (u64 p 8) (u64 p 16) 64 false →
    TokenRead { unqueue s r 0xE0 with sec := { s.sec with staged := false } } (u64 p 0) (some (u64 p 8, u64 p 16)) token img v →
    let j := judgeToken v token ⟨0xE0, 0, sha384 img⟩
    (j.1 = true → imageOk s.sec.otp img = true → s.sec.otp.rollback ≤ imageVersion img →
      ∃ u, exec (.fwStage r p) s = .next (reply u r 0xE0 .ok) ∧ u.sec.staged = true ∧
        (if s.sec.bootB then u.sec.slotA = img ∧ u.sec.slotB = s.sec.slotB else u.sec.slotB = img ∧ u.sec.slotA = s.sec.slotA)) ∧
    (j.1 = false → exec (.fwStage r p) s = .next (reply j.2 r 0xE0 .accessDenied 0x0390) ∧ j.2.sec.staged = false)) ∧
  (∀ (s v : State) (r : Req) (p token : List Byte), Ready s r 0xE1 none none → p.length = 16 → allZero (slice p 9 7) = true →
    u8 p 8 ≤ 1 → RegionOk s (u64 p 0) 392 64 false → TokenRead (unqueue s r 0xE1) (u64 p 0) none token [] v →
    let j := judgeToken v token ⟨0xE1, u8 p 8, zeros 48⟩
    (j.1 = true → s.sec.staged = true → (u8 p 8 = 1 → workInProgress j.2 = false) →
      ∃ t, exec (.fwActivate r p) s = .next t ∧ t.sec.activate = true ∧
        t.power.resetDue = (if u8 p 8 = 1 then some 2 else s.power.resetDue)) ∧
    (j.1 = false → exec (.fwActivate r p) s = .next (reply j.2 r 0xE1 .accessDenied 0x0390))) ∧
  (∀ (s v : State) (r : Req) (p token d : List Byte) (len : Nat), Ready s r 0xE2 none none → p.length = 24 →
    allZero (slice p 10 6) = true → fieldLength (u16 p 8) = some len → RegionOk s (u64 p 0) 392 64 false →
    RegionOk s (u64 p 16) len 64 false → TokenRead (unqueue s r 0xE2) (u64 p 0) (some (u64 p 16, len)) token d v →
    let j := judgeToken v token ⟨0xE2, u16 p 8, sha384 d⟩
    (j.1 = true → fieldValueOk (u16 p 8) d = true → s.faults.otpPending = none →
      (u16 p 8 ≠ 0x20 → gensUsed s.sec.otp < 4 → ∃ t, exec (.otpProgram r p) s = .next t ∧
        t.sec.otp = writeGeneration s.sec.otp false (applyField (u16 p 8) d)) ∧
      (u16 p 8 = 0x20 → s.sec.otp.debugDisable = false → ∃ t, exec (.otpProgram r p) s = .next t ∧
        t.sec.otp = { s.sec.otp with debugDisable := true })) ∧
    (j.1 = false → exec (.otpProgram r p) s = .next (reply j.2 r 0xE2 .accessDenied 0x0390))) ∧
  (∀ (s v : State) (r : Req) (p token : List Byte), Ready s r 0xE3 none none → p.length = 16 → allZero (slice p 12 4) = true →
    u32 p 8 ≤ 15 → RegionOk s (u64 p 0) 392 64 false → TokenRead (unqueue s r 0xE3) (u64 p 0) none token [] v →
    let j := judgeToken v token ⟨0xE3, u32 p 8, zeros 48⟩
    (j.1 = true → s.sec.otp.debugUnlocks < 32 → ∃ t, exec (.debugUnlock r p) s = .next t ∧ t.sec.debugUnlocked = true ∧
      t.sec.debug = s.sec.debug ||| BitVec.ofNat 4 (u32 p 8) ∧
      t.sec.otp = { s.sec.otp with debugUnlocks := s.sec.otp.debugUnlocks + 1 }) ∧
    (j.1 = false → exec (.debugUnlock r p) s = .next (reply j.2 r 0xE3 .accessDenied 0x0390))) ∧
  (∀ (s : State) (r : Req) (p : List Byte), Ready s r 0xE4 none none → p.length = 52 → allZero (slice p 48 4) = true →
    s.ent.st ≠ .failed →
    ∃ t, exec (.attest r p) s = .next t ∧ t.ent = { s.ent with queue := s.ent.queue ++ [⟨.attest r p, 48, []⟩] } ∧ t.out = s.out)

/-- A sideband read replies OK and the value in effect, a sideband write OK once it is done, the indirect forms the word that
IND_ADDR names; a wrong PEC in SMBus mode or another byte count is answered BAD_PACKET and does nothing else; TELEMETRY
replies its 14 bytes. SETDASA and ENTDAA give the target an address and make it an I3C target, RSTDAA returns it to SMBus; the
common reads answer an I3C target, ENEC and DISEC set its interrupt; ALERT_RESPONSE answers in SMBus mode while ALERT_N is
asserted. The TAP selects its instructions, of which three act as BYPASS unless RST_N is asserted, and reaches nothing else.
-/
def Obligations.SidebandAndTap : Prop :=
  ((∀ (s : State) (b : List Byte) (pec : Bool), targetOn s = true → b.length = 4 → (s.side.dynamic = none → pec = true) →
     Reaches s 8 (u32 b 0) → plainRead (u32 b 0) = true →
     exec (.sidebandRegRead b pec) s =
       .next (sideReply s (leBytes 1 0 ++ leBytes 4 (valueInEffect s (path s 8).armed (u32 b 0))))) ∧
   (∀ (s : State) (b : List Byte) (pec : Bool) (i : RegInfo), targetOn s = true → b.length = 8 → (s.side.dynamic = none → pec = true) →
     Reaches s 8 (u32 b 0) → regInfo (u32 b 0) = some i → plainWrite (u32 b 0) = true → i.guarded = false → i.masked = false →
     i.bound = .now → i.w1c = 0 → ∃ t, exec (.sidebandRegWrite b pec) s = .next t ∧ t.out = .sideband [0] :: s.out ∧
       regVal t (u32 b 0) = ((regVal s (u32 b 0) &&& (0xFFFFFFFF ^^^ i.rw)) ||| (u32 b 4 &&& i.rw)) % 2 ^ 32 ∧
       (∀ a, a ≠ u32 b 0 → regVal t a = regVal s a)) ∧
   (∀ (s u : State) (b : List Byte) (pec : Bool) (w : Nat), targetOn s = true → b.length = 4 → (s.side.dynamic = none → pec = true) →
     indRead (loadInd s 8 (u32 b 0) true) (path (loadInd s 8 (u32 b 0) true) 8).indAddr = .ok (w, u) →
     ∃ t, exec (.indRead b pec) s = .next t ∧ t.out = .sideband (leBytes 1 0 ++ leBytes 4 w) :: u.out ∧ t.regs = u.regs) ∧
   (∀ (s u : State) (b : List Byte) (pec : Bool) (w : Nat), targetOn s = true → b.length = 8 → (s.side.dynamic = none → pec = true) →
     let v := loadInd s 8 (u32 b 0) true
     indGuarded (path v 8).indAddr = false → indWrite v (path v 8).indAddr (u32 b 4) = .ok (w, u) →
     ∃ t, exec (.indWrite b pec) s = .next t ∧ t.out = .sideband [0] :: u.out ∧ t.sec = u.sec ∧ t.regs = u.regs) ∧
   (∀ (s : State) (b : List Byte) (c : Instr) (pec : Bool) (n : Nat), targetOn s = true →
     (c = .sidebandRegRead b pec ∧ n = 4) ∨ (c = .sidebandRegWrite b pec ∧ n = 8) ∨ (c = .indRead b pec ∧ n = 4) ∨
       (c = .indWrite b pec ∧ n = 8) ∨ (c = .telemetry b pec ∧ n = 0) →
     (b.length ≠ n ∨ (s.side.dynamic = none ∧ pec = false)) →
     exec c s = .next (sideReply s [BitVec.ofNat 8 Status.badPacket.code])) ∧
   (∀ (s : State) (pec : Bool), targetOn s = true → (s.side.dynamic = none → pec = true) →
     ∃ t bs, exec (.telemetry [] pec) s = .next t ∧ t.out = .sideband bs :: s.out ∧ bs.length = 14 ∧ bs.head? = some 0 ∧
       t.regs = s.regs)) ∧
  ((∀ (s : State) (a : BitVec 7), targetOn s = true →
     (∃ t, exec (.setdasa a) s = .next t ∧ t.side = { s.side with dynamic := some a } ∧ { t with side := s.side } = s) ∧
     (s.side.dynamic = none →
       ∃ t, exec (.entdaa a) s = .next t ∧ t.side = { s.side with dynamic := some a } ∧ { t with side := s.side } = s) ∧
     (∃ t, exec .rstdaa s = .next t ∧ t.side = { s.side with dynamic := none, ibi := false } ∧ { t with side := s.side } = s)) ∧
   (∀ s : State, targetOn s = true → s.side.dynamic.isSome = true →
     exec .getpid s = .next (sideReply s (beBytes 6 Config.i3cPid.toNat)) ∧ exec .getbcr s = .next (sideReply s [Config.i3cBcr]) ∧
     exec .getdcr s = .next (sideReply s [Config.i3cDcr]) ∧
     (∃ bs, exec .getstatus s = .next (sideReply s bs) ∧ bs.length = 2) ∧
     exec .enec s = .next { s with side := { s.side with ibi := true } } ∧
     exec .disec s = .next { s with side := { s.side with ibi := false } }) ∧
   (∀ s : State, targetOn s = true → s.side.dynamic = none → alertN s = true →
     exec .alertResponse s = .next (sideReply s [BitVec.ofNat 8 (2 * (0x50 + s.power.joinId.toNat))])) ∧
   (∀ (s : State) (c : Instr) (i : TapInstr) (cells : List Bool), s.power.phase ≠ .off →
     (c, i) ∈ [(.extest, .extest), (.idcode, .idcode), (.clamp, .clamp), (.highz, .highz), (.bypass, .bypass),
       (.samplePreload cells, .samplePreload)] →
     ∃ t, exec c s = .next t ∧ t.tap.instr = i ∧ (c = .samplePreload cells → t.tap.cells = cells) ∧
       (c ≠ .samplePreload cells → t.tap.cells = s.tap.cells) ∧ { t with tap := s.tap } = s ∧
       (s.power.rstN = false → i = .extest ∨ i = .clamp ∨ i = .highz → tapActing t = .bypass) ∧
       (s.power.rstN = true → tapActing t = i)))
end

