-- ==== Sys2Proof/Laws/Drbg.lean ====
section
/-!
SUPPORT. The shapes of the CTR_DRBG: a block of AES has 16 bytes, a generate call gives the bytes asked for, and the key keeps its 32
bytes (07 R242).
-/

namespace Sys2Proof.Machine

@[simp] theorem chunksLoop_length {α : Type} (n k : Nat) (l : List α) : (chunksLoop n k l).length = k := by
  induction k generalizing l with
  | zero => rfl
  | succ k ih => simp [chunksLoop, ih]

@[simp] theorem chunksLoop_get {α : Type} (n k : Nat) (l : List α) (i : Nat) :
    (chunksLoop n k l)[i]? = if i < k then some ((l.drop (n * i)).take n) else none := by
  induction k generalizing l i with
  | zero => simp [chunksLoop]
  | succ k ih => cases i with
    | zero => simp [chunksLoop]
    | succ i => simp [chunksLoop, ih, Nat.mul_succ, Nat.add_comm]

theorem chunksLoop_lengths {α : Type} (n k : Nat) (l : List α) (h : l.length = n * k) : ∀ c ∈ chunksLoop n k l, c.length = n := by
  induction k generalizing l with
  | zero => simp [chunksLoop]
  | succ k ih =>
    have hk : n * (k + 1) = n * k + n := Nat.mul_succ n k
    intro c hc
    simp only [chunksLoop, List.mem_cons] at hc
    rcases hc with rfl | hc
    · simp; omega
    · exact ih _ (by simp; omega) c hc

@[simp] theorem xorBytes_length (a b : List Byte) : (xorBytes a b).length = min a.length b.length := by simp [xorBytes]

/-- The key schedule has the words it is asked for, each of four bytes. -/
theorem aesExpand_shape (n : Nat) (ws : List (List Byte)) (h8 : 8 ≤ ws.length) (h4 : ∀ w ∈ ws, w.length = 4) :
    (aesExpand n ws).length = ws.length + n ∧ ∀ w ∈ aesExpand n ws, w.length = 4 := by
  induction n generalizing ws with
  | zero => exact ⟨rfl, h4⟩
  | succ n ih =>
    have hl : (ws.headD []).length = 4 := by
      cases ws with
      | nil => simp at h8
      | cons a ws => exact h4 a (by simp)
    have h7 : (ws.getD 7 []).length = 4 := by
      rw [List.getD_eq_getElem?_getD, List.getElem?_eq_getElem (by omega)]; exact h4 _ (List.getElem_mem _)
    have hx : ∀ b : List Byte, b.length = 4 → (xorBytes (ws.getD 7 []) b).length = 4 := by
      intro b hb; rw [xorBytes_length, h7, hb]; rfl
    unfold aesExpand
    have h := ih (xorBytes (ws.getD 7 [])
      (if ws.length % 8 = 0 then
        xorBytes (((ws.headD []).drop 1 ++ (ws.headD []).take 1).map aesSubstitute) [BitVec.ofNat 8 (2 ^ (ws.length / 8 - 1)), 0, 0, 0]
       else if ws.length % 8 = 4 then (ws.headD []).map aesSubstitute else ws.headD []) :: ws)
      (by rw [List.length_cons]; omega) (by
        intro w hw
        rcases List.mem_cons.1 hw with rfl | hw
        · apply hx
          split
          · rw [xorBytes_length, List.length_map, List.length_append, List.length_drop, List.length_take, hl]; rfl
          · split
            · rw [List.length_map, hl]
            · exact hl
        · exact h4 w hw)
    exact ⟨by rw [h.1, List.length_cons]; omega, h.2⟩

theorem flatten_four (ws : List (List Byte)) (h : ∀ w ∈ ws, w.length = 4) : ws.flatten.length = 4 * ws.length := by
  induction ws with
  | nil => rfl
  | cons w ws ih => simp_all; omega

/-- A key of 32 bytes has fifteen round keys of 16 bytes. -/
theorem aesKeys_last (key : List Byte) (h : key.length = 32) : ((aesKeys key).getD 14 []).length = 16 := by
  have hc : chunks 4 key = chunksLoop 4 8 key := by simp [chunks, h]
  have hw : ∀ w ∈ (chunks 4 key).reverse, w.length = 4 := by
    rw [hc]; simpa using chunksLoop_lengths 4 8 key (by omega)
  have hs := aesExpand_shape 52 (chunks 4 key).reverse (by simp [hc]) hw
  have hn : (aesExpand 52 (chunks 4 key).reverse).reverse.flatten.length = 240 := by
    rw [flatten_four _ (by simpa using hs.2), List.length_reverse, hs.1]; simp [hc]
  unfold aesKeys
  rw [List.getD_eq_getElem?_getD, chunks, hn, chunksLoop_get]
  simp [hn]

/-- A block enciphered under a key of 32 bytes has 16 bytes. -/
theorem aes256_length (key block : List Byte) (h : key.length = 32) : (aes256 key block).length = 16 := by
  have hk := aesKeys_last key h
  rw [List.getD_eq_getElem?_getD] at hk
  simp [aes256, hk, aesShift]

@[simp] theorem drbgBlocks_key (n : Nat) (d : DrbgState) : (drbgBlocks n d).2.key = d.key := by
  induction n generalizing d with
  | zero => rfl
  | succ n ih => simp [drbgBlocks, ih]

theorem drbgBlocks_length (n : Nat) (d : DrbgState) (h : d.key.length = 32) : (drbgBlocks n d).1.length = 16 * n := by
  induction n generalizing d with
  | zero => rfl
  | succ n ih => simp [drbgBlocks, ih, aes256_length, h]; omega

/-- The update keeps a key of 32 bytes. -/
theorem drbgUpdate_key (d : DrbgState) (data : List Byte) (h : d.key.length = 32) (hd : data.length = 48) :
    (drbgUpdate d data).key.length = 32 := by simp [drbgUpdate, drbgBlocks_length 3 d h, hd]

/-- A generate call gives the bytes asked for. -/
theorem drbgGenerate_length (d : DrbgState) (n : Nat) (h : d.key.length = 32) : (drbgGenerate d n).1.length = n := by
  simp [drbgGenerate, drbgBlocks_length _ d h]; omega

/-- A generate call leaves a key of 32 bytes. -/
theorem drbgGenerate_key (d : DrbgState) (n : Nat) (h : d.key.length = 32) : (drbgGenerate d n).2.key.length = 32 := by
  simp only [drbgGenerate]
  exact drbgUpdate_key _ _ (by simp [h]) (by simp [zeros])

end Sys2Proof.Machine
end

