-- ==== Sys2Proof/Laws/Lists.lean ====
section
/-!
SUPPORT. Maps by key and runs of bytes: what reads after writes give, and the order of keys.
-/

namespace Sys2Proof.Machine

/-! ### Maps -/

/-- A read of the key written gives the value written. -/
@[simp] theorem lookup_put_same {α : Type} (m : Map α) (k : Nat) (v : α) : lookup (put m k v) k = some v := by
  induction m with
  | nil => simp [put, lookup]
  | cons e m ih =>
    obtain ⟨j, w⟩ := e
    simp only [put]
    split
    · simp only [lookup]; split
      · omega
      · exact ih
    · split <;> simp [lookup]

/-- Every other key keeps its value. -/
theorem lookup_put_other {α : Type} (m : Map α) {j k : Nat} (v : α) (h : j ≠ k) : lookup (put m k v) j = lookup m j := by
  induction m with
  | nil => simp [put, lookup, Ne.symm h]
  | cons e m ih =>
    obtain ⟨i, w⟩ := e
    simp only [put]
    split
    · simp only [lookup, ih]
    · split
      · rename_i hik; subst hik; simp [lookup, Ne.symm h]
      · simp [lookup, Ne.symm h]

/-- A removed key is gone. -/
@[simp] theorem lookup_del_same {α : Type} (m : Map α) (k : Nat) : lookup (del m k) k = none := by
  unfold del
  induction m with
  | nil => rfl
  | cons e m ih =>
    by_cases h : e.1 = k
    · simp [h, ih]
    · obtain ⟨i, w⟩ := e; simp_all [lookup]

theorem lookup_del_other {α : Type} (m : Map α) {j k : Nat} (h : j ≠ k) : lookup (del m k) j = lookup m j := by
  unfold del
  induction m with
  | nil => rfl
  | cons e m ih =>
    obtain ⟨i, w⟩ := e
    by_cases hik : i = k
    · subst hik; simp [lookup, ih, Ne.symm h]
    · simp only [List.filter_cons, lookup]; simp [hik, lookup, ih]

/-- A change at a key reads back changed. -/
@[simp] theorem lookup_adjust_same {α : Type} (m : Map α) (k : Nat) (f : α → α) : lookup (adjust m k f) k = (lookup m k).map f := by
  unfold adjust
  induction m with
  | nil => rfl
  | cons e m ih =>
    obtain ⟨i, w⟩ := e
    by_cases h : i = k
    · simp [h, lookup]
    · simp only [List.map_cons, h, if_false, lookup]; exact ih

theorem lookup_adjust_other {α : Type} (m : Map α) {j k : Nat} (f : α → α) (h : j ≠ k) : lookup (adjust m k f) j = lookup m j := by
  unfold adjust
  induction m with
  | nil => rfl
  | cons e m ih =>
    obtain ⟨i, w⟩ := e
    by_cases hik : i = k
    · subst hik; simp [lookup, Ne.symm h, ih]
    · simp only [List.map_cons, hik, if_false, lookup, ih]

/-! ### The order of keys -/

/-- Rising keys: each key is below every later one. -/
theorem rising_iff {α : Type} (m : Map α) : rising m = true ↔ m.Pairwise (fun a b => a.1 < b.1) := by
  induction m with
  | nil => simp [rising]
  | cons a m ih =>
    cases m with
    | nil => simp [rising]
    | cons b m =>
      simp only [rising, Bool.and_eq_true, decide_eq_true_eq, ih, List.pairwise_cons]
      constructor
      · rintro ⟨h, hb, hm⟩
        refine ⟨fun c hc => ?_, hb, hm⟩
        rcases List.mem_cons.mp hc with rfl | hc
        · exact h
        · exact Nat.lt_trans h (hb c hc)
      · rintro ⟨h, hb, hm⟩
        exact ⟨h b (List.mem_cons_self ..), hb, hm⟩

/-- Cells of a run of bytes lie inside it. -/
theorem cellsAt_mem {a : Nat} {bs : List Byte} {x : Host.Cell} (h : x ∈ cellsAt a bs) : a ≤ x.1 ∧ x.1 < a + bs.length := by
  unfold cellsAt at h
  obtain ⟨i, hi, rfl⟩ := List.mem_iff_getElem.mp h
  simp only [List.length_zipWith, List.length_range, Nat.min_self] at hi
  simp; omega

/-- Cells of a run of bytes rise. -/
theorem cellsAt_rising (a : Nat) (bs : List Byte) : (cellsAt a bs).Pairwise (fun x y => x.1 < y.1) := by
  rw [List.pairwise_iff_getElem]
  intro i j hi hj hij
  simp [cellsAt]; omega

end Sys2Proof.Machine
end

