-- ==== Sys2Proof/Laws/State.lean ====
section
/-!
SUPPORT. One lemma for each field under each named update of the state, true by definition: no later proof unfolds a record
update.
-/

namespace Sys2Proof.Machine

/-! ### `setSession` -/

@[simp] theorem setSession_pending (s : State) (k : Nat) (v : Session) : (setSession s k v).pending = s.pending := rfl
@[simp] theorem setSession_rtc (s : State) (k : Nat) (v : Session) : (setSession s k v).rtc = s.rtc := rfl
@[simp] theorem setSession_gptp (s : State) (k : Nat) (v : Session) : (setSession s k v).gptp = s.gptp := rfl
@[simp] theorem setSession_regs (s : State) (k : Nat) (v : Session) : (setSession s k v).regs = s.regs := rfl
@[simp] theorem setSession_heldRegs (s : State) (k : Nat) (v : Session) : (setSession s k v).heldRegs = s.heldRegs := rfl
@[simp] theorem setSession_paths (s : State) (k : Nat) (v : Session) : (setSession s k v).paths = s.paths := rfl
@[simp] theorem setSession_openQueue (s : State) (k : Nat) (v : Session) : (setSession s k v).openQueue = s.openQueue := rfl
@[simp] theorem setSession_taken (s : State) (k : Nat) (v : Session) : (setSession s k v).taken = s.taken := rfl
@[simp] theorem setSession_nonces (s : State) (k : Nat) (v : Session) : (setSession s k v).nonces = s.nonces := rfl
@[simp] theorem setSession_auths (s : State) (k : Nat) (v : Session) : (setSession s k v).auths = s.auths := rfl
@[simp] theorem setSession_cbSeen (s : State) (k : Nat) (v : Session) : (setSession s k v).cbSeen = s.cbSeen := rfl
@[simp] theorem setSession_meters (s : State) (k : Nat) (v : Session) : (setSession s k v).meters = s.meters := rfl
@[simp] theorem setSession_eth (s : State) (k : Nat) (v : Session) : (setSession s k v).eth = s.eth := rfl
@[simp] theorem setSession_unsent (s : State) (k : Nat) (v : Session) : (setSession s k v).unsent = s.unsent := rfl
@[simp] theorem setSession_models (s : State) (k : Nat) (v : Session) : (setSession s k v).models = s.models := rfl
@[simp] theorem setSession_modelGens (s : State) (k : Nat) (v : Session) : (setSession s k v).modelGens = s.modelGens := rfl
@[simp] theorem setSession_ctxs (s : State) (k : Nat) (v : Session) : (setSession s k v).ctxs = s.ctxs := rfl
@[simp] theorem setSession_ctxGens (s : State) (k : Nat) (v : Session) : (setSession s k v).ctxGens = s.ctxGens := rfl
@[simp] theorem setSession_hbm (s : State) (k : Nat) (v : Session) : (setSession s k v).hbm = s.hbm := rfl
@[simp] theorem setSession_marks (s : State) (k : Nat) (v : Session) : (setSession s k v).marks = s.marks := rfl
@[simp] theorem setSession_spadMarks (s : State) (k : Nat) (v : Session) : (setSession s k v).spadMarks = s.spadMarks := rfl
@[simp] theorem setSession_otherMarks (s : State) (k : Nat) (v : Session) : (setSession s k v).otherMarks = s.otherMarks := rfl
@[simp] theorem setSession_writeBacks (s : State) (k : Nat) (v : Session) : (setSession s k v).writeBacks = s.writeBacks := rfl
@[simp] theorem setSession_walkers (s : State) (k : Nat) (v : Session) : (setSession s k v).walkers = s.walkers := rfl
@[simp] theorem setSession_moves (s : State) (k : Nat) (v : Session) : (setSession s k v).moves = s.moves := rfl
@[simp] theorem setSession_fills (s : State) (k : Nat) (v : Session) : (setSession s k v).fills = s.fills := rfl
@[simp] theorem setSession_loads (s : State) (k : Nat) (v : Session) : (setSession s k v).loads = s.loads := rfl
@[simp] theorem setSession_saves (s : State) (k : Nat) (v : Session) : (setSession s k v).saves = s.saves := rfl
@[simp] theorem setSession_destroys (s : State) (k : Nat) (v : Session) : (setSession s k v).destroys = s.destroys := rfl
@[simp] theorem setSession_progs (s : State) (k : Nat) (v : Session) : (setSession s k v).progs = s.progs := rfl
@[simp] theorem setSession_drains (s : State) (k : Nat) (v : Session) : (setSession s k v).drains = s.drains := rfl
@[simp] theorem setSession_map (s : State) (k : Nat) (v : Session) : (setSession s k v).map = s.map := rfl
@[simp] theorem setSession_cores (s : State) (k : Nat) (v : Session) : (setSession s k v).cores = s.cores := rfl
@[simp] theorem setSession_faults (s : State) (k : Nat) (v : Session) : (setSession s k v).faults = s.faults := rfl
@[simp] theorem setSession_trail (s : State) (k : Nat) (v : Session) : (setSession s k v).trail = s.trail := rfl
@[simp] theorem setSession_power (s : State) (k : Nat) (v : Session) : (setSession s k v).power = s.power := rfl
@[simp] theorem setSession_sec (s : State) (k : Nat) (v : Session) : (setSession s k v).sec = s.sec := rfl
@[simp] theorem setSession_ent (s : State) (k : Nat) (v : Session) : (setSession s k v).ent = s.ent := rfl
@[simp] theorem setSession_ports (s : State) (k : Nat) (v : Session) : (setSession s k v).ports = s.ports := rfl
@[simp] theorem setSession_join (s : State) (k : Nat) (v : Session) : (setSession s k v).join = s.join := rfl
@[simp] theorem setSession_side (s : State) (k : Nat) (v : Session) : (setSession s k v).side = s.side := rfl
@[simp] theorem setSession_tap (s : State) (k : Nat) (v : Session) : (setSession s k v).tap = s.tap := rfl
@[simp] theorem setSession_out (s : State) (k : Nat) (v : Session) : (setSession s k v).out = s.out := rfl
@[simp] theorem setSession_free (s : State) (k : Nat) (v : Session) : (setSession s k v).free = s.free := rfl
@[simp] theorem setSession_turn (s : State) (k : Nat) (v : Session) : (setSession s k v).turn = s.turn := rfl
@[simp] theorem setSession_spad (s : State) (k : Nat) (v : Session) : (setSession s k v).spad = s.spad := rfl
@[simp] theorem setSession_slots (s : State) (k : Nat) (v : Session) : (setSession s k v).slots = s.slots := rfl
@[simp] theorem setSession_sessions (s : State) (k : Nat) (v : Session) : (setSession s k v).sessions = put s.sessions k v := rfl

/-! ### `setPort` -/

@[simp] theorem setPort_pending (s : State) (n : Nat) (v : Port) : (setPort s n v).pending = s.pending := rfl
@[simp] theorem setPort_rtc (s : State) (n : Nat) (v : Port) : (setPort s n v).rtc = s.rtc := rfl
@[simp] theorem setPort_gptp (s : State) (n : Nat) (v : Port) : (setPort s n v).gptp = s.gptp := rfl
@[simp] theorem setPort_regs (s : State) (n : Nat) (v : Port) : (setPort s n v).regs = s.regs := rfl
@[simp] theorem setPort_heldRegs (s : State) (n : Nat) (v : Port) : (setPort s n v).heldRegs = s.heldRegs := rfl
@[simp] theorem setPort_paths (s : State) (n : Nat) (v : Port) : (setPort s n v).paths = s.paths := rfl
@[simp] theorem setPort_sessions (s : State) (n : Nat) (v : Port) : (setPort s n v).sessions = s.sessions := rfl
@[simp] theorem setPort_openQueue (s : State) (n : Nat) (v : Port) : (setPort s n v).openQueue = s.openQueue := rfl
@[simp] theorem setPort_taken (s : State) (n : Nat) (v : Port) : (setPort s n v).taken = s.taken := rfl
@[simp] theorem setPort_nonces (s : State) (n : Nat) (v : Port) : (setPort s n v).nonces = s.nonces := rfl
@[simp] theorem setPort_auths (s : State) (n : Nat) (v : Port) : (setPort s n v).auths = s.auths := rfl
@[simp] theorem setPort_cbSeen (s : State) (n : Nat) (v : Port) : (setPort s n v).cbSeen = s.cbSeen := rfl
@[simp] theorem setPort_meters (s : State) (n : Nat) (v : Port) : (setPort s n v).meters = s.meters := rfl
@[simp] theorem setPort_eth (s : State) (n : Nat) (v : Port) : (setPort s n v).eth = s.eth := rfl
@[simp] theorem setPort_unsent (s : State) (n : Nat) (v : Port) : (setPort s n v).unsent = s.unsent := rfl
@[simp] theorem setPort_models (s : State) (n : Nat) (v : Port) : (setPort s n v).models = s.models := rfl
@[simp] theorem setPort_modelGens (s : State) (n : Nat) (v : Port) : (setPort s n v).modelGens = s.modelGens := rfl
@[simp] theorem setPort_ctxs (s : State) (n : Nat) (v : Port) : (setPort s n v).ctxs = s.ctxs := rfl
@[simp] theorem setPort_ctxGens (s : State) (n : Nat) (v : Port) : (setPort s n v).ctxGens = s.ctxGens := rfl
@[simp] theorem setPort_hbm (s : State) (n : Nat) (v : Port) : (setPort s n v).hbm = s.hbm := rfl
@[simp] theorem setPort_marks (s : State) (n : Nat) (v : Port) : (setPort s n v).marks = s.marks := rfl
@[simp] theorem setPort_spadMarks (s : State) (n : Nat) (v : Port) : (setPort s n v).spadMarks = s.spadMarks := rfl
@[simp] theorem setPort_otherMarks (s : State) (n : Nat) (v : Port) : (setPort s n v).otherMarks = s.otherMarks := rfl
@[simp] theorem setPort_writeBacks (s : State) (n : Nat) (v : Port) : (setPort s n v).writeBacks = s.writeBacks := rfl
@[simp] theorem setPort_walkers (s : State) (n : Nat) (v : Port) : (setPort s n v).walkers = s.walkers := rfl
@[simp] theorem setPort_moves (s : State) (n : Nat) (v : Port) : (setPort s n v).moves = s.moves := rfl
@[simp] theorem setPort_fills (s : State) (n : Nat) (v : Port) : (setPort s n v).fills = s.fills := rfl
@[simp] theorem setPort_loads (s : State) (n : Nat) (v : Port) : (setPort s n v).loads = s.loads := rfl
@[simp] theorem setPort_saves (s : State) (n : Nat) (v : Port) : (setPort s n v).saves = s.saves := rfl
@[simp] theorem setPort_destroys (s : State) (n : Nat) (v : Port) : (setPort s n v).destroys = s.destroys := rfl
@[simp] theorem setPort_progs (s : State) (n : Nat) (v : Port) : (setPort s n v).progs = s.progs := rfl
@[simp] theorem setPort_drains (s : State) (n : Nat) (v : Port) : (setPort s n v).drains = s.drains := rfl
@[simp] theorem setPort_map (s : State) (n : Nat) (v : Port) : (setPort s n v).map = s.map := rfl
@[simp] theorem setPort_cores (s : State) (n : Nat) (v : Port) : (setPort s n v).cores = s.cores := rfl
@[simp] theorem setPort_faults (s : State) (n : Nat) (v : Port) : (setPort s n v).faults = s.faults := rfl
@[simp] theorem setPort_trail (s : State) (n : Nat) (v : Port) : (setPort s n v).trail = s.trail := rfl
@[simp] theorem setPort_power (s : State) (n : Nat) (v : Port) : (setPort s n v).power = s.power := rfl
@[simp] theorem setPort_sec (s : State) (n : Nat) (v : Port) : (setPort s n v).sec = s.sec := rfl
@[simp] theorem setPort_ent (s : State) (n : Nat) (v : Port) : (setPort s n v).ent = s.ent := rfl
@[simp] theorem setPort_join (s : State) (n : Nat) (v : Port) : (setPort s n v).join = s.join := rfl
@[simp] theorem setPort_side (s : State) (n : Nat) (v : Port) : (setPort s n v).side = s.side := rfl
@[simp] theorem setPort_tap (s : State) (n : Nat) (v : Port) : (setPort s n v).tap = s.tap := rfl
@[simp] theorem setPort_out (s : State) (n : Nat) (v : Port) : (setPort s n v).out = s.out := rfl
@[simp] theorem setPort_free (s : State) (n : Nat) (v : Port) : (setPort s n v).free = s.free := rfl
@[simp] theorem setPort_turn (s : State) (n : Nat) (v : Port) : (setPort s n v).turn = s.turn := rfl
@[simp] theorem setPort_spad (s : State) (n : Nat) (v : Port) : (setPort s n v).spad = s.spad := rfl
@[simp] theorem setPort_slots (s : State) (n : Nat) (v : Port) : (setPort s n v).slots = s.slots := rfl
@[simp] theorem setPort_ports (s : State) (n : Nat) (v : Port) : (setPort s n v).ports = put s.ports n v := rfl

/-! ### `setPath` -/

@[simp] theorem setPath_pending (s : State) (p : Nat) (v : Path) : (setPath s p v).pending = s.pending := rfl
@[simp] theorem setPath_rtc (s : State) (p : Nat) (v : Path) : (setPath s p v).rtc = s.rtc := rfl
@[simp] theorem setPath_gptp (s : State) (p : Nat) (v : Path) : (setPath s p v).gptp = s.gptp := rfl
@[simp] theorem setPath_regs (s : State) (p : Nat) (v : Path) : (setPath s p v).regs = s.regs := rfl
@[simp] theorem setPath_heldRegs (s : State) (p : Nat) (v : Path) : (setPath s p v).heldRegs = s.heldRegs := rfl
@[simp] theorem setPath_sessions (s : State) (p : Nat) (v : Path) : (setPath s p v).sessions = s.sessions := rfl
@[simp] theorem setPath_openQueue (s : State) (p : Nat) (v : Path) : (setPath s p v).openQueue = s.openQueue := rfl
@[simp] theorem setPath_taken (s : State) (p : Nat) (v : Path) : (setPath s p v).taken = s.taken := rfl
@[simp] theorem setPath_nonces (s : State) (p : Nat) (v : Path) : (setPath s p v).nonces = s.nonces := rfl
@[simp] theorem setPath_auths (s : State) (p : Nat) (v : Path) : (setPath s p v).auths = s.auths := rfl
@[simp] theorem setPath_cbSeen (s : State) (p : Nat) (v : Path) : (setPath s p v).cbSeen = s.cbSeen := rfl
@[simp] theorem setPath_meters (s : State) (p : Nat) (v : Path) : (setPath s p v).meters = s.meters := rfl
@[simp] theorem setPath_eth (s : State) (p : Nat) (v : Path) : (setPath s p v).eth = s.eth := rfl
@[simp] theorem setPath_unsent (s : State) (p : Nat) (v : Path) : (setPath s p v).unsent = s.unsent := rfl
@[simp] theorem setPath_models (s : State) (p : Nat) (v : Path) : (setPath s p v).models = s.models := rfl
@[simp] theorem setPath_modelGens (s : State) (p : Nat) (v : Path) : (setPath s p v).modelGens = s.modelGens := rfl
@[simp] theorem setPath_ctxs (s : State) (p : Nat) (v : Path) : (setPath s p v).ctxs = s.ctxs := rfl
@[simp] theorem setPath_ctxGens (s : State) (p : Nat) (v : Path) : (setPath s p v).ctxGens = s.ctxGens := rfl
@[simp] theorem setPath_hbm (s : State) (p : Nat) (v : Path) : (setPath s p v).hbm = s.hbm := rfl
@[simp] theorem setPath_marks (s : State) (p : Nat) (v : Path) : (setPath s p v).marks = s.marks := rfl
@[simp] theorem setPath_spadMarks (s : State) (p : Nat) (v : Path) : (setPath s p v).spadMarks = s.spadMarks := rfl
@[simp] theorem setPath_otherMarks (s : State) (p : Nat) (v : Path) : (setPath s p v).otherMarks = s.otherMarks := rfl
@[simp] theorem setPath_writeBacks (s : State) (p : Nat) (v : Path) : (setPath s p v).writeBacks = s.writeBacks := rfl
@[simp] theorem setPath_walkers (s : State) (p : Nat) (v : Path) : (setPath s p v).walkers = s.walkers := rfl
@[simp] theorem setPath_moves (s : State) (p : Nat) (v : Path) : (setPath s p v).moves = s.moves := rfl
@[simp] theorem setPath_fills (s : State) (p : Nat) (v : Path) : (setPath s p v).fills = s.fills := rfl
@[simp] theorem setPath_loads (s : State) (p : Nat) (v : Path) : (setPath s p v).loads = s.loads := rfl
@[simp] theorem setPath_saves (s : State) (p : Nat) (v : Path) : (setPath s p v).saves = s.saves := rfl
@[simp] theorem setPath_destroys (s : State) (p : Nat) (v : Path) : (setPath s p v).destroys = s.destroys := rfl
@[simp] theorem setPath_progs (s : State) (p : Nat) (v : Path) : (setPath s p v).progs = s.progs := rfl
@[simp] theorem setPath_drains (s : State) (p : Nat) (v : Path) : (setPath s p v).drains = s.drains := rfl
@[simp] theorem setPath_map (s : State) (p : Nat) (v : Path) : (setPath s p v).map = s.map := rfl
@[simp] theorem setPath_cores (s : State) (p : Nat) (v : Path) : (setPath s p v).cores = s.cores := rfl
@[simp] theorem setPath_faults (s : State) (p : Nat) (v : Path) : (setPath s p v).faults = s.faults := rfl
@[simp] theorem setPath_trail (s : State) (p : Nat) (v : Path) : (setPath s p v).trail = s.trail := rfl
@[simp] theorem setPath_power (s : State) (p : Nat) (v : Path) : (setPath s p v).power = s.power := rfl
@[simp] theorem setPath_sec (s : State) (p : Nat) (v : Path) : (setPath s p v).sec = s.sec := rfl
@[simp] theorem setPath_ent (s : State) (p : Nat) (v : Path) : (setPath s p v).ent = s.ent := rfl
@[simp] theorem setPath_ports (s : State) (p : Nat) (v : Path) : (setPath s p v).ports = s.ports := rfl
@[simp] theorem setPath_join (s : State) (p : Nat) (v : Path) : (setPath s p v).join = s.join := rfl
@[simp] theorem setPath_side (s : State) (p : Nat) (v : Path) : (setPath s p v).side = s.side := rfl
@[simp] theorem setPath_tap (s : State) (p : Nat) (v : Path) : (setPath s p v).tap = s.tap := rfl
@[simp] theorem setPath_out (s : State) (p : Nat) (v : Path) : (setPath s p v).out = s.out := rfl
@[simp] theorem setPath_free (s : State) (p : Nat) (v : Path) : (setPath s p v).free = s.free := rfl
@[simp] theorem setPath_turn (s : State) (p : Nat) (v : Path) : (setPath s p v).turn = s.turn := rfl
@[simp] theorem setPath_spad (s : State) (p : Nat) (v : Path) : (setPath s p v).spad = s.spad := rfl
@[simp] theorem setPath_slots (s : State) (p : Nat) (v : Path) : (setPath s p v).slots = s.slots := rfl
@[simp] theorem setPath_paths (s : State) (p : Nat) (v : Path) : (setPath s p v).paths = put s.paths p v := rfl

/-! ### `setCtx` -/

@[simp] theorem setCtx_pending (s : State) (i : Nat) (c : Ctx) : (setCtx s i c).pending = s.pending := rfl
@[simp] theorem setCtx_rtc (s : State) (i : Nat) (c : Ctx) : (setCtx s i c).rtc = s.rtc := rfl
@[simp] theorem setCtx_gptp (s : State) (i : Nat) (c : Ctx) : (setCtx s i c).gptp = s.gptp := rfl
@[simp] theorem setCtx_regs (s : State) (i : Nat) (c : Ctx) : (setCtx s i c).regs = s.regs := rfl
@[simp] theorem setCtx_heldRegs (s : State) (i : Nat) (c : Ctx) : (setCtx s i c).heldRegs = s.heldRegs := rfl
@[simp] theorem setCtx_paths (s : State) (i : Nat) (c : Ctx) : (setCtx s i c).paths = s.paths := rfl
@[simp] theorem setCtx_sessions (s : State) (i : Nat) (c : Ctx) : (setCtx s i c).sessions = s.sessions := rfl
@[simp] theorem setCtx_openQueue (s : State) (i : Nat) (c : Ctx) : (setCtx s i c).openQueue = s.openQueue := rfl
@[simp] theorem setCtx_taken (s : State) (i : Nat) (c : Ctx) : (setCtx s i c).taken = s.taken := rfl
@[simp] theorem setCtx_nonces (s : State) (i : Nat) (c : Ctx) : (setCtx s i c).nonces = s.nonces := rfl
@[simp] theorem setCtx_auths (s : State) (i : Nat) (c : Ctx) : (setCtx s i c).auths = s.auths := rfl
@[simp] theorem setCtx_cbSeen (s : State) (i : Nat) (c : Ctx) : (setCtx s i c).cbSeen = s.cbSeen := rfl
@[simp] theorem setCtx_meters (s : State) (i : Nat) (c : Ctx) : (setCtx s i c).meters = s.meters := rfl
@[simp] theorem setCtx_eth (s : State) (i : Nat) (c : Ctx) : (setCtx s i c).eth = s.eth := rfl
@[simp] theorem setCtx_unsent (s : State) (i : Nat) (c : Ctx) : (setCtx s i c).unsent = s.unsent := rfl
@[simp] theorem setCtx_models (s : State) (i : Nat) (c : Ctx) : (setCtx s i c).models = s.models := rfl
@[simp] theorem setCtx_modelGens (s : State) (i : Nat) (c : Ctx) : (setCtx s i c).modelGens = s.modelGens := rfl
@[simp] theorem setCtx_ctxGens (s : State) (i : Nat) (c : Ctx) : (setCtx s i c).ctxGens = s.ctxGens := rfl
@[simp] theorem setCtx_hbm (s : State) (i : Nat) (c : Ctx) : (setCtx s i c).hbm = s.hbm := rfl
@[simp] theorem setCtx_marks (s : State) (i : Nat) (c : Ctx) : (setCtx s i c).marks = s.marks := rfl
@[simp] theorem setCtx_spadMarks (s : State) (i : Nat) (c : Ctx) : (setCtx s i c).spadMarks = s.spadMarks := rfl
@[simp] theorem setCtx_otherMarks (s : State) (i : Nat) (c : Ctx) : (setCtx s i c).otherMarks = s.otherMarks := rfl
@[simp] theorem setCtx_writeBacks (s : State) (i : Nat) (c : Ctx) : (setCtx s i c).writeBacks = s.writeBacks := rfl
@[simp] theorem setCtx_walkers (s : State) (i : Nat) (c : Ctx) : (setCtx s i c).walkers = s.walkers := rfl
@[simp] theorem setCtx_moves (s : State) (i : Nat) (c : Ctx) : (setCtx s i c).moves = s.moves := rfl
@[simp] theorem setCtx_fills (s : State) (i : Nat) (c : Ctx) : (setCtx s i c).fills = s.fills := rfl
@[simp] theorem setCtx_loads (s : State) (i : Nat) (c : Ctx) : (setCtx s i c).loads = s.loads := rfl
@[simp] theorem setCtx_saves (s : State) (i : Nat) (c : Ctx) : (setCtx s i c).saves = s.saves := rfl
@[simp] theorem setCtx_destroys (s : State) (i : Nat) (c : Ctx) : (setCtx s i c).destroys = s.destroys := rfl
@[simp] theorem setCtx_progs (s : State) (i : Nat) (c : Ctx) : (setCtx s i c).progs = s.progs := rfl
@[simp] theorem setCtx_drains (s : State) (i : Nat) (c : Ctx) : (setCtx s i c).drains = s.drains := rfl
@[simp] theorem setCtx_map (s : State) (i : Nat) (c : Ctx) : (setCtx s i c).map = s.map := rfl
@[simp] theorem setCtx_cores (s : State) (i : Nat) (c : Ctx) : (setCtx s i c).cores = s.cores := rfl
@[simp] theorem setCtx_faults (s : State) (i : Nat) (c : Ctx) : (setCtx s i c).faults = s.faults := rfl
@[simp] theorem setCtx_trail (s : State) (i : Nat) (c : Ctx) : (setCtx s i c).trail = s.trail := rfl
@[simp] theorem setCtx_power (s : State) (i : Nat) (c : Ctx) : (setCtx s i c).power = s.power := rfl
@[simp] theorem setCtx_sec (s : State) (i : Nat) (c : Ctx) : (setCtx s i c).sec = s.sec := rfl
@[simp] theorem setCtx_ent (s : State) (i : Nat) (c : Ctx) : (setCtx s i c).ent = s.ent := rfl
@[simp] theorem setCtx_ports (s : State) (i : Nat) (c : Ctx) : (setCtx s i c).ports = s.ports := rfl
@[simp] theorem setCtx_join (s : State) (i : Nat) (c : Ctx) : (setCtx s i c).join = s.join := rfl
@[simp] theorem setCtx_side (s : State) (i : Nat) (c : Ctx) : (setCtx s i c).side = s.side := rfl
@[simp] theorem setCtx_tap (s : State) (i : Nat) (c : Ctx) : (setCtx s i c).tap = s.tap := rfl
@[simp] theorem setCtx_out (s : State) (i : Nat) (c : Ctx) : (setCtx s i c).out = s.out := rfl
@[simp] theorem setCtx_free (s : State) (i : Nat) (c : Ctx) : (setCtx s i c).free = s.free := rfl
@[simp] theorem setCtx_turn (s : State) (i : Nat) (c : Ctx) : (setCtx s i c).turn = s.turn := rfl
@[simp] theorem setCtx_spad (s : State) (i : Nat) (c : Ctx) : (setCtx s i c).spad = s.spad := rfl
@[simp] theorem setCtx_slots (s : State) (i : Nat) (c : Ctx) : (setCtx s i c).slots = s.slots := rfl
@[simp] theorem setCtx_ctxs (s : State) (i : Nat) (c : Ctx) : (setCtx s i c).ctxs = put s.ctxs i c := rfl

/-! ### `modCtx` -/

@[simp] theorem modCtx_pending (s : State) (i : Nat) (f : Ctx → Ctx) : (modCtx s i f).pending = s.pending := rfl
@[simp] theorem modCtx_rtc (s : State) (i : Nat) (f : Ctx → Ctx) : (modCtx s i f).rtc = s.rtc := rfl
@[simp] theorem modCtx_gptp (s : State) (i : Nat) (f : Ctx → Ctx) : (modCtx s i f).gptp = s.gptp := rfl
@[simp] theorem modCtx_regs (s : State) (i : Nat) (f : Ctx → Ctx) : (modCtx s i f).regs = s.regs := rfl
@[simp] theorem modCtx_heldRegs (s : State) (i : Nat) (f : Ctx → Ctx) : (modCtx s i f).heldRegs = s.heldRegs := rfl
@[simp] theorem modCtx_paths (s : State) (i : Nat) (f : Ctx → Ctx) : (modCtx s i f).paths = s.paths := rfl
@[simp] theorem modCtx_sessions (s : State) (i : Nat) (f : Ctx → Ctx) : (modCtx s i f).sessions = s.sessions := rfl
@[simp] theorem modCtx_openQueue (s : State) (i : Nat) (f : Ctx → Ctx) : (modCtx s i f).openQueue = s.openQueue := rfl
@[simp] theorem modCtx_taken (s : State) (i : Nat) (f : Ctx → Ctx) : (modCtx s i f).taken = s.taken := rfl
@[simp] theorem modCtx_nonces (s : State) (i : Nat) (f : Ctx → Ctx) : (modCtx s i f).nonces = s.nonces := rfl
@[simp] theorem modCtx_auths (s : State) (i : Nat) (f : Ctx → Ctx) : (modCtx s i f).auths = s.auths := rfl
@[simp] theorem modCtx_cbSeen (s : State) (i : Nat) (f : Ctx → Ctx) : (modCtx s i f).cbSeen = s.cbSeen := rfl
@[simp] theorem modCtx_meters (s : State) (i : Nat) (f : Ctx → Ctx) : (modCtx s i f).meters = s.meters := rfl
@[simp] theorem modCtx_eth (s : State) (i : Nat) (f : Ctx → Ctx) : (modCtx s i f).eth = s.eth := rfl
@[simp] theorem modCtx_unsent (s : State) (i : Nat) (f : Ctx → Ctx) : (modCtx s i f).unsent = s.unsent := rfl
@[simp] theorem modCtx_models (s : State) (i : Nat) (f : Ctx → Ctx) : (modCtx s i f).models = s.models := rfl
@[simp] theorem modCtx_modelGens (s : State) (i : Nat) (f : Ctx → Ctx) : (modCtx s i f).modelGens = s.modelGens := rfl
@[simp] theorem modCtx_ctxGens (s : State) (i : Nat) (f : Ctx → Ctx) : (modCtx s i f).ctxGens = s.ctxGens := rfl
@[simp] theorem modCtx_hbm (s : State) (i : Nat) (f : Ctx → Ctx) : (modCtx s i f).hbm = s.hbm := rfl
@[simp] theorem modCtx_marks (s : State) (i : Nat) (f : Ctx → Ctx) : (modCtx s i f).marks = s.marks := rfl
@[simp] theorem modCtx_spadMarks (s : State) (i : Nat) (f : Ctx → Ctx) : (modCtx s i f).spadMarks = s.spadMarks := rfl
@[simp] theorem modCtx_otherMarks (s : State) (i : Nat) (f : Ctx → Ctx) : (modCtx s i f).otherMarks = s.otherMarks := rfl
@[simp] theorem modCtx_writeBacks (s : State) (i : Nat) (f : Ctx → Ctx) : (modCtx s i f).writeBacks = s.writeBacks := rfl
@[simp] theorem modCtx_walkers (s : State) (i : Nat) (f : Ctx → Ctx) : (modCtx s i f).walkers = s.walkers := rfl
@[simp] theorem modCtx_moves (s : State) (i : Nat) (f : Ctx → Ctx) : (modCtx s i f).moves = s.moves := rfl
@[simp] theorem modCtx_fills (s : State) (i : Nat) (f : Ctx → Ctx) : (modCtx s i f).fills = s.fills := rfl
@[simp] theorem modCtx_loads (s : State) (i : Nat) (f : Ctx → Ctx) : (modCtx s i f).loads = s.loads := rfl
@[simp] theorem modCtx_saves (s : State) (i : Nat) (f : Ctx → Ctx) : (modCtx s i f).saves = s.saves := rfl
@[simp] theorem modCtx_destroys (s : State) (i : Nat) (f : Ctx → Ctx) : (modCtx s i f).destroys = s.destroys := rfl
@[simp] theorem modCtx_progs (s : State) (i : Nat) (f : Ctx → Ctx) : (modCtx s i f).progs = s.progs := rfl
@[simp] theorem modCtx_drains (s : State) (i : Nat) (f : Ctx → Ctx) : (modCtx s i f).drains = s.drains := rfl
@[simp] theorem modCtx_map (s : State) (i : Nat) (f : Ctx → Ctx) : (modCtx s i f).map = s.map := rfl
@[simp] theorem modCtx_cores (s : State) (i : Nat) (f : Ctx → Ctx) : (modCtx s i f).cores = s.cores := rfl
@[simp] theorem modCtx_faults (s : State) (i : Nat) (f : Ctx → Ctx) : (modCtx s i f).faults = s.faults := rfl
@[simp] theorem modCtx_trail (s : State) (i : Nat) (f : Ctx → Ctx) : (modCtx s i f).trail = s.trail := rfl
@[simp] theorem modCtx_power (s : State) (i : Nat) (f : Ctx → Ctx) : (modCtx s i f).power = s.power := rfl
@[simp] theorem modCtx_sec (s : State) (i : Nat) (f : Ctx → Ctx) : (modCtx s i f).sec = s.sec := rfl
@[simp] theorem modCtx_ent (s : State) (i : Nat) (f : Ctx → Ctx) : (modCtx s i f).ent = s.ent := rfl
@[simp] theorem modCtx_ports (s : State) (i : Nat) (f : Ctx → Ctx) : (modCtx s i f).ports = s.ports := rfl
@[simp] theorem modCtx_join (s : State) (i : Nat) (f : Ctx → Ctx) : (modCtx s i f).join = s.join := rfl
@[simp] theorem modCtx_side (s : State) (i : Nat) (f : Ctx → Ctx) : (modCtx s i f).side = s.side := rfl
@[simp] theorem modCtx_tap (s : State) (i : Nat) (f : Ctx → Ctx) : (modCtx s i f).tap = s.tap := rfl
@[simp] theorem modCtx_out (s : State) (i : Nat) (f : Ctx → Ctx) : (modCtx s i f).out = s.out := rfl
@[simp] theorem modCtx_free (s : State) (i : Nat) (f : Ctx → Ctx) : (modCtx s i f).free = s.free := rfl
@[simp] theorem modCtx_turn (s : State) (i : Nat) (f : Ctx → Ctx) : (modCtx s i f).turn = s.turn := rfl
@[simp] theorem modCtx_spad (s : State) (i : Nat) (f : Ctx → Ctx) : (modCtx s i f).spad = s.spad := rfl
@[simp] theorem modCtx_slots (s : State) (i : Nat) (f : Ctx → Ctx) : (modCtx s i f).slots = s.slots := rfl
@[simp] theorem modCtx_ctxs (s : State) (i : Nat) (f : Ctx → Ctx) : (modCtx s i f).ctxs = adjust s.ctxs i f := rfl

/-! ### `modCore` -/

@[simp] theorem modCore_pending (s : State) (p : Nat) (f : Core → Core) : (modCore s p f).pending = s.pending := rfl
@[simp] theorem modCore_rtc (s : State) (p : Nat) (f : Core → Core) : (modCore s p f).rtc = s.rtc := rfl
@[simp] theorem modCore_gptp (s : State) (p : Nat) (f : Core → Core) : (modCore s p f).gptp = s.gptp := rfl
@[simp] theorem modCore_regs (s : State) (p : Nat) (f : Core → Core) : (modCore s p f).regs = s.regs := rfl
@[simp] theorem modCore_heldRegs (s : State) (p : Nat) (f : Core → Core) : (modCore s p f).heldRegs = s.heldRegs := rfl
@[simp] theorem modCore_paths (s : State) (p : Nat) (f : Core → Core) : (modCore s p f).paths = s.paths := rfl
@[simp] theorem modCore_sessions (s : State) (p : Nat) (f : Core → Core) : (modCore s p f).sessions = s.sessions := rfl
@[simp] theorem modCore_openQueue (s : State) (p : Nat) (f : Core → Core) : (modCore s p f).openQueue = s.openQueue := rfl
@[simp] theorem modCore_taken (s : State) (p : Nat) (f : Core → Core) : (modCore s p f).taken = s.taken := rfl
@[simp] theorem modCore_nonces (s : State) (p : Nat) (f : Core → Core) : (modCore s p f).nonces = s.nonces := rfl
@[simp] theorem modCore_auths (s : State) (p : Nat) (f : Core → Core) : (modCore s p f).auths = s.auths := rfl
@[simp] theorem modCore_cbSeen (s : State) (p : Nat) (f : Core → Core) : (modCore s p f).cbSeen = s.cbSeen := rfl
@[simp] theorem modCore_meters (s : State) (p : Nat) (f : Core → Core) : (modCore s p f).meters = s.meters := rfl
@[simp] theorem modCore_eth (s : State) (p : Nat) (f : Core → Core) : (modCore s p f).eth = s.eth := rfl
@[simp] theorem modCore_unsent (s : State) (p : Nat) (f : Core → Core) : (modCore s p f).unsent = s.unsent := rfl
@[simp] theorem modCore_models (s : State) (p : Nat) (f : Core → Core) : (modCore s p f).models = s.models := rfl
@[simp] theorem modCore_modelGens (s : State) (p : Nat) (f : Core → Core) : (modCore s p f).modelGens = s.modelGens := rfl
@[simp] theorem modCore_ctxs (s : State) (p : Nat) (f : Core → Core) : (modCore s p f).ctxs = s.ctxs := rfl
@[simp] theorem modCore_ctxGens (s : State) (p : Nat) (f : Core → Core) : (modCore s p f).ctxGens = s.ctxGens := rfl
@[simp] theorem modCore_hbm (s : State) (p : Nat) (f : Core → Core) : (modCore s p f).hbm = s.hbm := rfl
@[simp] theorem modCore_marks (s : State) (p : Nat) (f : Core → Core) : (modCore s p f).marks = s.marks := rfl
@[simp] theorem modCore_spadMarks (s : State) (p : Nat) (f : Core → Core) : (modCore s p f).spadMarks = s.spadMarks := rfl
@[simp] theorem modCore_otherMarks (s : State) (p : Nat) (f : Core → Core) : (modCore s p f).otherMarks = s.otherMarks := rfl
@[simp] theorem modCore_writeBacks (s : State) (p : Nat) (f : Core → Core) : (modCore s p f).writeBacks = s.writeBacks := rfl
@[simp] theorem modCore_walkers (s : State) (p : Nat) (f : Core → Core) : (modCore s p f).walkers = s.walkers := rfl
@[simp] theorem modCore_moves (s : State) (p : Nat) (f : Core → Core) : (modCore s p f).moves = s.moves := rfl
@[simp] theorem modCore_fills (s : State) (p : Nat) (f : Core → Core) : (modCore s p f).fills = s.fills := rfl
@[simp] theorem modCore_loads (s : State) (p : Nat) (f : Core → Core) : (modCore s p f).loads = s.loads := rfl
@[simp] theorem modCore_saves (s : State) (p : Nat) (f : Core → Core) : (modCore s p f).saves = s.saves := rfl
@[simp] theorem modCore_destroys (s : State) (p : Nat) (f : Core → Core) : (modCore s p f).destroys = s.destroys := rfl
@[simp] theorem modCore_progs (s : State) (p : Nat) (f : Core → Core) : (modCore s p f).progs = s.progs := rfl
@[simp] theorem modCore_drains (s : State) (p : Nat) (f : Core → Core) : (modCore s p f).drains = s.drains := rfl
@[simp] theorem modCore_map (s : State) (p : Nat) (f : Core → Core) : (modCore s p f).map = s.map := rfl
@[simp] theorem modCore_faults (s : State) (p : Nat) (f : Core → Core) : (modCore s p f).faults = s.faults := rfl
@[simp] theorem modCore_trail (s : State) (p : Nat) (f : Core → Core) : (modCore s p f).trail = s.trail := rfl
@[simp] theorem modCore_power (s : State) (p : Nat) (f : Core → Core) : (modCore s p f).power = s.power := rfl
@[simp] theorem modCore_sec (s : State) (p : Nat) (f : Core → Core) : (modCore s p f).sec = s.sec := rfl
@[simp] theorem modCore_ent (s : State) (p : Nat) (f : Core → Core) : (modCore s p f).ent = s.ent := rfl
@[simp] theorem modCore_ports (s : State) (p : Nat) (f : Core → Core) : (modCore s p f).ports = s.ports := rfl
@[simp] theorem modCore_join (s : State) (p : Nat) (f : Core → Core) : (modCore s p f).join = s.join := rfl
@[simp] theorem modCore_side (s : State) (p : Nat) (f : Core → Core) : (modCore s p f).side = s.side := rfl
@[simp] theorem modCore_tap (s : State) (p : Nat) (f : Core → Core) : (modCore s p f).tap = s.tap := rfl
@[simp] theorem modCore_out (s : State) (p : Nat) (f : Core → Core) : (modCore s p f).out = s.out := rfl
@[simp] theorem modCore_free (s : State) (p : Nat) (f : Core → Core) : (modCore s p f).free = s.free := rfl
@[simp] theorem modCore_turn (s : State) (p : Nat) (f : Core → Core) : (modCore s p f).turn = s.turn := rfl
@[simp] theorem modCore_spad (s : State) (p : Nat) (f : Core → Core) : (modCore s p f).spad = s.spad := rfl
@[simp] theorem modCore_slots (s : State) (p : Nat) (f : Core → Core) : (modCore s p f).slots = s.slots := rfl
@[simp] theorem modCore_cores (s : State) (p : Nat) (f : Core → Core) : (modCore s p f).cores = put s.cores p (f (coreState s p)) := rfl

/-! ### `modEnt` -/

@[simp] theorem modEnt_pending (s : State) (f : Entropy → Entropy) : (modEnt s f).pending = s.pending := rfl
@[simp] theorem modEnt_rtc (s : State) (f : Entropy → Entropy) : (modEnt s f).rtc = s.rtc := rfl
@[simp] theorem modEnt_gptp (s : State) (f : Entropy → Entropy) : (modEnt s f).gptp = s.gptp := rfl
@[simp] theorem modEnt_regs (s : State) (f : Entropy → Entropy) : (modEnt s f).regs = s.regs := rfl
@[simp] theorem modEnt_heldRegs (s : State) (f : Entropy → Entropy) : (modEnt s f).heldRegs = s.heldRegs := rfl
@[simp] theorem modEnt_paths (s : State) (f : Entropy → Entropy) : (modEnt s f).paths = s.paths := rfl
@[simp] theorem modEnt_sessions (s : State) (f : Entropy → Entropy) : (modEnt s f).sessions = s.sessions := rfl
@[simp] theorem modEnt_openQueue (s : State) (f : Entropy → Entropy) : (modEnt s f).openQueue = s.openQueue := rfl
@[simp] theorem modEnt_taken (s : State) (f : Entropy → Entropy) : (modEnt s f).taken = s.taken := rfl
@[simp] theorem modEnt_nonces (s : State) (f : Entropy → Entropy) : (modEnt s f).nonces = s.nonces := rfl
@[simp] theorem modEnt_auths (s : State) (f : Entropy → Entropy) : (modEnt s f).auths = s.auths := rfl
@[simp] theorem modEnt_cbSeen (s : State) (f : Entropy → Entropy) : (modEnt s f).cbSeen = s.cbSeen := rfl
@[simp] theorem modEnt_meters (s : State) (f : Entropy → Entropy) : (modEnt s f).meters = s.meters := rfl
@[simp] theorem modEnt_eth (s : State) (f : Entropy → Entropy) : (modEnt s f).eth = s.eth := rfl
@[simp] theorem modEnt_unsent (s : State) (f : Entropy → Entropy) : (modEnt s f).unsent = s.unsent := rfl
@[simp] theorem modEnt_models (s : State) (f : Entropy → Entropy) : (modEnt s f).models = s.models := rfl
@[simp] theorem modEnt_modelGens (s : State) (f : Entropy → Entropy) : (modEnt s f).modelGens = s.modelGens := rfl
@[simp] theorem modEnt_ctxs (s : State) (f : Entropy → Entropy) : (modEnt s f).ctxs = s.ctxs := rfl
@[simp] theorem modEnt_ctxGens (s : State) (f : Entropy → Entropy) : (modEnt s f).ctxGens = s.ctxGens := rfl
@[simp] theorem modEnt_hbm (s : State) (f : Entropy → Entropy) : (modEnt s f).hbm = s.hbm := rfl
@[simp] theorem modEnt_marks (s : State) (f : Entropy → Entropy) : (modEnt s f).marks = s.marks := rfl
@[simp] theorem modEnt_spadMarks (s : State) (f : Entropy → Entropy) : (modEnt s f).spadMarks = s.spadMarks := rfl
@[simp] theorem modEnt_otherMarks (s : State) (f : Entropy → Entropy) : (modEnt s f).otherMarks = s.otherMarks := rfl
@[simp] theorem modEnt_writeBacks (s : State) (f : Entropy → Entropy) : (modEnt s f).writeBacks = s.writeBacks := rfl
@[simp] theorem modEnt_walkers (s : State) (f : Entropy → Entropy) : (modEnt s f).walkers = s.walkers := rfl
@[simp] theorem modEnt_moves (s : State) (f : Entropy → Entropy) : (modEnt s f).moves = s.moves := rfl
@[simp] theorem modEnt_fills (s : State) (f : Entropy → Entropy) : (modEnt s f).fills = s.fills := rfl
@[simp] theorem modEnt_loads (s : State) (f : Entropy → Entropy) : (modEnt s f).loads = s.loads := rfl
@[simp] theorem modEnt_saves (s : State) (f : Entropy → Entropy) : (modEnt s f).saves = s.saves := rfl
@[simp] theorem modEnt_destroys (s : State) (f : Entropy → Entropy) : (modEnt s f).destroys = s.destroys := rfl
@[simp] theorem modEnt_progs (s : State) (f : Entropy → Entropy) : (modEnt s f).progs = s.progs := rfl
@[simp] theorem modEnt_drains (s : State) (f : Entropy → Entropy) : (modEnt s f).drains = s.drains := rfl
@[simp] theorem modEnt_map (s : State) (f : Entropy → Entropy) : (modEnt s f).map = s.map := rfl
@[simp] theorem modEnt_cores (s : State) (f : Entropy → Entropy) : (modEnt s f).cores = s.cores := rfl
@[simp] theorem modEnt_faults (s : State) (f : Entropy → Entropy) : (modEnt s f).faults = s.faults := rfl
@[simp] theorem modEnt_trail (s : State) (f : Entropy → Entropy) : (modEnt s f).trail = s.trail := rfl
@[simp] theorem modEnt_power (s : State) (f : Entropy → Entropy) : (modEnt s f).power = s.power := rfl
@[simp] theorem modEnt_sec (s : State) (f : Entropy → Entropy) : (modEnt s f).sec = s.sec := rfl
@[simp] theorem modEnt_ports (s : State) (f : Entropy → Entropy) : (modEnt s f).ports = s.ports := rfl
@[simp] theorem modEnt_join (s : State) (f : Entropy → Entropy) : (modEnt s f).join = s.join := rfl
@[simp] theorem modEnt_side (s : State) (f : Entropy → Entropy) : (modEnt s f).side = s.side := rfl
@[simp] theorem modEnt_tap (s : State) (f : Entropy → Entropy) : (modEnt s f).tap = s.tap := rfl
@[simp] theorem modEnt_out (s : State) (f : Entropy → Entropy) : (modEnt s f).out = s.out := rfl
@[simp] theorem modEnt_free (s : State) (f : Entropy → Entropy) : (modEnt s f).free = s.free := rfl
@[simp] theorem modEnt_turn (s : State) (f : Entropy → Entropy) : (modEnt s f).turn = s.turn := rfl
@[simp] theorem modEnt_spad (s : State) (f : Entropy → Entropy) : (modEnt s f).spad = s.spad := rfl
@[simp] theorem modEnt_slots (s : State) (f : Entropy → Entropy) : (modEnt s f).slots = s.slots := rfl
@[simp] theorem modEnt_ent (s : State) (f : Entropy → Entropy) : (modEnt s f).ent = f s.ent := rfl

/-! ### `modSession` -/

@[simp] theorem modSession_pending (s : State) (k : Nat) (f : Session → Session) : (modSession s k f).pending = s.pending := rfl
@[simp] theorem modSession_rtc (s : State) (k : Nat) (f : Session → Session) : (modSession s k f).rtc = s.rtc := rfl
@[simp] theorem modSession_gptp (s : State) (k : Nat) (f : Session → Session) : (modSession s k f).gptp = s.gptp := rfl
@[simp] theorem modSession_regs (s : State) (k : Nat) (f : Session → Session) : (modSession s k f).regs = s.regs := rfl
@[simp] theorem modSession_heldRegs (s : State) (k : Nat) (f : Session → Session) : (modSession s k f).heldRegs = s.heldRegs := rfl
@[simp] theorem modSession_paths (s : State) (k : Nat) (f : Session → Session) : (modSession s k f).paths = s.paths := rfl
@[simp] theorem modSession_openQueue (s : State) (k : Nat) (f : Session → Session) : (modSession s k f).openQueue = s.openQueue := rfl
@[simp] theorem modSession_taken (s : State) (k : Nat) (f : Session → Session) : (modSession s k f).taken = s.taken := rfl
@[simp] theorem modSession_nonces (s : State) (k : Nat) (f : Session → Session) : (modSession s k f).nonces = s.nonces := rfl
@[simp] theorem modSession_auths (s : State) (k : Nat) (f : Session → Session) : (modSession s k f).auths = s.auths := rfl
@[simp] theorem modSession_cbSeen (s : State) (k : Nat) (f : Session → Session) : (modSession s k f).cbSeen = s.cbSeen := rfl
@[simp] theorem modSession_meters (s : State) (k : Nat) (f : Session → Session) : (modSession s k f).meters = s.meters := rfl
@[simp] theorem modSession_eth (s : State) (k : Nat) (f : Session → Session) : (modSession s k f).eth = s.eth := rfl
@[simp] theorem modSession_unsent (s : State) (k : Nat) (f : Session → Session) : (modSession s k f).unsent = s.unsent := rfl
@[simp] theorem modSession_models (s : State) (k : Nat) (f : Session → Session) : (modSession s k f).models = s.models := rfl
@[simp] theorem modSession_modelGens (s : State) (k : Nat) (f : Session → Session) : (modSession s k f).modelGens = s.modelGens := rfl
@[simp] theorem modSession_ctxs (s : State) (k : Nat) (f : Session → Session) : (modSession s k f).ctxs = s.ctxs := rfl
@[simp] theorem modSession_ctxGens (s : State) (k : Nat) (f : Session → Session) : (modSession s k f).ctxGens = s.ctxGens := rfl
@[simp] theorem modSession_hbm (s : State) (k : Nat) (f : Session → Session) : (modSession s k f).hbm = s.hbm := rfl
@[simp] theorem modSession_marks (s : State) (k : Nat) (f : Session → Session) : (modSession s k f).marks = s.marks := rfl
@[simp] theorem modSession_spadMarks (s : State) (k : Nat) (f : Session → Session) : (modSession s k f).spadMarks = s.spadMarks := rfl
@[simp] theorem modSession_otherMarks (s : State) (k : Nat) (f : Session → Session) : (modSession s k f).otherMarks = s.otherMarks := rfl
@[simp] theorem modSession_writeBacks (s : State) (k : Nat) (f : Session → Session) : (modSession s k f).writeBacks = s.writeBacks := rfl
@[simp] theorem modSession_walkers (s : State) (k : Nat) (f : Session → Session) : (modSession s k f).walkers = s.walkers := rfl
@[simp] theorem modSession_moves (s : State) (k : Nat) (f : Session → Session) : (modSession s k f).moves = s.moves := rfl
@[simp] theorem modSession_fills (s : State) (k : Nat) (f : Session → Session) : (modSession s k f).fills = s.fills := rfl
@[simp] theorem modSession_loads (s : State) (k : Nat) (f : Session → Session) : (modSession s k f).loads = s.loads := rfl
@[simp] theorem modSession_saves (s : State) (k : Nat) (f : Session → Session) : (modSession s k f).saves = s.saves := rfl
@[simp] theorem modSession_destroys (s : State) (k : Nat) (f : Session → Session) : (modSession s k f).destroys = s.destroys := rfl
@[simp] theorem modSession_progs (s : State) (k : Nat) (f : Session → Session) : (modSession s k f).progs = s.progs := rfl
@[simp] theorem modSession_drains (s : State) (k : Nat) (f : Session → Session) : (modSession s k f).drains = s.drains := rfl
@[simp] theorem modSession_map (s : State) (k : Nat) (f : Session → Session) : (modSession s k f).map = s.map := rfl
@[simp] theorem modSession_cores (s : State) (k : Nat) (f : Session → Session) : (modSession s k f).cores = s.cores := rfl
@[simp] theorem modSession_faults (s : State) (k : Nat) (f : Session → Session) : (modSession s k f).faults = s.faults := rfl
@[simp] theorem modSession_trail (s : State) (k : Nat) (f : Session → Session) : (modSession s k f).trail = s.trail := rfl
@[simp] theorem modSession_power (s : State) (k : Nat) (f : Session → Session) : (modSession s k f).power = s.power := rfl
@[simp] theorem modSession_sec (s : State) (k : Nat) (f : Session → Session) : (modSession s k f).sec = s.sec := rfl
@[simp] theorem modSession_ent (s : State) (k : Nat) (f : Session → Session) : (modSession s k f).ent = s.ent := rfl
@[simp] theorem modSession_ports (s : State) (k : Nat) (f : Session → Session) : (modSession s k f).ports = s.ports := rfl
@[simp] theorem modSession_join (s : State) (k : Nat) (f : Session → Session) : (modSession s k f).join = s.join := rfl
@[simp] theorem modSession_side (s : State) (k : Nat) (f : Session → Session) : (modSession s k f).side = s.side := rfl
@[simp] theorem modSession_tap (s : State) (k : Nat) (f : Session → Session) : (modSession s k f).tap = s.tap := rfl
@[simp] theorem modSession_out (s : State) (k : Nat) (f : Session → Session) : (modSession s k f).out = s.out := rfl
@[simp] theorem modSession_free (s : State) (k : Nat) (f : Session → Session) : (modSession s k f).free = s.free := rfl
@[simp] theorem modSession_turn (s : State) (k : Nat) (f : Session → Session) : (modSession s k f).turn = s.turn := rfl
@[simp] theorem modSession_spad (s : State) (k : Nat) (f : Session → Session) : (modSession s k f).spad = s.spad := rfl
@[simp] theorem modSession_slots (s : State) (k : Nat) (f : Session → Session) : (modSession s k f).slots = s.slots := rfl
@[simp] theorem modSession_sessions (s : State) (k : Nat) (f : Session → Session) : (modSession s k f).sessions = put s.sessions k (f (session s k)) := rfl

/-! ### `modPort` -/

@[simp] theorem modPort_pending (s : State) (n : Nat) (f : Port → Port) : (modPort s n f).pending = s.pending := rfl
@[simp] theorem modPort_rtc (s : State) (n : Nat) (f : Port → Port) : (modPort s n f).rtc = s.rtc := rfl
@[simp] theorem modPort_gptp (s : State) (n : Nat) (f : Port → Port) : (modPort s n f).gptp = s.gptp := rfl
@[simp] theorem modPort_regs (s : State) (n : Nat) (f : Port → Port) : (modPort s n f).regs = s.regs := rfl
@[simp] theorem modPort_heldRegs (s : State) (n : Nat) (f : Port → Port) : (modPort s n f).heldRegs = s.heldRegs := rfl
@[simp] theorem modPort_paths (s : State) (n : Nat) (f : Port → Port) : (modPort s n f).paths = s.paths := rfl
@[simp] theorem modPort_sessions (s : State) (n : Nat) (f : Port → Port) : (modPort s n f).sessions = s.sessions := rfl
@[simp] theorem modPort_openQueue (s : State) (n : Nat) (f : Port → Port) : (modPort s n f).openQueue = s.openQueue := rfl
@[simp] theorem modPort_taken (s : State) (n : Nat) (f : Port → Port) : (modPort s n f).taken = s.taken := rfl
@[simp] theorem modPort_nonces (s : State) (n : Nat) (f : Port → Port) : (modPort s n f).nonces = s.nonces := rfl
@[simp] theorem modPort_auths (s : State) (n : Nat) (f : Port → Port) : (modPort s n f).auths = s.auths := rfl
@[simp] theorem modPort_cbSeen (s : State) (n : Nat) (f : Port → Port) : (modPort s n f).cbSeen = s.cbSeen := rfl
@[simp] theorem modPort_meters (s : State) (n : Nat) (f : Port → Port) : (modPort s n f).meters = s.meters := rfl
@[simp] theorem modPort_eth (s : State) (n : Nat) (f : Port → Port) : (modPort s n f).eth = s.eth := rfl
@[simp] theorem modPort_unsent (s : State) (n : Nat) (f : Port → Port) : (modPort s n f).unsent = s.unsent := rfl
@[simp] theorem modPort_models (s : State) (n : Nat) (f : Port → Port) : (modPort s n f).models = s.models := rfl
@[simp] theorem modPort_modelGens (s : State) (n : Nat) (f : Port → Port) : (modPort s n f).modelGens = s.modelGens := rfl
@[simp] theorem modPort_ctxs (s : State) (n : Nat) (f : Port → Port) : (modPort s n f).ctxs = s.ctxs := rfl
@[simp] theorem modPort_ctxGens (s : State) (n : Nat) (f : Port → Port) : (modPort s n f).ctxGens = s.ctxGens := rfl
@[simp] theorem modPort_hbm (s : State) (n : Nat) (f : Port → Port) : (modPort s n f).hbm = s.hbm := rfl
@[simp] theorem modPort_marks (s : State) (n : Nat) (f : Port → Port) : (modPort s n f).marks = s.marks := rfl
@[simp] theorem modPort_spadMarks (s : State) (n : Nat) (f : Port → Port) : (modPort s n f).spadMarks = s.spadMarks := rfl
@[simp] theorem modPort_otherMarks (s : State) (n : Nat) (f : Port → Port) : (modPort s n f).otherMarks = s.otherMarks := rfl
@[simp] theorem modPort_writeBacks (s : State) (n : Nat) (f : Port → Port) : (modPort s n f).writeBacks = s.writeBacks := rfl
@[simp] theorem modPort_walkers (s : State) (n : Nat) (f : Port → Port) : (modPort s n f).walkers = s.walkers := rfl
@[simp] theorem modPort_moves (s : State) (n : Nat) (f : Port → Port) : (modPort s n f).moves = s.moves := rfl
@[simp] theorem modPort_fills (s : State) (n : Nat) (f : Port → Port) : (modPort s n f).fills = s.fills := rfl
@[simp] theorem modPort_loads (s : State) (n : Nat) (f : Port → Port) : (modPort s n f).loads = s.loads := rfl
@[simp] theorem modPort_saves (s : State) (n : Nat) (f : Port → Port) : (modPort s n f).saves = s.saves := rfl
@[simp] theorem modPort_destroys (s : State) (n : Nat) (f : Port → Port) : (modPort s n f).destroys = s.destroys := rfl
@[simp] theorem modPort_progs (s : State) (n : Nat) (f : Port → Port) : (modPort s n f).progs = s.progs := rfl
@[simp] theorem modPort_drains (s : State) (n : Nat) (f : Port → Port) : (modPort s n f).drains = s.drains := rfl
@[simp] theorem modPort_map (s : State) (n : Nat) (f : Port → Port) : (modPort s n f).map = s.map := rfl
@[simp] theorem modPort_cores (s : State) (n : Nat) (f : Port → Port) : (modPort s n f).cores = s.cores := rfl
@[simp] theorem modPort_faults (s : State) (n : Nat) (f : Port → Port) : (modPort s n f).faults = s.faults := rfl
@[simp] theorem modPort_trail (s : State) (n : Nat) (f : Port → Port) : (modPort s n f).trail = s.trail := rfl
@[simp] theorem modPort_power (s : State) (n : Nat) (f : Port → Port) : (modPort s n f).power = s.power := rfl
@[simp] theorem modPort_sec (s : State) (n : Nat) (f : Port → Port) : (modPort s n f).sec = s.sec := rfl
@[simp] theorem modPort_ent (s : State) (n : Nat) (f : Port → Port) : (modPort s n f).ent = s.ent := rfl
@[simp] theorem modPort_join (s : State) (n : Nat) (f : Port → Port) : (modPort s n f).join = s.join := rfl
@[simp] theorem modPort_side (s : State) (n : Nat) (f : Port → Port) : (modPort s n f).side = s.side := rfl
@[simp] theorem modPort_tap (s : State) (n : Nat) (f : Port → Port) : (modPort s n f).tap = s.tap := rfl
@[simp] theorem modPort_out (s : State) (n : Nat) (f : Port → Port) : (modPort s n f).out = s.out := rfl
@[simp] theorem modPort_free (s : State) (n : Nat) (f : Port → Port) : (modPort s n f).free = s.free := rfl
@[simp] theorem modPort_turn (s : State) (n : Nat) (f : Port → Port) : (modPort s n f).turn = s.turn := rfl
@[simp] theorem modPort_spad (s : State) (n : Nat) (f : Port → Port) : (modPort s n f).spad = s.spad := rfl
@[simp] theorem modPort_slots (s : State) (n : Nat) (f : Port → Port) : (modPort s n f).slots = s.slots := rfl
@[simp] theorem modPort_ports (s : State) (n : Nat) (f : Port → Port) : (modPort s n f).ports = put s.ports n (f (port s n)) := rfl

/-! ### `modPath` -/

@[simp] theorem modPath_pending (s : State) (p : Nat) (f : Path → Path) : (modPath s p f).pending = s.pending := rfl
@[simp] theorem modPath_rtc (s : State) (p : Nat) (f : Path → Path) : (modPath s p f).rtc = s.rtc := rfl
@[simp] theorem modPath_gptp (s : State) (p : Nat) (f : Path → Path) : (modPath s p f).gptp = s.gptp := rfl
@[simp] theorem modPath_regs (s : State) (p : Nat) (f : Path → Path) : (modPath s p f).regs = s.regs := rfl
@[simp] theorem modPath_heldRegs (s : State) (p : Nat) (f : Path → Path) : (modPath s p f).heldRegs = s.heldRegs := rfl
@[simp] theorem modPath_sessions (s : State) (p : Nat) (f : Path → Path) : (modPath s p f).sessions = s.sessions := rfl
@[simp] theorem modPath_openQueue (s : State) (p : Nat) (f : Path → Path) : (modPath s p f).openQueue = s.openQueue := rfl
@[simp] theorem modPath_taken (s : State) (p : Nat) (f : Path → Path) : (modPath s p f).taken = s.taken := rfl
@[simp] theorem modPath_nonces (s : State) (p : Nat) (f : Path → Path) : (modPath s p f).nonces = s.nonces := rfl
@[simp] theorem modPath_auths (s : State) (p : Nat) (f : Path → Path) : (modPath s p f).auths = s.auths := rfl
@[simp] theorem modPath_cbSeen (s : State) (p : Nat) (f : Path → Path) : (modPath s p f).cbSeen = s.cbSeen := rfl
@[simp] theorem modPath_meters (s : State) (p : Nat) (f : Path → Path) : (modPath s p f).meters = s.meters := rfl
@[simp] theorem modPath_eth (s : State) (p : Nat) (f : Path → Path) : (modPath s p f).eth = s.eth := rfl
@[simp] theorem modPath_unsent (s : State) (p : Nat) (f : Path → Path) : (modPath s p f).unsent = s.unsent := rfl
@[simp] theorem modPath_models (s : State) (p : Nat) (f : Path → Path) : (modPath s p f).models = s.models := rfl
@[simp] theorem modPath_modelGens (s : State) (p : Nat) (f : Path → Path) : (modPath s p f).modelGens = s.modelGens := rfl
@[simp] theorem modPath_ctxs (s : State) (p : Nat) (f : Path → Path) : (modPath s p f).ctxs = s.ctxs := rfl
@[simp] theorem modPath_ctxGens (s : State) (p : Nat) (f : Path → Path) : (modPath s p f).ctxGens = s.ctxGens := rfl
@[simp] theorem modPath_hbm (s : State) (p : Nat) (f : Path → Path) : (modPath s p f).hbm = s.hbm := rfl
@[simp] theorem modPath_marks (s : State) (p : Nat) (f : Path → Path) : (modPath s p f).marks = s.marks := rfl
@[simp] theorem modPath_spadMarks (s : State) (p : Nat) (f : Path → Path) : (modPath s p f).spadMarks = s.spadMarks := rfl
@[simp] theorem modPath_otherMarks (s : State) (p : Nat) (f : Path → Path) : (modPath s p f).otherMarks = s.otherMarks := rfl
@[simp] theorem modPath_writeBacks (s : State) (p : Nat) (f : Path → Path) : (modPath s p f).writeBacks = s.writeBacks := rfl
@[simp] theorem modPath_walkers (s : State) (p : Nat) (f : Path → Path) : (modPath s p f).walkers = s.walkers := rfl
@[simp] theorem modPath_moves (s : State) (p : Nat) (f : Path → Path) : (modPath s p f).moves = s.moves := rfl
@[simp] theorem modPath_fills (s : State) (p : Nat) (f : Path → Path) : (modPath s p f).fills = s.fills := rfl
@[simp] theorem modPath_loads (s : State) (p : Nat) (f : Path → Path) : (modPath s p f).loads = s.loads := rfl
@[simp] theorem modPath_saves (s : State) (p : Nat) (f : Path → Path) : (modPath s p f).saves = s.saves := rfl
@[simp] theorem modPath_destroys (s : State) (p : Nat) (f : Path → Path) : (modPath s p f).destroys = s.destroys := rfl
@[simp] theorem modPath_progs (s : State) (p : Nat) (f : Path → Path) : (modPath s p f).progs = s.progs := rfl
@[simp] theorem modPath_drains (s : State) (p : Nat) (f : Path → Path) : (modPath s p f).drains = s.drains := rfl
@[simp] theorem modPath_map (s : State) (p : Nat) (f : Path → Path) : (modPath s p f).map = s.map := rfl
@[simp] theorem modPath_cores (s : State) (p : Nat) (f : Path → Path) : (modPath s p f).cores = s.cores := rfl
@[simp] theorem modPath_faults (s : State) (p : Nat) (f : Path → Path) : (modPath s p f).faults = s.faults := rfl
@[simp] theorem modPath_trail (s : State) (p : Nat) (f : Path → Path) : (modPath s p f).trail = s.trail := rfl
@[simp] theorem modPath_power (s : State) (p : Nat) (f : Path → Path) : (modPath s p f).power = s.power := rfl
@[simp] theorem modPath_sec (s : State) (p : Nat) (f : Path → Path) : (modPath s p f).sec = s.sec := rfl
@[simp] theorem modPath_ent (s : State) (p : Nat) (f : Path → Path) : (modPath s p f).ent = s.ent := rfl
@[simp] theorem modPath_ports (s : State) (p : Nat) (f : Path → Path) : (modPath s p f).ports = s.ports := rfl
@[simp] theorem modPath_join (s : State) (p : Nat) (f : Path → Path) : (modPath s p f).join = s.join := rfl
@[simp] theorem modPath_side (s : State) (p : Nat) (f : Path → Path) : (modPath s p f).side = s.side := rfl
@[simp] theorem modPath_tap (s : State) (p : Nat) (f : Path → Path) : (modPath s p f).tap = s.tap := rfl
@[simp] theorem modPath_out (s : State) (p : Nat) (f : Path → Path) : (modPath s p f).out = s.out := rfl
@[simp] theorem modPath_free (s : State) (p : Nat) (f : Path → Path) : (modPath s p f).free = s.free := rfl
@[simp] theorem modPath_turn (s : State) (p : Nat) (f : Path → Path) : (modPath s p f).turn = s.turn := rfl
@[simp] theorem modPath_spad (s : State) (p : Nat) (f : Path → Path) : (modPath s p f).spad = s.spad := rfl
@[simp] theorem modPath_slots (s : State) (p : Nat) (f : Path → Path) : (modPath s p f).slots = s.slots := rfl
@[simp] theorem modPath_paths (s : State) (p : Nat) (f : Path → Path) : (modPath s p f).paths = put s.paths p (f (path s p)) := rfl

end Sys2Proof.Machine
end

