-- ==== Sys2Proof/Laws/Ops.lean ====
section
/-!
SUPPORT. What the operations over registers and the Trail can change: registers alone, or registers and the Trail. One `only`
lemma for each operation, and from it one lemma for each field that stays.
-/

namespace Sys2Proof.Machine

/-! ### Registers -/

/-- A register write changes the registers alone. -/
theorem setReg_only (s : State) (a v : Nat) : ∃ x, setReg s a v = { s with regs := x } := by
  unfold setReg; split <;> exact ⟨_, rfl⟩

theorem orReg_only (s : State) (a b : Nat) : ∃ x, orReg s a b = { s with regs := x } := setReg_only ..

theorem bump_only (s : State) (a n : Nat) : ∃ x, bump s a n = { s with regs := x } := setReg_only ..

theorem bump64_only (s : State) (a n : Nat) : ∃ x, bump64 s a n = { s with regs := x } := by
  unfold bump64
  obtain ⟨x, hx⟩ := setReg_only s a ((regVal s a + 2 ^ 32 * regVal s (a + 4) + n) % 2 ^ 32)
  obtain ⟨y, hy⟩ := setReg_only { s with regs := x } (a + 4) ((regVal s a + 2 ^ 32 * regVal s (a + 4) + n) / 2 ^ 32 % 2 ^ 32)
  simp only [hx, hy]; exact ⟨y, rfl⟩

theorem reproEvent_only (s : State) (b : Nat) : ∃ x, reproEvent s b = { s with regs := x } := by
  unfold reproEvent; split
  · exact orReg_only ..
  · exact ⟨_, rfl⟩

/-- A register reads the value set. -/
@[simp] theorem regVal_setReg_same (s : State) (a v : Nat) : regVal (setReg s a v) a = v % 2 ^ 32 := by
  unfold setReg; split
  · rename_i h; show regVal { s with regs := del s.regs a } a = _
    unfold regVal; rw [show lookup (State.regs { s with regs := del s.regs a }) a = none from lookup_del_same ..]; exact h.symm
  · show regVal { s with regs := put s.regs a (BitVec.ofNat 32 v) } a = _
    unfold regVal
    rw [show lookup (State.regs { s with regs := put s.regs a (BitVec.ofNat 32 v) }) a = some (BitVec.ofNat 32 v) from lookup_put_same ..]
    simp

/-- Every other register reads as before. -/
theorem regVal_setReg_other (s : State) {a b : Nat} (v : Nat) (h : b ≠ a) : regVal (setReg s a v) b = regVal s b := by
  have key : ∀ m, lookup m b = lookup s.regs b → regVal { s with regs := m } b = regVal s b := by
    intro m hm; unfold regVal; rw [show State.regs { s with regs := m } = m from rfl, hm]
  unfold setReg; split
  · exact key _ (lookup_del_other _ h)
  · exact key _ (lookup_put_other _ _ h)

/-- A counter counts up and holds at its limit. -/
@[simp] theorem regVal_bump_same (s : State) (a n : Nat) : regVal (bump s a n) a = min (regVal s a + n) 0xFFFFFFFF := by
  simp only [bump, regVal_setReg_same]; omega

theorem regVal_bump_other (s : State) {a b : Nat} (n : Nat) (h : b ≠ a) : regVal (bump s a n) b = regVal s b :=
  regVal_setReg_other s _ h

@[simp] theorem setReg_pending (s : State) (a v : Nat) : (setReg s a v).pending = s.pending := by
  obtain ⟨_, h⟩ := setReg_only s a v; rw [h]
@[simp] theorem setReg_rtc (s : State) (a v : Nat) : (setReg s a v).rtc = s.rtc := by
  obtain ⟨_, h⟩ := setReg_only s a v; rw [h]
@[simp] theorem setReg_gptp (s : State) (a v : Nat) : (setReg s a v).gptp = s.gptp := by
  obtain ⟨_, h⟩ := setReg_only s a v; rw [h]
@[simp] theorem setReg_heldRegs (s : State) (a v : Nat) : (setReg s a v).heldRegs = s.heldRegs := by
  obtain ⟨_, h⟩ := setReg_only s a v; rw [h]
@[simp] theorem setReg_paths (s : State) (a v : Nat) : (setReg s a v).paths = s.paths := by
  obtain ⟨_, h⟩ := setReg_only s a v; rw [h]
@[simp] theorem setReg_sessions (s : State) (a v : Nat) : (setReg s a v).sessions = s.sessions := by
  obtain ⟨_, h⟩ := setReg_only s a v; rw [h]
@[simp] theorem setReg_openQueue (s : State) (a v : Nat) : (setReg s a v).openQueue = s.openQueue := by
  obtain ⟨_, h⟩ := setReg_only s a v; rw [h]
@[simp] theorem setReg_taken (s : State) (a v : Nat) : (setReg s a v).taken = s.taken := by
  obtain ⟨_, h⟩ := setReg_only s a v; rw [h]
@[simp] theorem setReg_nonces (s : State) (a v : Nat) : (setReg s a v).nonces = s.nonces := by
  obtain ⟨_, h⟩ := setReg_only s a v; rw [h]
@[simp] theorem setReg_auths (s : State) (a v : Nat) : (setReg s a v).auths = s.auths := by
  obtain ⟨_, h⟩ := setReg_only s a v; rw [h]
@[simp] theorem setReg_cbSeen (s : State) (a v : Nat) : (setReg s a v).cbSeen = s.cbSeen := by
  obtain ⟨_, h⟩ := setReg_only s a v; rw [h]
@[simp] theorem setReg_meters (s : State) (a v : Nat) : (setReg s a v).meters = s.meters := by
  obtain ⟨_, h⟩ := setReg_only s a v; rw [h]
@[simp] theorem setReg_eth (s : State) (a v : Nat) : (setReg s a v).eth = s.eth := by
  obtain ⟨_, h⟩ := setReg_only s a v; rw [h]
@[simp] theorem setReg_unsent (s : State) (a v : Nat) : (setReg s a v).unsent = s.unsent := by
  obtain ⟨_, h⟩ := setReg_only s a v; rw [h]
@[simp] theorem setReg_models (s : State) (a v : Nat) : (setReg s a v).models = s.models := by
  obtain ⟨_, h⟩ := setReg_only s a v; rw [h]
@[simp] theorem setReg_modelGens (s : State) (a v : Nat) : (setReg s a v).modelGens = s.modelGens := by
  obtain ⟨_, h⟩ := setReg_only s a v; rw [h]
@[simp] theorem setReg_ctxs (s : State) (a v : Nat) : (setReg s a v).ctxs = s.ctxs := by
  obtain ⟨_, h⟩ := setReg_only s a v; rw [h]
@[simp] theorem setReg_ctxGens (s : State) (a v : Nat) : (setReg s a v).ctxGens = s.ctxGens := by
  obtain ⟨_, h⟩ := setReg_only s a v; rw [h]
@[simp] theorem setReg_hbm (s : State) (a v : Nat) : (setReg s a v).hbm = s.hbm := by
  obtain ⟨_, h⟩ := setReg_only s a v; rw [h]
@[simp] theorem setReg_marks (s : State) (a v : Nat) : (setReg s a v).marks = s.marks := by
  obtain ⟨_, h⟩ := setReg_only s a v; rw [h]
@[simp] theorem setReg_spadMarks (s : State) (a v : Nat) : (setReg s a v).spadMarks = s.spadMarks := by
  obtain ⟨_, h⟩ := setReg_only s a v; rw [h]
@[simp] theorem setReg_otherMarks (s : State) (a v : Nat) : (setReg s a v).otherMarks = s.otherMarks := by
  obtain ⟨_, h⟩ := setReg_only s a v; rw [h]
@[simp] theorem setReg_writeBacks (s : State) (a v : Nat) : (setReg s a v).writeBacks = s.writeBacks := by
  obtain ⟨_, h⟩ := setReg_only s a v; rw [h]
@[simp] theorem setReg_walkers (s : State) (a v : Nat) : (setReg s a v).walkers = s.walkers := by
  obtain ⟨_, h⟩ := setReg_only s a v; rw [h]
@[simp] theorem setReg_moves (s : State) (a v : Nat) : (setReg s a v).moves = s.moves := by
  obtain ⟨_, h⟩ := setReg_only s a v; rw [h]
@[simp] theorem setReg_fills (s : State) (a v : Nat) : (setReg s a v).fills = s.fills := by
  obtain ⟨_, h⟩ := setReg_only s a v; rw [h]
@[simp] theorem setReg_loads (s : State) (a v : Nat) : (setReg s a v).loads = s.loads := by
  obtain ⟨_, h⟩ := setReg_only s a v; rw [h]
@[simp] theorem setReg_saves (s : State) (a v : Nat) : (setReg s a v).saves = s.saves := by
  obtain ⟨_, h⟩ := setReg_only s a v; rw [h]
@[simp] theorem setReg_destroys (s : State) (a v : Nat) : (setReg s a v).destroys = s.destroys := by
  obtain ⟨_, h⟩ := setReg_only s a v; rw [h]
@[simp] theorem setReg_progs (s : State) (a v : Nat) : (setReg s a v).progs = s.progs := by
  obtain ⟨_, h⟩ := setReg_only s a v; rw [h]
@[simp] theorem setReg_drains (s : State) (a v : Nat) : (setReg s a v).drains = s.drains := by
  obtain ⟨_, h⟩ := setReg_only s a v; rw [h]
@[simp] theorem setReg_map (s : State) (a v : Nat) : (setReg s a v).map = s.map := by
  obtain ⟨_, h⟩ := setReg_only s a v; rw [h]
@[simp] theorem setReg_cores (s : State) (a v : Nat) : (setReg s a v).cores = s.cores := by
  obtain ⟨_, h⟩ := setReg_only s a v; rw [h]
@[simp] theorem setReg_faults (s : State) (a v : Nat) : (setReg s a v).faults = s.faults := by
  obtain ⟨_, h⟩ := setReg_only s a v; rw [h]
@[simp] theorem setReg_trail (s : State) (a v : Nat) : (setReg s a v).trail = s.trail := by
  obtain ⟨_, h⟩ := setReg_only s a v; rw [h]
@[simp] theorem setReg_power (s : State) (a v : Nat) : (setReg s a v).power = s.power := by
  obtain ⟨_, h⟩ := setReg_only s a v; rw [h]
@[simp] theorem setReg_sec (s : State) (a v : Nat) : (setReg s a v).sec = s.sec := by
  obtain ⟨_, h⟩ := setReg_only s a v; rw [h]
@[simp] theorem setReg_ent (s : State) (a v : Nat) : (setReg s a v).ent = s.ent := by
  obtain ⟨_, h⟩ := setReg_only s a v; rw [h]
@[simp] theorem setReg_ports (s : State) (a v : Nat) : (setReg s a v).ports = s.ports := by
  obtain ⟨_, h⟩ := setReg_only s a v; rw [h]
@[simp] theorem setReg_join (s : State) (a v : Nat) : (setReg s a v).join = s.join := by
  obtain ⟨_, h⟩ := setReg_only s a v; rw [h]
@[simp] theorem setReg_side (s : State) (a v : Nat) : (setReg s a v).side = s.side := by
  obtain ⟨_, h⟩ := setReg_only s a v; rw [h]
@[simp] theorem setReg_tap (s : State) (a v : Nat) : (setReg s a v).tap = s.tap := by
  obtain ⟨_, h⟩ := setReg_only s a v; rw [h]
@[simp] theorem setReg_turn (s : State) (a v : Nat) : (setReg s a v).turn = s.turn := by
  obtain ⟨_, h⟩ := setReg_only s a v; rw [h]
@[simp] theorem setReg_spad (s : State) (a v : Nat) : (setReg s a v).spad = s.spad := by
  obtain ⟨_, h⟩ := setReg_only s a v; rw [h]
@[simp] theorem setReg_slots (s : State) (a v : Nat) : (setReg s a v).slots = s.slots := by
  obtain ⟨_, h⟩ := setReg_only s a v; rw [h]
@[simp] theorem setReg_out (s : State) (a v : Nat) : (setReg s a v).out = s.out := by
  obtain ⟨_, h⟩ := setReg_only s a v; rw [h]
@[simp] theorem setReg_free (s : State) (a v : Nat) : (setReg s a v).free = s.free := by
  obtain ⟨_, h⟩ := setReg_only s a v; rw [h]

@[simp] theorem orReg_pending (s : State) (a b : Nat) : (orReg s a b).pending = s.pending := by
  obtain ⟨_, h⟩ := orReg_only s a b; rw [h]
@[simp] theorem orReg_rtc (s : State) (a b : Nat) : (orReg s a b).rtc = s.rtc := by
  obtain ⟨_, h⟩ := orReg_only s a b; rw [h]
@[simp] theorem orReg_gptp (s : State) (a b : Nat) : (orReg s a b).gptp = s.gptp := by
  obtain ⟨_, h⟩ := orReg_only s a b; rw [h]
@[simp] theorem orReg_heldRegs (s : State) (a b : Nat) : (orReg s a b).heldRegs = s.heldRegs := by
  obtain ⟨_, h⟩ := orReg_only s a b; rw [h]
@[simp] theorem orReg_paths (s : State) (a b : Nat) : (orReg s a b).paths = s.paths := by
  obtain ⟨_, h⟩ := orReg_only s a b; rw [h]
@[simp] theorem orReg_sessions (s : State) (a b : Nat) : (orReg s a b).sessions = s.sessions := by
  obtain ⟨_, h⟩ := orReg_only s a b; rw [h]
@[simp] theorem orReg_openQueue (s : State) (a b : Nat) : (orReg s a b).openQueue = s.openQueue := by
  obtain ⟨_, h⟩ := orReg_only s a b; rw [h]
@[simp] theorem orReg_taken (s : State) (a b : Nat) : (orReg s a b).taken = s.taken := by
  obtain ⟨_, h⟩ := orReg_only s a b; rw [h]
@[simp] theorem orReg_nonces (s : State) (a b : Nat) : (orReg s a b).nonces = s.nonces := by
  obtain ⟨_, h⟩ := orReg_only s a b; rw [h]
@[simp] theorem orReg_auths (s : State) (a b : Nat) : (orReg s a b).auths = s.auths := by
  obtain ⟨_, h⟩ := orReg_only s a b; rw [h]
@[simp] theorem orReg_cbSeen (s : State) (a b : Nat) : (orReg s a b).cbSeen = s.cbSeen := by
  obtain ⟨_, h⟩ := orReg_only s a b; rw [h]
@[simp] theorem orReg_meters (s : State) (a b : Nat) : (orReg s a b).meters = s.meters := by
  obtain ⟨_, h⟩ := orReg_only s a b; rw [h]
@[simp] theorem orReg_eth (s : State) (a b : Nat) : (orReg s a b).eth = s.eth := by
  obtain ⟨_, h⟩ := orReg_only s a b; rw [h]
@[simp] theorem orReg_unsent (s : State) (a b : Nat) : (orReg s a b).unsent = s.unsent := by
  obtain ⟨_, h⟩ := orReg_only s a b; rw [h]
@[simp] theorem orReg_models (s : State) (a b : Nat) : (orReg s a b).models = s.models := by
  obtain ⟨_, h⟩ := orReg_only s a b; rw [h]
@[simp] theorem orReg_modelGens (s : State) (a b : Nat) : (orReg s a b).modelGens = s.modelGens := by
  obtain ⟨_, h⟩ := orReg_only s a b; rw [h]
@[simp] theorem orReg_ctxs (s : State) (a b : Nat) : (orReg s a b).ctxs = s.ctxs := by
  obtain ⟨_, h⟩ := orReg_only s a b; rw [h]
@[simp] theorem orReg_ctxGens (s : State) (a b : Nat) : (orReg s a b).ctxGens = s.ctxGens := by
  obtain ⟨_, h⟩ := orReg_only s a b; rw [h]
@[simp] theorem orReg_hbm (s : State) (a b : Nat) : (orReg s a b).hbm = s.hbm := by
  obtain ⟨_, h⟩ := orReg_only s a b; rw [h]
@[simp] theorem orReg_marks (s : State) (a b : Nat) : (orReg s a b).marks = s.marks := by
  obtain ⟨_, h⟩ := orReg_only s a b; rw [h]
@[simp] theorem orReg_spadMarks (s : State) (a b : Nat) : (orReg s a b).spadMarks = s.spadMarks := by
  obtain ⟨_, h⟩ := orReg_only s a b; rw [h]
@[simp] theorem orReg_otherMarks (s : State) (a b : Nat) : (orReg s a b).otherMarks = s.otherMarks := by
  obtain ⟨_, h⟩ := orReg_only s a b; rw [h]
@[simp] theorem orReg_writeBacks (s : State) (a b : Nat) : (orReg s a b).writeBacks = s.writeBacks := by
  obtain ⟨_, h⟩ := orReg_only s a b; rw [h]
@[simp] theorem orReg_walkers (s : State) (a b : Nat) : (orReg s a b).walkers = s.walkers := by
  obtain ⟨_, h⟩ := orReg_only s a b; rw [h]
@[simp] theorem orReg_moves (s : State) (a b : Nat) : (orReg s a b).moves = s.moves := by
  obtain ⟨_, h⟩ := orReg_only s a b; rw [h]
@[simp] theorem orReg_fills (s : State) (a b : Nat) : (orReg s a b).fills = s.fills := by
  obtain ⟨_, h⟩ := orReg_only s a b; rw [h]
@[simp] theorem orReg_loads (s : State) (a b : Nat) : (orReg s a b).loads = s.loads := by
  obtain ⟨_, h⟩ := orReg_only s a b; rw [h]
@[simp] theorem orReg_saves (s : State) (a b : Nat) : (orReg s a b).saves = s.saves := by
  obtain ⟨_, h⟩ := orReg_only s a b; rw [h]
@[simp] theorem orReg_destroys (s : State) (a b : Nat) : (orReg s a b).destroys = s.destroys := by
  obtain ⟨_, h⟩ := orReg_only s a b; rw [h]
@[simp] theorem orReg_progs (s : State) (a b : Nat) : (orReg s a b).progs = s.progs := by
  obtain ⟨_, h⟩ := orReg_only s a b; rw [h]
@[simp] theorem orReg_drains (s : State) (a b : Nat) : (orReg s a b).drains = s.drains := by
  obtain ⟨_, h⟩ := orReg_only s a b; rw [h]
@[simp] theorem orReg_map (s : State) (a b : Nat) : (orReg s a b).map = s.map := by
  obtain ⟨_, h⟩ := orReg_only s a b; rw [h]
@[simp] theorem orReg_cores (s : State) (a b : Nat) : (orReg s a b).cores = s.cores := by
  obtain ⟨_, h⟩ := orReg_only s a b; rw [h]
@[simp] theorem orReg_faults (s : State) (a b : Nat) : (orReg s a b).faults = s.faults := by
  obtain ⟨_, h⟩ := orReg_only s a b; rw [h]
@[simp] theorem orReg_trail (s : State) (a b : Nat) : (orReg s a b).trail = s.trail := by
  obtain ⟨_, h⟩ := orReg_only s a b; rw [h]
@[simp] theorem orReg_power (s : State) (a b : Nat) : (orReg s a b).power = s.power := by
  obtain ⟨_, h⟩ := orReg_only s a b; rw [h]
@[simp] theorem orReg_sec (s : State) (a b : Nat) : (orReg s a b).sec = s.sec := by
  obtain ⟨_, h⟩ := orReg_only s a b; rw [h]
@[simp] theorem orReg_ent (s : State) (a b : Nat) : (orReg s a b).ent = s.ent := by
  obtain ⟨_, h⟩ := orReg_only s a b; rw [h]
@[simp] theorem orReg_ports (s : State) (a b : Nat) : (orReg s a b).ports = s.ports := by
  obtain ⟨_, h⟩ := orReg_only s a b; rw [h]
@[simp] theorem orReg_join (s : State) (a b : Nat) : (orReg s a b).join = s.join := by
  obtain ⟨_, h⟩ := orReg_only s a b; rw [h]
@[simp] theorem orReg_side (s : State) (a b : Nat) : (orReg s a b).side = s.side := by
  obtain ⟨_, h⟩ := orReg_only s a b; rw [h]
@[simp] theorem orReg_tap (s : State) (a b : Nat) : (orReg s a b).tap = s.tap := by
  obtain ⟨_, h⟩ := orReg_only s a b; rw [h]
@[simp] theorem orReg_turn (s : State) (a b : Nat) : (orReg s a b).turn = s.turn := by
  obtain ⟨_, h⟩ := orReg_only s a b; rw [h]
@[simp] theorem orReg_spad (s : State) (a b : Nat) : (orReg s a b).spad = s.spad := by
  obtain ⟨_, h⟩ := orReg_only s a b; rw [h]
@[simp] theorem orReg_slots (s : State) (a b : Nat) : (orReg s a b).slots = s.slots := by
  obtain ⟨_, h⟩ := orReg_only s a b; rw [h]
@[simp] theorem orReg_out (s : State) (a b : Nat) : (orReg s a b).out = s.out := by
  obtain ⟨_, h⟩ := orReg_only s a b; rw [h]
@[simp] theorem orReg_free (s : State) (a b : Nat) : (orReg s a b).free = s.free := by
  obtain ⟨_, h⟩ := orReg_only s a b; rw [h]

@[simp] theorem bump_pending (s : State) (a n : Nat) : (bump s a n).pending = s.pending := by
  obtain ⟨_, h⟩ := bump_only s a n; rw [h]
@[simp] theorem bump_rtc (s : State) (a n : Nat) : (bump s a n).rtc = s.rtc := by
  obtain ⟨_, h⟩ := bump_only s a n; rw [h]
@[simp] theorem bump_gptp (s : State) (a n : Nat) : (bump s a n).gptp = s.gptp := by
  obtain ⟨_, h⟩ := bump_only s a n; rw [h]
@[simp] theorem bump_heldRegs (s : State) (a n : Nat) : (bump s a n).heldRegs = s.heldRegs := by
  obtain ⟨_, h⟩ := bump_only s a n; rw [h]
@[simp] theorem bump_paths (s : State) (a n : Nat) : (bump s a n).paths = s.paths := by
  obtain ⟨_, h⟩ := bump_only s a n; rw [h]
@[simp] theorem bump_sessions (s : State) (a n : Nat) : (bump s a n).sessions = s.sessions := by
  obtain ⟨_, h⟩ := bump_only s a n; rw [h]
@[simp] theorem bump_openQueue (s : State) (a n : Nat) : (bump s a n).openQueue = s.openQueue := by
  obtain ⟨_, h⟩ := bump_only s a n; rw [h]
@[simp] theorem bump_taken (s : State) (a n : Nat) : (bump s a n).taken = s.taken := by
  obtain ⟨_, h⟩ := bump_only s a n; rw [h]
@[simp] theorem bump_nonces (s : State) (a n : Nat) : (bump s a n).nonces = s.nonces := by
  obtain ⟨_, h⟩ := bump_only s a n; rw [h]
@[simp] theorem bump_auths (s : State) (a n : Nat) : (bump s a n).auths = s.auths := by
  obtain ⟨_, h⟩ := bump_only s a n; rw [h]
@[simp] theorem bump_cbSeen (s : State) (a n : Nat) : (bump s a n).cbSeen = s.cbSeen := by
  obtain ⟨_, h⟩ := bump_only s a n; rw [h]
@[simp] theorem bump_meters (s : State) (a n : Nat) : (bump s a n).meters = s.meters := by
  obtain ⟨_, h⟩ := bump_only s a n; rw [h]
@[simp] theorem bump_eth (s : State) (a n : Nat) : (bump s a n).eth = s.eth := by
  obtain ⟨_, h⟩ := bump_only s a n; rw [h]
@[simp] theorem bump_unsent (s : State) (a n : Nat) : (bump s a n).unsent = s.unsent := by
  obtain ⟨_, h⟩ := bump_only s a n; rw [h]
@[simp] theorem bump_models (s : State) (a n : Nat) : (bump s a n).models = s.models := by
  obtain ⟨_, h⟩ := bump_only s a n; rw [h]
@[simp] theorem bump_modelGens (s : State) (a n : Nat) : (bump s a n).modelGens = s.modelGens := by
  obtain ⟨_, h⟩ := bump_only s a n; rw [h]
@[simp] theorem bump_ctxs (s : State) (a n : Nat) : (bump s a n).ctxs = s.ctxs := by
  obtain ⟨_, h⟩ := bump_only s a n; rw [h]
@[simp] theorem bump_ctxGens (s : State) (a n : Nat) : (bump s a n).ctxGens = s.ctxGens := by
  obtain ⟨_, h⟩ := bump_only s a n; rw [h]
@[simp] theorem bump_hbm (s : State) (a n : Nat) : (bump s a n).hbm = s.hbm := by
  obtain ⟨_, h⟩ := bump_only s a n; rw [h]
@[simp] theorem bump_marks (s : State) (a n : Nat) : (bump s a n).marks = s.marks := by
  obtain ⟨_, h⟩ := bump_only s a n; rw [h]
@[simp] theorem bump_spadMarks (s : State) (a n : Nat) : (bump s a n).spadMarks = s.spadMarks := by
  obtain ⟨_, h⟩ := bump_only s a n; rw [h]
@[simp] theorem bump_otherMarks (s : State) (a n : Nat) : (bump s a n).otherMarks = s.otherMarks := by
  obtain ⟨_, h⟩ := bump_only s a n; rw [h]
@[simp] theorem bump_writeBacks (s : State) (a n : Nat) : (bump s a n).writeBacks = s.writeBacks := by
  obtain ⟨_, h⟩ := bump_only s a n; rw [h]
@[simp] theorem bump_walkers (s : State) (a n : Nat) : (bump s a n).walkers = s.walkers := by
  obtain ⟨_, h⟩ := bump_only s a n; rw [h]
@[simp] theorem bump_moves (s : State) (a n : Nat) : (bump s a n).moves = s.moves := by
  obtain ⟨_, h⟩ := bump_only s a n; rw [h]
@[simp] theorem bump_fills (s : State) (a n : Nat) : (bump s a n).fills = s.fills := by
  obtain ⟨_, h⟩ := bump_only s a n; rw [h]
@[simp] theorem bump_loads (s : State) (a n : Nat) : (bump s a n).loads = s.loads := by
  obtain ⟨_, h⟩ := bump_only s a n; rw [h]
@[simp] theorem bump_saves (s : State) (a n : Nat) : (bump s a n).saves = s.saves := by
  obtain ⟨_, h⟩ := bump_only s a n; rw [h]
@[simp] theorem bump_destroys (s : State) (a n : Nat) : (bump s a n).destroys = s.destroys := by
  obtain ⟨_, h⟩ := bump_only s a n; rw [h]
@[simp] theorem bump_progs (s : State) (a n : Nat) : (bump s a n).progs = s.progs := by
  obtain ⟨_, h⟩ := bump_only s a n; rw [h]
@[simp] theorem bump_drains (s : State) (a n : Nat) : (bump s a n).drains = s.drains := by
  obtain ⟨_, h⟩ := bump_only s a n; rw [h]
@[simp] theorem bump_map (s : State) (a n : Nat) : (bump s a n).map = s.map := by
  obtain ⟨_, h⟩ := bump_only s a n; rw [h]
@[simp] theorem bump_cores (s : State) (a n : Nat) : (bump s a n).cores = s.cores := by
  obtain ⟨_, h⟩ := bump_only s a n; rw [h]
@[simp] theorem bump_faults (s : State) (a n : Nat) : (bump s a n).faults = s.faults := by
  obtain ⟨_, h⟩ := bump_only s a n; rw [h]
@[simp] theorem bump_trail (s : State) (a n : Nat) : (bump s a n).trail = s.trail := by
  obtain ⟨_, h⟩ := bump_only s a n; rw [h]
@[simp] theorem bump_power (s : State) (a n : Nat) : (bump s a n).power = s.power := by
  obtain ⟨_, h⟩ := bump_only s a n; rw [h]
@[simp] theorem bump_sec (s : State) (a n : Nat) : (bump s a n).sec = s.sec := by
  obtain ⟨_, h⟩ := bump_only s a n; rw [h]
@[simp] theorem bump_ent (s : State) (a n : Nat) : (bump s a n).ent = s.ent := by
  obtain ⟨_, h⟩ := bump_only s a n; rw [h]
@[simp] theorem bump_ports (s : State) (a n : Nat) : (bump s a n).ports = s.ports := by
  obtain ⟨_, h⟩ := bump_only s a n; rw [h]
@[simp] theorem bump_join (s : State) (a n : Nat) : (bump s a n).join = s.join := by
  obtain ⟨_, h⟩ := bump_only s a n; rw [h]
@[simp] theorem bump_side (s : State) (a n : Nat) : (bump s a n).side = s.side := by
  obtain ⟨_, h⟩ := bump_only s a n; rw [h]
@[simp] theorem bump_tap (s : State) (a n : Nat) : (bump s a n).tap = s.tap := by
  obtain ⟨_, h⟩ := bump_only s a n; rw [h]
@[simp] theorem bump_turn (s : State) (a n : Nat) : (bump s a n).turn = s.turn := by
  obtain ⟨_, h⟩ := bump_only s a n; rw [h]
@[simp] theorem bump_spad (s : State) (a n : Nat) : (bump s a n).spad = s.spad := by
  obtain ⟨_, h⟩ := bump_only s a n; rw [h]
@[simp] theorem bump_slots (s : State) (a n : Nat) : (bump s a n).slots = s.slots := by
  obtain ⟨_, h⟩ := bump_only s a n; rw [h]
@[simp] theorem bump_out (s : State) (a n : Nat) : (bump s a n).out = s.out := by
  obtain ⟨_, h⟩ := bump_only s a n; rw [h]
@[simp] theorem bump_free (s : State) (a n : Nat) : (bump s a n).free = s.free := by
  obtain ⟨_, h⟩ := bump_only s a n; rw [h]

@[simp] theorem bump64_pending (s : State) (a n : Nat) : (bump64 s a n).pending = s.pending := by
  obtain ⟨_, h⟩ := bump64_only s a n; rw [h]
@[simp] theorem bump64_rtc (s : State) (a n : Nat) : (bump64 s a n).rtc = s.rtc := by
  obtain ⟨_, h⟩ := bump64_only s a n; rw [h]
@[simp] theorem bump64_gptp (s : State) (a n : Nat) : (bump64 s a n).gptp = s.gptp := by
  obtain ⟨_, h⟩ := bump64_only s a n; rw [h]
@[simp] theorem bump64_heldRegs (s : State) (a n : Nat) : (bump64 s a n).heldRegs = s.heldRegs := by
  obtain ⟨_, h⟩ := bump64_only s a n; rw [h]
@[simp] theorem bump64_paths (s : State) (a n : Nat) : (bump64 s a n).paths = s.paths := by
  obtain ⟨_, h⟩ := bump64_only s a n; rw [h]
@[simp] theorem bump64_sessions (s : State) (a n : Nat) : (bump64 s a n).sessions = s.sessions := by
  obtain ⟨_, h⟩ := bump64_only s a n; rw [h]
@[simp] theorem bump64_openQueue (s : State) (a n : Nat) : (bump64 s a n).openQueue = s.openQueue := by
  obtain ⟨_, h⟩ := bump64_only s a n; rw [h]
@[simp] theorem bump64_taken (s : State) (a n : Nat) : (bump64 s a n).taken = s.taken := by
  obtain ⟨_, h⟩ := bump64_only s a n; rw [h]
@[simp] theorem bump64_nonces (s : State) (a n : Nat) : (bump64 s a n).nonces = s.nonces := by
  obtain ⟨_, h⟩ := bump64_only s a n; rw [h]
@[simp] theorem bump64_auths (s : State) (a n : Nat) : (bump64 s a n).auths = s.auths := by
  obtain ⟨_, h⟩ := bump64_only s a n; rw [h]
@[simp] theorem bump64_cbSeen (s : State) (a n : Nat) : (bump64 s a n).cbSeen = s.cbSeen := by
  obtain ⟨_, h⟩ := bump64_only s a n; rw [h]
@[simp] theorem bump64_meters (s : State) (a n : Nat) : (bump64 s a n).meters = s.meters := by
  obtain ⟨_, h⟩ := bump64_only s a n; rw [h]
@[simp] theorem bump64_eth (s : State) (a n : Nat) : (bump64 s a n).eth = s.eth := by
  obtain ⟨_, h⟩ := bump64_only s a n; rw [h]
@[simp] theorem bump64_unsent (s : State) (a n : Nat) : (bump64 s a n).unsent = s.unsent := by
  obtain ⟨_, h⟩ := bump64_only s a n; rw [h]
@[simp] theorem bump64_models (s : State) (a n : Nat) : (bump64 s a n).models = s.models := by
  obtain ⟨_, h⟩ := bump64_only s a n; rw [h]
@[simp] theorem bump64_modelGens (s : State) (a n : Nat) : (bump64 s a n).modelGens = s.modelGens := by
  obtain ⟨_, h⟩ := bump64_only s a n; rw [h]
@[simp] theorem bump64_ctxs (s : State) (a n : Nat) : (bump64 s a n).ctxs = s.ctxs := by
  obtain ⟨_, h⟩ := bump64_only s a n; rw [h]
@[simp] theorem bump64_ctxGens (s : State) (a n : Nat) : (bump64 s a n).ctxGens = s.ctxGens := by
  obtain ⟨_, h⟩ := bump64_only s a n; rw [h]
@[simp] theorem bump64_hbm (s : State) (a n : Nat) : (bump64 s a n).hbm = s.hbm := by
  obtain ⟨_, h⟩ := bump64_only s a n; rw [h]
@[simp] theorem bump64_marks (s : State) (a n : Nat) : (bump64 s a n).marks = s.marks := by
  obtain ⟨_, h⟩ := bump64_only s a n; rw [h]
@[simp] theorem bump64_spadMarks (s : State) (a n : Nat) : (bump64 s a n).spadMarks = s.spadMarks := by
  obtain ⟨_, h⟩ := bump64_only s a n; rw [h]
@[simp] theorem bump64_otherMarks (s : State) (a n : Nat) : (bump64 s a n).otherMarks = s.otherMarks := by
  obtain ⟨_, h⟩ := bump64_only s a n; rw [h]
@[simp] theorem bump64_writeBacks (s : State) (a n : Nat) : (bump64 s a n).writeBacks = s.writeBacks := by
  obtain ⟨_, h⟩ := bump64_only s a n; rw [h]
@[simp] theorem bump64_walkers (s : State) (a n : Nat) : (bump64 s a n).walkers = s.walkers := by
  obtain ⟨_, h⟩ := bump64_only s a n; rw [h]
@[simp] theorem bump64_moves (s : State) (a n : Nat) : (bump64 s a n).moves = s.moves := by
  obtain ⟨_, h⟩ := bump64_only s a n; rw [h]
@[simp] theorem bump64_fills (s : State) (a n : Nat) : (bump64 s a n).fills = s.fills := by
  obtain ⟨_, h⟩ := bump64_only s a n; rw [h]
@[simp] theorem bump64_loads (s : State) (a n : Nat) : (bump64 s a n).loads = s.loads := by
  obtain ⟨_, h⟩ := bump64_only s a n; rw [h]
@[simp] theorem bump64_saves (s : State) (a n : Nat) : (bump64 s a n).saves = s.saves := by
  obtain ⟨_, h⟩ := bump64_only s a n; rw [h]
@[simp] theorem bump64_destroys (s : State) (a n : Nat) : (bump64 s a n).destroys = s.destroys := by
  obtain ⟨_, h⟩ := bump64_only s a n; rw [h]
@[simp] theorem bump64_progs (s : State) (a n : Nat) : (bump64 s a n).progs = s.progs := by
  obtain ⟨_, h⟩ := bump64_only s a n; rw [h]
@[simp] theorem bump64_drains (s : State) (a n : Nat) : (bump64 s a n).drains = s.drains := by
  obtain ⟨_, h⟩ := bump64_only s a n; rw [h]
@[simp] theorem bump64_map (s : State) (a n : Nat) : (bump64 s a n).map = s.map := by
  obtain ⟨_, h⟩ := bump64_only s a n; rw [h]
@[simp] theorem bump64_cores (s : State) (a n : Nat) : (bump64 s a n).cores = s.cores := by
  obtain ⟨_, h⟩ := bump64_only s a n; rw [h]
@[simp] theorem bump64_faults (s : State) (a n : Nat) : (bump64 s a n).faults = s.faults := by
  obtain ⟨_, h⟩ := bump64_only s a n; rw [h]
@[simp] theorem bump64_trail (s : State) (a n : Nat) : (bump64 s a n).trail = s.trail := by
  obtain ⟨_, h⟩ := bump64_only s a n; rw [h]
@[simp] theorem bump64_power (s : State) (a n : Nat) : (bump64 s a n).power = s.power := by
  obtain ⟨_, h⟩ := bump64_only s a n; rw [h]
@[simp] theorem bump64_sec (s : State) (a n : Nat) : (bump64 s a n).sec = s.sec := by
  obtain ⟨_, h⟩ := bump64_only s a n; rw [h]
@[simp] theorem bump64_ent (s : State) (a n : Nat) : (bump64 s a n).ent = s.ent := by
  obtain ⟨_, h⟩ := bump64_only s a n; rw [h]
@[simp] theorem bump64_ports (s : State) (a n : Nat) : (bump64 s a n).ports = s.ports := by
  obtain ⟨_, h⟩ := bump64_only s a n; rw [h]
@[simp] theorem bump64_join (s : State) (a n : Nat) : (bump64 s a n).join = s.join := by
  obtain ⟨_, h⟩ := bump64_only s a n; rw [h]
@[simp] theorem bump64_side (s : State) (a n : Nat) : (bump64 s a n).side = s.side := by
  obtain ⟨_, h⟩ := bump64_only s a n; rw [h]
@[simp] theorem bump64_tap (s : State) (a n : Nat) : (bump64 s a n).tap = s.tap := by
  obtain ⟨_, h⟩ := bump64_only s a n; rw [h]
@[simp] theorem bump64_turn (s : State) (a n : Nat) : (bump64 s a n).turn = s.turn := by
  obtain ⟨_, h⟩ := bump64_only s a n; rw [h]
@[simp] theorem bump64_spad (s : State) (a n : Nat) : (bump64 s a n).spad = s.spad := by
  obtain ⟨_, h⟩ := bump64_only s a n; rw [h]
@[simp] theorem bump64_slots (s : State) (a n : Nat) : (bump64 s a n).slots = s.slots := by
  obtain ⟨_, h⟩ := bump64_only s a n; rw [h]
@[simp] theorem bump64_out (s : State) (a n : Nat) : (bump64 s a n).out = s.out := by
  obtain ⟨_, h⟩ := bump64_only s a n; rw [h]
@[simp] theorem bump64_free (s : State) (a n : Nat) : (bump64 s a n).free = s.free := by
  obtain ⟨_, h⟩ := bump64_only s a n; rw [h]

@[simp] theorem reproEvent_pending (s : State) (b : Nat) : (reproEvent s b).pending = s.pending := by
  obtain ⟨_, h⟩ := reproEvent_only s b; rw [h]
@[simp] theorem reproEvent_rtc (s : State) (b : Nat) : (reproEvent s b).rtc = s.rtc := by
  obtain ⟨_, h⟩ := reproEvent_only s b; rw [h]
@[simp] theorem reproEvent_gptp (s : State) (b : Nat) : (reproEvent s b).gptp = s.gptp := by
  obtain ⟨_, h⟩ := reproEvent_only s b; rw [h]
@[simp] theorem reproEvent_heldRegs (s : State) (b : Nat) : (reproEvent s b).heldRegs = s.heldRegs := by
  obtain ⟨_, h⟩ := reproEvent_only s b; rw [h]
@[simp] theorem reproEvent_paths (s : State) (b : Nat) : (reproEvent s b).paths = s.paths := by
  obtain ⟨_, h⟩ := reproEvent_only s b; rw [h]
@[simp] theorem reproEvent_sessions (s : State) (b : Nat) : (reproEvent s b).sessions = s.sessions := by
  obtain ⟨_, h⟩ := reproEvent_only s b; rw [h]
@[simp] theorem reproEvent_openQueue (s : State) (b : Nat) : (reproEvent s b).openQueue = s.openQueue := by
  obtain ⟨_, h⟩ := reproEvent_only s b; rw [h]
@[simp] theorem reproEvent_taken (s : State) (b : Nat) : (reproEvent s b).taken = s.taken := by
  obtain ⟨_, h⟩ := reproEvent_only s b; rw [h]
@[simp] theorem reproEvent_nonces (s : State) (b : Nat) : (reproEvent s b).nonces = s.nonces := by
  obtain ⟨_, h⟩ := reproEvent_only s b; rw [h]
@[simp] theorem reproEvent_auths (s : State) (b : Nat) : (reproEvent s b).auths = s.auths := by
  obtain ⟨_, h⟩ := reproEvent_only s b; rw [h]
@[simp] theorem reproEvent_cbSeen (s : State) (b : Nat) : (reproEvent s b).cbSeen = s.cbSeen := by
  obtain ⟨_, h⟩ := reproEvent_only s b; rw [h]
@[simp] theorem reproEvent_meters (s : State) (b : Nat) : (reproEvent s b).meters = s.meters := by
  obtain ⟨_, h⟩ := reproEvent_only s b; rw [h]
@[simp] theorem reproEvent_eth (s : State) (b : Nat) : (reproEvent s b).eth = s.eth := by
  obtain ⟨_, h⟩ := reproEvent_only s b; rw [h]
@[simp] theorem reproEvent_unsent (s : State) (b : Nat) : (reproEvent s b).unsent = s.unsent := by
  obtain ⟨_, h⟩ := reproEvent_only s b; rw [h]
@[simp] theorem reproEvent_models (s : State) (b : Nat) : (reproEvent s b).models = s.models := by
  obtain ⟨_, h⟩ := reproEvent_only s b; rw [h]
@[simp] theorem reproEvent_modelGens (s : State) (b : Nat) : (reproEvent s b).modelGens = s.modelGens := by
  obtain ⟨_, h⟩ := reproEvent_only s b; rw [h]
@[simp] theorem reproEvent_ctxs (s : State) (b : Nat) : (reproEvent s b).ctxs = s.ctxs := by
  obtain ⟨_, h⟩ := reproEvent_only s b; rw [h]
@[simp] theorem reproEvent_ctxGens (s : State) (b : Nat) : (reproEvent s b).ctxGens = s.ctxGens := by
  obtain ⟨_, h⟩ := reproEvent_only s b; rw [h]
@[simp] theorem reproEvent_hbm (s : State) (b : Nat) : (reproEvent s b).hbm = s.hbm := by
  obtain ⟨_, h⟩ := reproEvent_only s b; rw [h]
@[simp] theorem reproEvent_marks (s : State) (b : Nat) : (reproEvent s b).marks = s.marks := by
  obtain ⟨_, h⟩ := reproEvent_only s b; rw [h]
@[simp] theorem reproEvent_spadMarks (s : State) (b : Nat) : (reproEvent s b).spadMarks = s.spadMarks := by
  obtain ⟨_, h⟩ := reproEvent_only s b; rw [h]
@[simp] theorem reproEvent_otherMarks (s : State) (b : Nat) : (reproEvent s b).otherMarks = s.otherMarks := by
  obtain ⟨_, h⟩ := reproEvent_only s b; rw [h]
@[simp] theorem reproEvent_writeBacks (s : State) (b : Nat) : (reproEvent s b).writeBacks = s.writeBacks := by
  obtain ⟨_, h⟩ := reproEvent_only s b; rw [h]
@[simp] theorem reproEvent_walkers (s : State) (b : Nat) : (reproEvent s b).walkers = s.walkers := by
  obtain ⟨_, h⟩ := reproEvent_only s b; rw [h]
@[simp] theorem reproEvent_moves (s : State) (b : Nat) : (reproEvent s b).moves = s.moves := by
  obtain ⟨_, h⟩ := reproEvent_only s b; rw [h]
@[simp] theorem reproEvent_fills (s : State) (b : Nat) : (reproEvent s b).fills = s.fills := by
  obtain ⟨_, h⟩ := reproEvent_only s b; rw [h]
@[simp] theorem reproEvent_loads (s : State) (b : Nat) : (reproEvent s b).loads = s.loads := by
  obtain ⟨_, h⟩ := reproEvent_only s b; rw [h]
@[simp] theorem reproEvent_saves (s : State) (b : Nat) : (reproEvent s b).saves = s.saves := by
  obtain ⟨_, h⟩ := reproEvent_only s b; rw [h]
@[simp] theorem reproEvent_destroys (s : State) (b : Nat) : (reproEvent s b).destroys = s.destroys := by
  obtain ⟨_, h⟩ := reproEvent_only s b; rw [h]
@[simp] theorem reproEvent_progs (s : State) (b : Nat) : (reproEvent s b).progs = s.progs := by
  obtain ⟨_, h⟩ := reproEvent_only s b; rw [h]
@[simp] theorem reproEvent_drains (s : State) (b : Nat) : (reproEvent s b).drains = s.drains := by
  obtain ⟨_, h⟩ := reproEvent_only s b; rw [h]
@[simp] theorem reproEvent_map (s : State) (b : Nat) : (reproEvent s b).map = s.map := by
  obtain ⟨_, h⟩ := reproEvent_only s b; rw [h]
@[simp] theorem reproEvent_cores (s : State) (b : Nat) : (reproEvent s b).cores = s.cores := by
  obtain ⟨_, h⟩ := reproEvent_only s b; rw [h]
@[simp] theorem reproEvent_faults (s : State) (b : Nat) : (reproEvent s b).faults = s.faults := by
  obtain ⟨_, h⟩ := reproEvent_only s b; rw [h]
@[simp] theorem reproEvent_trail (s : State) (b : Nat) : (reproEvent s b).trail = s.trail := by
  obtain ⟨_, h⟩ := reproEvent_only s b; rw [h]
@[simp] theorem reproEvent_power (s : State) (b : Nat) : (reproEvent s b).power = s.power := by
  obtain ⟨_, h⟩ := reproEvent_only s b; rw [h]
@[simp] theorem reproEvent_sec (s : State) (b : Nat) : (reproEvent s b).sec = s.sec := by
  obtain ⟨_, h⟩ := reproEvent_only s b; rw [h]
@[simp] theorem reproEvent_ent (s : State) (b : Nat) : (reproEvent s b).ent = s.ent := by
  obtain ⟨_, h⟩ := reproEvent_only s b; rw [h]
@[simp] theorem reproEvent_ports (s : State) (b : Nat) : (reproEvent s b).ports = s.ports := by
  obtain ⟨_, h⟩ := reproEvent_only s b; rw [h]
@[simp] theorem reproEvent_join (s : State) (b : Nat) : (reproEvent s b).join = s.join := by
  obtain ⟨_, h⟩ := reproEvent_only s b; rw [h]
@[simp] theorem reproEvent_side (s : State) (b : Nat) : (reproEvent s b).side = s.side := by
  obtain ⟨_, h⟩ := reproEvent_only s b; rw [h]
@[simp] theorem reproEvent_tap (s : State) (b : Nat) : (reproEvent s b).tap = s.tap := by
  obtain ⟨_, h⟩ := reproEvent_only s b; rw [h]
@[simp] theorem reproEvent_turn (s : State) (b : Nat) : (reproEvent s b).turn = s.turn := by
  obtain ⟨_, h⟩ := reproEvent_only s b; rw [h]
@[simp] theorem reproEvent_spad (s : State) (b : Nat) : (reproEvent s b).spad = s.spad := by
  obtain ⟨_, h⟩ := reproEvent_only s b; rw [h]
@[simp] theorem reproEvent_slots (s : State) (b : Nat) : (reproEvent s b).slots = s.slots := by
  obtain ⟨_, h⟩ := reproEvent_only s b; rw [h]
@[simp] theorem reproEvent_out (s : State) (b : Nat) : (reproEvent s b).out = s.out := by
  obtain ⟨_, h⟩ := reproEvent_only s b; rw [h]
@[simp] theorem reproEvent_free (s : State) (b : Nat) : (reproEvent s b).free = s.free := by
  obtain ⟨_, h⟩ := reproEvent_only s b; rw [h]

/-! ### The Trail -/

theorem enqueueRec_only (s : State) (r : Rec) : ∃ x y, enqueueRec s r = { s with regs := x, trail := y } := by
  unfold enqueueRec; split
  · exact ⟨_, _, rfl⟩
  · split
    · obtain ⟨x, hx⟩ := bump_only s 0x301C 1; exact ⟨x, s.trail, hx⟩
    · exact ⟨_, _, rfl⟩

/-- The records that wait cost no register but the count of dropped ones. -/
theorem regVal_enqueueRec (s : State) (r : Rec) {b : Nat} (h : b ≠ 0x301C) : regVal (enqueueRec s r) b = regVal s b := by
  unfold enqueueRec; split
  · rfl
  · split
    · exact regVal_bump_other s 1 h
    · rfl

/-- An event changes the Trail and the registers alone. -/
theorem event_only (s : State) (c v u x : Nat) (d : List Byte) : ∃ y z, event s c v u x d = { s with regs := y, trail := z } :=
  enqueueRec_only ..

theorem endInterval_only (s : State) (k : IntervalKey) : ∃ x y, endInterval s k = { s with regs := x, trail := y } := by
  unfold endInterval; split
  · exact ⟨_, _, rfl⟩
  · obtain ⟨x, y, h⟩ := enqueueRec_only { s with trail := { s.trail with intervals := s.trail.intervals.filter (fun j => !(j.key == k)) } } _
    exact ⟨x, y, h⟩

theorem coalesce_only (s : State) (k : IntervalKey) (c v u : Nat) (d : List Byte) :
    ∃ x y, coalesce s k c v u d = { s with regs := x, trail := y } := by
  unfold coalesce; split
  · exact ⟨_, _, rfl⟩
  · split
    · exact ⟨_, _, rfl⟩
    · obtain ⟨x, y, h⟩ := endInterval_only s k
      simp only [h]; exact ⟨_, _, rfl⟩

theorem regVal_coalesce (s : State) (k : IntervalKey) (c v u : Nat) (d : List Byte) {b : Nat} (h : b ≠ 0x301C) :
    regVal (coalesce s k c v u d) b = regVal s b := by
  unfold coalesce; split
  · rfl
  · split
    · rfl
    · show regVal (endInterval s k) b = _
      unfold endInterval; split
      · rfl
      · exact regVal_enqueueRec _ _ h

theorem recordLast_only (s : State) (u : MemUnit) (a k : Nat) : ∃ x, recordLast s u a k = { s with regs := x } := by
  unfold recordLast
  obtain ⟨x, hx⟩ := setReg_only s 0x48008 (a % 2 ^ 32)
  simp only [hx]
  obtain ⟨y, hy⟩ := setReg_only { s with regs := x } 0x4800C
    (a / 2 ^ 32 % 128 + (memCodes u).1 * 2 ^ 8 + k * 2 ^ 11 + (memCodes u).2.1 * 2 ^ 14)
  exact ⟨y, hy⟩

/-- A memory event changes the Trail and the registers alone. -/
theorem memEvent_only (s : State) (u : MemUnit) (a k : Nat) : ∃ x y, memEvent s u a k = { s with regs := x, trail := y } := by
  unfold memEvent
  obtain ⟨x, hx⟩ := recordLast_only s u a k
  simp only [hx]
  obtain ⟨y, z, h⟩ := coalesce_only { s with regs := x } (.memory u) 0x200 (if k = kindCorrected then 1 else 2) (memCodes u).2.2
    (leBytes 8 a ++ leBytes 1 (memCodes u).1 ++ leBytes 1 k)
  exact ⟨y, z, h⟩

@[simp] theorem event_pending (s : State) (c v u x : Nat) (d : List Byte) : (event s c v u x d).pending = s.pending := by
  obtain ⟨_, _, h⟩ := event_only s c v u x d; rw [h]
@[simp] theorem event_rtc (s : State) (c v u x : Nat) (d : List Byte) : (event s c v u x d).rtc = s.rtc := by
  obtain ⟨_, _, h⟩ := event_only s c v u x d; rw [h]
@[simp] theorem event_gptp (s : State) (c v u x : Nat) (d : List Byte) : (event s c v u x d).gptp = s.gptp := by
  obtain ⟨_, _, h⟩ := event_only s c v u x d; rw [h]
@[simp] theorem event_heldRegs (s : State) (c v u x : Nat) (d : List Byte) : (event s c v u x d).heldRegs = s.heldRegs := by
  obtain ⟨_, _, h⟩ := event_only s c v u x d; rw [h]
@[simp] theorem event_paths (s : State) (c v u x : Nat) (d : List Byte) : (event s c v u x d).paths = s.paths := by
  obtain ⟨_, _, h⟩ := event_only s c v u x d; rw [h]
@[simp] theorem event_sessions (s : State) (c v u x : Nat) (d : List Byte) : (event s c v u x d).sessions = s.sessions := by
  obtain ⟨_, _, h⟩ := event_only s c v u x d; rw [h]
@[simp] theorem event_openQueue (s : State) (c v u x : Nat) (d : List Byte) : (event s c v u x d).openQueue = s.openQueue := by
  obtain ⟨_, _, h⟩ := event_only s c v u x d; rw [h]
@[simp] theorem event_taken (s : State) (c v u x : Nat) (d : List Byte) : (event s c v u x d).taken = s.taken := by
  obtain ⟨_, _, h⟩ := event_only s c v u x d; rw [h]
@[simp] theorem event_nonces (s : State) (c v u x : Nat) (d : List Byte) : (event s c v u x d).nonces = s.nonces := by
  obtain ⟨_, _, h⟩ := event_only s c v u x d; rw [h]
@[simp] theorem event_auths (s : State) (c v u x : Nat) (d : List Byte) : (event s c v u x d).auths = s.auths := by
  obtain ⟨_, _, h⟩ := event_only s c v u x d; rw [h]
@[simp] theorem event_cbSeen (s : State) (c v u x : Nat) (d : List Byte) : (event s c v u x d).cbSeen = s.cbSeen := by
  obtain ⟨_, _, h⟩ := event_only s c v u x d; rw [h]
@[simp] theorem event_meters (s : State) (c v u x : Nat) (d : List Byte) : (event s c v u x d).meters = s.meters := by
  obtain ⟨_, _, h⟩ := event_only s c v u x d; rw [h]
@[simp] theorem event_eth (s : State) (c v u x : Nat) (d : List Byte) : (event s c v u x d).eth = s.eth := by
  obtain ⟨_, _, h⟩ := event_only s c v u x d; rw [h]
@[simp] theorem event_unsent (s : State) (c v u x : Nat) (d : List Byte) : (event s c v u x d).unsent = s.unsent := by
  obtain ⟨_, _, h⟩ := event_only s c v u x d; rw [h]
@[simp] theorem event_models (s : State) (c v u x : Nat) (d : List Byte) : (event s c v u x d).models = s.models := by
  obtain ⟨_, _, h⟩ := event_only s c v u x d; rw [h]
@[simp] theorem event_modelGens (s : State) (c v u x : Nat) (d : List Byte) : (event s c v u x d).modelGens = s.modelGens := by
  obtain ⟨_, _, h⟩ := event_only s c v u x d; rw [h]
@[simp] theorem event_ctxs (s : State) (c v u x : Nat) (d : List Byte) : (event s c v u x d).ctxs = s.ctxs := by
  obtain ⟨_, _, h⟩ := event_only s c v u x d; rw [h]
@[simp] theorem event_ctxGens (s : State) (c v u x : Nat) (d : List Byte) : (event s c v u x d).ctxGens = s.ctxGens := by
  obtain ⟨_, _, h⟩ := event_only s c v u x d; rw [h]
@[simp] theorem event_hbm (s : State) (c v u x : Nat) (d : List Byte) : (event s c v u x d).hbm = s.hbm := by
  obtain ⟨_, _, h⟩ := event_only s c v u x d; rw [h]
@[simp] theorem event_marks (s : State) (c v u x : Nat) (d : List Byte) : (event s c v u x d).marks = s.marks := by
  obtain ⟨_, _, h⟩ := event_only s c v u x d; rw [h]
@[simp] theorem event_spadMarks (s : State) (c v u x : Nat) (d : List Byte) : (event s c v u x d).spadMarks = s.spadMarks := by
  obtain ⟨_, _, h⟩ := event_only s c v u x d; rw [h]
@[simp] theorem event_otherMarks (s : State) (c v u x : Nat) (d : List Byte) : (event s c v u x d).otherMarks = s.otherMarks := by
  obtain ⟨_, _, h⟩ := event_only s c v u x d; rw [h]
@[simp] theorem event_writeBacks (s : State) (c v u x : Nat) (d : List Byte) : (event s c v u x d).writeBacks = s.writeBacks := by
  obtain ⟨_, _, h⟩ := event_only s c v u x d; rw [h]
@[simp] theorem event_walkers (s : State) (c v u x : Nat) (d : List Byte) : (event s c v u x d).walkers = s.walkers := by
  obtain ⟨_, _, h⟩ := event_only s c v u x d; rw [h]
@[simp] theorem event_moves (s : State) (c v u x : Nat) (d : List Byte) : (event s c v u x d).moves = s.moves := by
  obtain ⟨_, _, h⟩ := event_only s c v u x d; rw [h]
@[simp] theorem event_fills (s : State) (c v u x : Nat) (d : List Byte) : (event s c v u x d).fills = s.fills := by
  obtain ⟨_, _, h⟩ := event_only s c v u x d; rw [h]
@[simp] theorem event_loads (s : State) (c v u x : Nat) (d : List Byte) : (event s c v u x d).loads = s.loads := by
  obtain ⟨_, _, h⟩ := event_only s c v u x d; rw [h]
@[simp] theorem event_saves (s : State) (c v u x : Nat) (d : List Byte) : (event s c v u x d).saves = s.saves := by
  obtain ⟨_, _, h⟩ := event_only s c v u x d; rw [h]
@[simp] theorem event_destroys (s : State) (c v u x : Nat) (d : List Byte) : (event s c v u x d).destroys = s.destroys := by
  obtain ⟨_, _, h⟩ := event_only s c v u x d; rw [h]
@[simp] theorem event_progs (s : State) (c v u x : Nat) (d : List Byte) : (event s c v u x d).progs = s.progs := by
  obtain ⟨_, _, h⟩ := event_only s c v u x d; rw [h]
@[simp] theorem event_drains (s : State) (c v u x : Nat) (d : List Byte) : (event s c v u x d).drains = s.drains := by
  obtain ⟨_, _, h⟩ := event_only s c v u x d; rw [h]
@[simp] theorem event_map (s : State) (c v u x : Nat) (d : List Byte) : (event s c v u x d).map = s.map := by
  obtain ⟨_, _, h⟩ := event_only s c v u x d; rw [h]
@[simp] theorem event_cores (s : State) (c v u x : Nat) (d : List Byte) : (event s c v u x d).cores = s.cores := by
  obtain ⟨_, _, h⟩ := event_only s c v u x d; rw [h]
@[simp] theorem event_faults (s : State) (c v u x : Nat) (d : List Byte) : (event s c v u x d).faults = s.faults := by
  obtain ⟨_, _, h⟩ := event_only s c v u x d; rw [h]
@[simp] theorem event_power (s : State) (c v u x : Nat) (d : List Byte) : (event s c v u x d).power = s.power := by
  obtain ⟨_, _, h⟩ := event_only s c v u x d; rw [h]
@[simp] theorem event_sec (s : State) (c v u x : Nat) (d : List Byte) : (event s c v u x d).sec = s.sec := by
  obtain ⟨_, _, h⟩ := event_only s c v u x d; rw [h]
@[simp] theorem event_ent (s : State) (c v u x : Nat) (d : List Byte) : (event s c v u x d).ent = s.ent := by
  obtain ⟨_, _, h⟩ := event_only s c v u x d; rw [h]
@[simp] theorem event_ports (s : State) (c v u x : Nat) (d : List Byte) : (event s c v u x d).ports = s.ports := by
  obtain ⟨_, _, h⟩ := event_only s c v u x d; rw [h]
@[simp] theorem event_join (s : State) (c v u x : Nat) (d : List Byte) : (event s c v u x d).join = s.join := by
  obtain ⟨_, _, h⟩ := event_only s c v u x d; rw [h]
@[simp] theorem event_side (s : State) (c v u x : Nat) (d : List Byte) : (event s c v u x d).side = s.side := by
  obtain ⟨_, _, h⟩ := event_only s c v u x d; rw [h]
@[simp] theorem event_tap (s : State) (c v u x : Nat) (d : List Byte) : (event s c v u x d).tap = s.tap := by
  obtain ⟨_, _, h⟩ := event_only s c v u x d; rw [h]
@[simp] theorem event_turn (s : State) (c v u x : Nat) (d : List Byte) : (event s c v u x d).turn = s.turn := by
  obtain ⟨_, _, h⟩ := event_only s c v u x d; rw [h]
@[simp] theorem event_spad (s : State) (c v u x : Nat) (d : List Byte) : (event s c v u x d).spad = s.spad := by
  obtain ⟨_, _, h⟩ := event_only s c v u x d; rw [h]
@[simp] theorem event_slots (s : State) (c v u x : Nat) (d : List Byte) : (event s c v u x d).slots = s.slots := by
  obtain ⟨_, _, h⟩ := event_only s c v u x d; rw [h]
@[simp] theorem event_out (s : State) (c v u x : Nat) (d : List Byte) : (event s c v u x d).out = s.out := by
  obtain ⟨_, _, h⟩ := event_only s c v u x d; rw [h]
@[simp] theorem event_free (s : State) (c v u x : Nat) (d : List Byte) : (event s c v u x d).free = s.free := by
  obtain ⟨_, _, h⟩ := event_only s c v u x d; rw [h]

@[simp] theorem coalesce_pending (s : State) (k : IntervalKey) (c v u : Nat) (d : List Byte) : (coalesce s k c v u d).pending = s.pending := by
  obtain ⟨_, _, h⟩ := coalesce_only s k c v u d; rw [h]
@[simp] theorem coalesce_rtc (s : State) (k : IntervalKey) (c v u : Nat) (d : List Byte) : (coalesce s k c v u d).rtc = s.rtc := by
  obtain ⟨_, _, h⟩ := coalesce_only s k c v u d; rw [h]
@[simp] theorem coalesce_gptp (s : State) (k : IntervalKey) (c v u : Nat) (d : List Byte) : (coalesce s k c v u d).gptp = s.gptp := by
  obtain ⟨_, _, h⟩ := coalesce_only s k c v u d; rw [h]
@[simp] theorem coalesce_heldRegs (s : State) (k : IntervalKey) (c v u : Nat) (d : List Byte) : (coalesce s k c v u d).heldRegs = s.heldRegs := by
  obtain ⟨_, _, h⟩ := coalesce_only s k c v u d; rw [h]
@[simp] theorem coalesce_paths (s : State) (k : IntervalKey) (c v u : Nat) (d : List Byte) : (coalesce s k c v u d).paths = s.paths := by
  obtain ⟨_, _, h⟩ := coalesce_only s k c v u d; rw [h]
@[simp] theorem coalesce_sessions (s : State) (k : IntervalKey) (c v u : Nat) (d : List Byte) : (coalesce s k c v u d).sessions = s.sessions := by
  obtain ⟨_, _, h⟩ := coalesce_only s k c v u d; rw [h]
@[simp] theorem coalesce_openQueue (s : State) (k : IntervalKey) (c v u : Nat) (d : List Byte) : (coalesce s k c v u d).openQueue = s.openQueue := by
  obtain ⟨_, _, h⟩ := coalesce_only s k c v u d; rw [h]
@[simp] theorem coalesce_taken (s : State) (k : IntervalKey) (c v u : Nat) (d : List Byte) : (coalesce s k c v u d).taken = s.taken := by
  obtain ⟨_, _, h⟩ := coalesce_only s k c v u d; rw [h]
@[simp] theorem coalesce_nonces (s : State) (k : IntervalKey) (c v u : Nat) (d : List Byte) : (coalesce s k c v u d).nonces = s.nonces := by
  obtain ⟨_, _, h⟩ := coalesce_only s k c v u d; rw [h]
@[simp] theorem coalesce_auths (s : State) (k : IntervalKey) (c v u : Nat) (d : List Byte) : (coalesce s k c v u d).auths = s.auths := by
  obtain ⟨_, _, h⟩ := coalesce_only s k c v u d; rw [h]
@[simp] theorem coalesce_cbSeen (s : State) (k : IntervalKey) (c v u : Nat) (d : List Byte) : (coalesce s k c v u d).cbSeen = s.cbSeen := by
  obtain ⟨_, _, h⟩ := coalesce_only s k c v u d; rw [h]
@[simp] theorem coalesce_meters (s : State) (k : IntervalKey) (c v u : Nat) (d : List Byte) : (coalesce s k c v u d).meters = s.meters := by
  obtain ⟨_, _, h⟩ := coalesce_only s k c v u d; rw [h]
@[simp] theorem coalesce_eth (s : State) (k : IntervalKey) (c v u : Nat) (d : List Byte) : (coalesce s k c v u d).eth = s.eth := by
  obtain ⟨_, _, h⟩ := coalesce_only s k c v u d; rw [h]
@[simp] theorem coalesce_unsent (s : State) (k : IntervalKey) (c v u : Nat) (d : List Byte) : (coalesce s k c v u d).unsent = s.unsent := by
  obtain ⟨_, _, h⟩ := coalesce_only s k c v u d; rw [h]
@[simp] theorem coalesce_models (s : State) (k : IntervalKey) (c v u : Nat) (d : List Byte) : (coalesce s k c v u d).models = s.models := by
  obtain ⟨_, _, h⟩ := coalesce_only s k c v u d; rw [h]
@[simp] theorem coalesce_modelGens (s : State) (k : IntervalKey) (c v u : Nat) (d : List Byte) : (coalesce s k c v u d).modelGens = s.modelGens := by
  obtain ⟨_, _, h⟩ := coalesce_only s k c v u d; rw [h]
@[simp] theorem coalesce_ctxs (s : State) (k : IntervalKey) (c v u : Nat) (d : List Byte) : (coalesce s k c v u d).ctxs = s.ctxs := by
  obtain ⟨_, _, h⟩ := coalesce_only s k c v u d; rw [h]
@[simp] theorem coalesce_ctxGens (s : State) (k : IntervalKey) (c v u : Nat) (d : List Byte) : (coalesce s k c v u d).ctxGens = s.ctxGens := by
  obtain ⟨_, _, h⟩ := coalesce_only s k c v u d; rw [h]
@[simp] theorem coalesce_hbm (s : State) (k : IntervalKey) (c v u : Nat) (d : List Byte) : (coalesce s k c v u d).hbm = s.hbm := by
  obtain ⟨_, _, h⟩ := coalesce_only s k c v u d; rw [h]
@[simp] theorem coalesce_marks (s : State) (k : IntervalKey) (c v u : Nat) (d : List Byte) : (coalesce s k c v u d).marks = s.marks := by
  obtain ⟨_, _, h⟩ := coalesce_only s k c v u d; rw [h]
@[simp] theorem coalesce_spadMarks (s : State) (k : IntervalKey) (c v u : Nat) (d : List Byte) : (coalesce s k c v u d).spadMarks = s.spadMarks := by
  obtain ⟨_, _, h⟩ := coalesce_only s k c v u d; rw [h]
@[simp] theorem coalesce_otherMarks (s : State) (k : IntervalKey) (c v u : Nat) (d : List Byte) : (coalesce s k c v u d).otherMarks = s.otherMarks := by
  obtain ⟨_, _, h⟩ := coalesce_only s k c v u d; rw [h]
@[simp] theorem coalesce_writeBacks (s : State) (k : IntervalKey) (c v u : Nat) (d : List Byte) : (coalesce s k c v u d).writeBacks = s.writeBacks := by
  obtain ⟨_, _, h⟩ := coalesce_only s k c v u d; rw [h]
@[simp] theorem coalesce_walkers (s : State) (k : IntervalKey) (c v u : Nat) (d : List Byte) : (coalesce s k c v u d).walkers = s.walkers := by
  obtain ⟨_, _, h⟩ := coalesce_only s k c v u d; rw [h]
@[simp] theorem coalesce_moves (s : State) (k : IntervalKey) (c v u : Nat) (d : List Byte) : (coalesce s k c v u d).moves = s.moves := by
  obtain ⟨_, _, h⟩ := coalesce_only s k c v u d; rw [h]
@[simp] theorem coalesce_fills (s : State) (k : IntervalKey) (c v u : Nat) (d : List Byte) : (coalesce s k c v u d).fills = s.fills := by
  obtain ⟨_, _, h⟩ := coalesce_only s k c v u d; rw [h]
@[simp] theorem coalesce_loads (s : State) (k : IntervalKey) (c v u : Nat) (d : List Byte) : (coalesce s k c v u d).loads = s.loads := by
  obtain ⟨_, _, h⟩ := coalesce_only s k c v u d; rw [h]
@[simp] theorem coalesce_saves (s : State) (k : IntervalKey) (c v u : Nat) (d : List Byte) : (coalesce s k c v u d).saves = s.saves := by
  obtain ⟨_, _, h⟩ := coalesce_only s k c v u d; rw [h]
@[simp] theorem coalesce_destroys (s : State) (k : IntervalKey) (c v u : Nat) (d : List Byte) : (coalesce s k c v u d).destroys = s.destroys := by
  obtain ⟨_, _, h⟩ := coalesce_only s k c v u d; rw [h]
@[simp] theorem coalesce_progs (s : State) (k : IntervalKey) (c v u : Nat) (d : List Byte) : (coalesce s k c v u d).progs = s.progs := by
  obtain ⟨_, _, h⟩ := coalesce_only s k c v u d; rw [h]
@[simp] theorem coalesce_drains (s : State) (k : IntervalKey) (c v u : Nat) (d : List Byte) : (coalesce s k c v u d).drains = s.drains := by
  obtain ⟨_, _, h⟩ := coalesce_only s k c v u d; rw [h]
@[simp] theorem coalesce_map (s : State) (k : IntervalKey) (c v u : Nat) (d : List Byte) : (coalesce s k c v u d).map = s.map := by
  obtain ⟨_, _, h⟩ := coalesce_only s k c v u d; rw [h]
@[simp] theorem coalesce_cores (s : State) (k : IntervalKey) (c v u : Nat) (d : List Byte) : (coalesce s k c v u d).cores = s.cores := by
  obtain ⟨_, _, h⟩ := coalesce_only s k c v u d; rw [h]
@[simp] theorem coalesce_faults (s : State) (k : IntervalKey) (c v u : Nat) (d : List Byte) : (coalesce s k c v u d).faults = s.faults := by
  obtain ⟨_, _, h⟩ := coalesce_only s k c v u d; rw [h]
@[simp] theorem coalesce_power (s : State) (k : IntervalKey) (c v u : Nat) (d : List Byte) : (coalesce s k c v u d).power = s.power := by
  obtain ⟨_, _, h⟩ := coalesce_only s k c v u d; rw [h]
@[simp] theorem coalesce_sec (s : State) (k : IntervalKey) (c v u : Nat) (d : List Byte) : (coalesce s k c v u d).sec = s.sec := by
  obtain ⟨_, _, h⟩ := coalesce_only s k c v u d; rw [h]
@[simp] theorem coalesce_ent (s : State) (k : IntervalKey) (c v u : Nat) (d : List Byte) : (coalesce s k c v u d).ent = s.ent := by
  obtain ⟨_, _, h⟩ := coalesce_only s k c v u d; rw [h]
@[simp] theorem coalesce_ports (s : State) (k : IntervalKey) (c v u : Nat) (d : List Byte) : (coalesce s k c v u d).ports = s.ports := by
  obtain ⟨_, _, h⟩ := coalesce_only s k c v u d; rw [h]
@[simp] theorem coalesce_join (s : State) (k : IntervalKey) (c v u : Nat) (d : List Byte) : (coalesce s k c v u d).join = s.join := by
  obtain ⟨_, _, h⟩ := coalesce_only s k c v u d; rw [h]
@[simp] theorem coalesce_side (s : State) (k : IntervalKey) (c v u : Nat) (d : List Byte) : (coalesce s k c v u d).side = s.side := by
  obtain ⟨_, _, h⟩ := coalesce_only s k c v u d; rw [h]
@[simp] theorem coalesce_tap (s : State) (k : IntervalKey) (c v u : Nat) (d : List Byte) : (coalesce s k c v u d).tap = s.tap := by
  obtain ⟨_, _, h⟩ := coalesce_only s k c v u d; rw [h]
@[simp] theorem coalesce_turn (s : State) (k : IntervalKey) (c v u : Nat) (d : List Byte) : (coalesce s k c v u d).turn = s.turn := by
  obtain ⟨_, _, h⟩ := coalesce_only s k c v u d; rw [h]
@[simp] theorem coalesce_spad (s : State) (k : IntervalKey) (c v u : Nat) (d : List Byte) : (coalesce s k c v u d).spad = s.spad := by
  obtain ⟨_, _, h⟩ := coalesce_only s k c v u d; rw [h]
@[simp] theorem coalesce_slots (s : State) (k : IntervalKey) (c v u : Nat) (d : List Byte) : (coalesce s k c v u d).slots = s.slots := by
  obtain ⟨_, _, h⟩ := coalesce_only s k c v u d; rw [h]
@[simp] theorem coalesce_out (s : State) (k : IntervalKey) (c v u : Nat) (d : List Byte) : (coalesce s k c v u d).out = s.out := by
  obtain ⟨_, _, h⟩ := coalesce_only s k c v u d; rw [h]
@[simp] theorem coalesce_free (s : State) (k : IntervalKey) (c v u : Nat) (d : List Byte) : (coalesce s k c v u d).free = s.free := by
  obtain ⟨_, _, h⟩ := coalesce_only s k c v u d; rw [h]

@[simp] theorem memEvent_pending (s : State) (u : MemUnit) (a k : Nat) : (memEvent s u a k).pending = s.pending := by
  obtain ⟨_, _, h⟩ := memEvent_only s u a k; rw [h]
@[simp] theorem memEvent_rtc (s : State) (u : MemUnit) (a k : Nat) : (memEvent s u a k).rtc = s.rtc := by
  obtain ⟨_, _, h⟩ := memEvent_only s u a k; rw [h]
@[simp] theorem memEvent_gptp (s : State) (u : MemUnit) (a k : Nat) : (memEvent s u a k).gptp = s.gptp := by
  obtain ⟨_, _, h⟩ := memEvent_only s u a k; rw [h]
@[simp] theorem memEvent_heldRegs (s : State) (u : MemUnit) (a k : Nat) : (memEvent s u a k).heldRegs = s.heldRegs := by
  obtain ⟨_, _, h⟩ := memEvent_only s u a k; rw [h]
@[simp] theorem memEvent_paths (s : State) (u : MemUnit) (a k : Nat) : (memEvent s u a k).paths = s.paths := by
  obtain ⟨_, _, h⟩ := memEvent_only s u a k; rw [h]
@[simp] theorem memEvent_sessions (s : State) (u : MemUnit) (a k : Nat) : (memEvent s u a k).sessions = s.sessions := by
  obtain ⟨_, _, h⟩ := memEvent_only s u a k; rw [h]
@[simp] theorem memEvent_openQueue (s : State) (u : MemUnit) (a k : Nat) : (memEvent s u a k).openQueue = s.openQueue := by
  obtain ⟨_, _, h⟩ := memEvent_only s u a k; rw [h]
@[simp] theorem memEvent_taken (s : State) (u : MemUnit) (a k : Nat) : (memEvent s u a k).taken = s.taken := by
  obtain ⟨_, _, h⟩ := memEvent_only s u a k; rw [h]
@[simp] theorem memEvent_nonces (s : State) (u : MemUnit) (a k : Nat) : (memEvent s u a k).nonces = s.nonces := by
  obtain ⟨_, _, h⟩ := memEvent_only s u a k; rw [h]
@[simp] theorem memEvent_auths (s : State) (u : MemUnit) (a k : Nat) : (memEvent s u a k).auths = s.auths := by
  obtain ⟨_, _, h⟩ := memEvent_only s u a k; rw [h]
@[simp] theorem memEvent_cbSeen (s : State) (u : MemUnit) (a k : Nat) : (memEvent s u a k).cbSeen = s.cbSeen := by
  obtain ⟨_, _, h⟩ := memEvent_only s u a k; rw [h]
@[simp] theorem memEvent_meters (s : State) (u : MemUnit) (a k : Nat) : (memEvent s u a k).meters = s.meters := by
  obtain ⟨_, _, h⟩ := memEvent_only s u a k; rw [h]
@[simp] theorem memEvent_eth (s : State) (u : MemUnit) (a k : Nat) : (memEvent s u a k).eth = s.eth := by
  obtain ⟨_, _, h⟩ := memEvent_only s u a k; rw [h]
@[simp] theorem memEvent_unsent (s : State) (u : MemUnit) (a k : Nat) : (memEvent s u a k).unsent = s.unsent := by
  obtain ⟨_, _, h⟩ := memEvent_only s u a k; rw [h]
@[simp] theorem memEvent_models (s : State) (u : MemUnit) (a k : Nat) : (memEvent s u a k).models = s.models := by
  obtain ⟨_, _, h⟩ := memEvent_only s u a k; rw [h]
@[simp] theorem memEvent_modelGens (s : State) (u : MemUnit) (a k : Nat) : (memEvent s u a k).modelGens = s.modelGens := by
  obtain ⟨_, _, h⟩ := memEvent_only s u a k; rw [h]
@[simp] theorem memEvent_ctxs (s : State) (u : MemUnit) (a k : Nat) : (memEvent s u a k).ctxs = s.ctxs := by
  obtain ⟨_, _, h⟩ := memEvent_only s u a k; rw [h]
@[simp] theorem memEvent_ctxGens (s : State) (u : MemUnit) (a k : Nat) : (memEvent s u a k).ctxGens = s.ctxGens := by
  obtain ⟨_, _, h⟩ := memEvent_only s u a k; rw [h]
@[simp] theorem memEvent_hbm (s : State) (u : MemUnit) (a k : Nat) : (memEvent s u a k).hbm = s.hbm := by
  obtain ⟨_, _, h⟩ := memEvent_only s u a k; rw [h]
@[simp] theorem memEvent_marks (s : State) (u : MemUnit) (a k : Nat) : (memEvent s u a k).marks = s.marks := by
  obtain ⟨_, _, h⟩ := memEvent_only s u a k; rw [h]
@[simp] theorem memEvent_spadMarks (s : State) (u : MemUnit) (a k : Nat) : (memEvent s u a k).spadMarks = s.spadMarks := by
  obtain ⟨_, _, h⟩ := memEvent_only s u a k; rw [h]
@[simp] theorem memEvent_otherMarks (s : State) (u : MemUnit) (a k : Nat) : (memEvent s u a k).otherMarks = s.otherMarks := by
  obtain ⟨_, _, h⟩ := memEvent_only s u a k; rw [h]
@[simp] theorem memEvent_writeBacks (s : State) (u : MemUnit) (a k : Nat) : (memEvent s u a k).writeBacks = s.writeBacks := by
  obtain ⟨_, _, h⟩ := memEvent_only s u a k; rw [h]
@[simp] theorem memEvent_walkers (s : State) (u : MemUnit) (a k : Nat) : (memEvent s u a k).walkers = s.walkers := by
  obtain ⟨_, _, h⟩ := memEvent_only s u a k; rw [h]
@[simp] theorem memEvent_moves (s : State) (u : MemUnit) (a k : Nat) : (memEvent s u a k).moves = s.moves := by
  obtain ⟨_, _, h⟩ := memEvent_only s u a k; rw [h]
@[simp] theorem memEvent_fills (s : State) (u : MemUnit) (a k : Nat) : (memEvent s u a k).fills = s.fills := by
  obtain ⟨_, _, h⟩ := memEvent_only s u a k; rw [h]
@[simp] theorem memEvent_loads (s : State) (u : MemUnit) (a k : Nat) : (memEvent s u a k).loads = s.loads := by
  obtain ⟨_, _, h⟩ := memEvent_only s u a k; rw [h]
@[simp] theorem memEvent_saves (s : State) (u : MemUnit) (a k : Nat) : (memEvent s u a k).saves = s.saves := by
  obtain ⟨_, _, h⟩ := memEvent_only s u a k; rw [h]
@[simp] theorem memEvent_destroys (s : State) (u : MemUnit) (a k : Nat) : (memEvent s u a k).destroys = s.destroys := by
  obtain ⟨_, _, h⟩ := memEvent_only s u a k; rw [h]
@[simp] theorem memEvent_progs (s : State) (u : MemUnit) (a k : Nat) : (memEvent s u a k).progs = s.progs := by
  obtain ⟨_, _, h⟩ := memEvent_only s u a k; rw [h]
@[simp] theorem memEvent_drains (s : State) (u : MemUnit) (a k : Nat) : (memEvent s u a k).drains = s.drains := by
  obtain ⟨_, _, h⟩ := memEvent_only s u a k; rw [h]
@[simp] theorem memEvent_map (s : State) (u : MemUnit) (a k : Nat) : (memEvent s u a k).map = s.map := by
  obtain ⟨_, _, h⟩ := memEvent_only s u a k; rw [h]
@[simp] theorem memEvent_cores (s : State) (u : MemUnit) (a k : Nat) : (memEvent s u a k).cores = s.cores := by
  obtain ⟨_, _, h⟩ := memEvent_only s u a k; rw [h]
@[simp] theorem memEvent_faults (s : State) (u : MemUnit) (a k : Nat) : (memEvent s u a k).faults = s.faults := by
  obtain ⟨_, _, h⟩ := memEvent_only s u a k; rw [h]
@[simp] theorem memEvent_power (s : State) (u : MemUnit) (a k : Nat) : (memEvent s u a k).power = s.power := by
  obtain ⟨_, _, h⟩ := memEvent_only s u a k; rw [h]
@[simp] theorem memEvent_sec (s : State) (u : MemUnit) (a k : Nat) : (memEvent s u a k).sec = s.sec := by
  obtain ⟨_, _, h⟩ := memEvent_only s u a k; rw [h]
@[simp] theorem memEvent_ent (s : State) (u : MemUnit) (a k : Nat) : (memEvent s u a k).ent = s.ent := by
  obtain ⟨_, _, h⟩ := memEvent_only s u a k; rw [h]
@[simp] theorem memEvent_ports (s : State) (u : MemUnit) (a k : Nat) : (memEvent s u a k).ports = s.ports := by
  obtain ⟨_, _, h⟩ := memEvent_only s u a k; rw [h]
@[simp] theorem memEvent_join (s : State) (u : MemUnit) (a k : Nat) : (memEvent s u a k).join = s.join := by
  obtain ⟨_, _, h⟩ := memEvent_only s u a k; rw [h]
@[simp] theorem memEvent_side (s : State) (u : MemUnit) (a k : Nat) : (memEvent s u a k).side = s.side := by
  obtain ⟨_, _, h⟩ := memEvent_only s u a k; rw [h]
@[simp] theorem memEvent_tap (s : State) (u : MemUnit) (a k : Nat) : (memEvent s u a k).tap = s.tap := by
  obtain ⟨_, _, h⟩ := memEvent_only s u a k; rw [h]
@[simp] theorem memEvent_turn (s : State) (u : MemUnit) (a k : Nat) : (memEvent s u a k).turn = s.turn := by
  obtain ⟨_, _, h⟩ := memEvent_only s u a k; rw [h]
@[simp] theorem memEvent_spad (s : State) (u : MemUnit) (a k : Nat) : (memEvent s u a k).spad = s.spad := by
  obtain ⟨_, _, h⟩ := memEvent_only s u a k; rw [h]
@[simp] theorem memEvent_slots (s : State) (u : MemUnit) (a k : Nat) : (memEvent s u a k).slots = s.slots := by
  obtain ⟨_, _, h⟩ := memEvent_only s u a k; rw [h]
@[simp] theorem memEvent_out (s : State) (u : MemUnit) (a k : Nat) : (memEvent s u a k).out = s.out := by
  obtain ⟨_, _, h⟩ := memEvent_only s u a k; rw [h]
@[simp] theorem memEvent_free (s : State) (u : MemUnit) (a k : Nat) : (memEvent s u a k).free = s.free := by
  obtain ⟨_, _, h⟩ := memEvent_only s u a k; rw [h]

end Sys2Proof.Machine
end

