-- ==== Sys2Proof/Laws/Memory.lean ====
section
/-!
SUPPORT. What the operations over HBM can change, and that each keeps the canonical form of the memory: addresses strictly
rising.
-/

namespace Sys2Proof.Machine

/-! ### What reads and writes change -/

theorem memTrail_only (s : State) (u : MemUnit) (a k : Nat) : ∃ x y, memTrail s u a k = { s with regs := x, trail := y } :=
  coalesce_only ..

theorem corrected_only (s : State) (u : MemUnit) (a : Nat) (first : Bool) :
    ∃ x y z, corrected s u a first = { s with regs := x, trail := y, writeBacks := z } := by
  unfold corrected
  obtain ⟨x, hx⟩ := bump_only s 0x48014 1
  obtain ⟨x', hx'⟩ : ∃ x', (if first then recordLast { s with regs := x } u (eventAddr u a) kindCorrected
      else { s with regs := x }) = { s with regs := x' } := by
    split
    · obtain ⟨x', h⟩ := recordLast_only { s with regs := x } u (eventAddr u a) kindCorrected; exact ⟨x', h⟩
    · exact ⟨x, rfl⟩
  obtain ⟨y, z, h⟩ := memTrail_only { s with regs := x' } u (eventAddr u a) kindCorrected
  simp only [hx, hx', h]
  split
  · exact ⟨y, z, _, rfl⟩
  · split <;> exact ⟨y, z, _, rfl⟩

theorem badRead_only (s : State) (u : MemUnit) (a : Nat) (m : Option WordClass) :
    ∃ x y, badRead s u a m = { s with regs := x, trail := y } := by
  unfold badRead
  obtain ⟨x, hx⟩ := bump_only s 0x48020 1
  obtain ⟨x', hx'⟩ := bump_only { s with regs := x } 0x48018 1
  simp only [hx]
  split
  · obtain ⟨y, z, h⟩ := memEvent_only { s with regs := x } u (eventAddr u a) kindPoisoned; exact ⟨y, z, h⟩
  · obtain ⟨y, z, h⟩ := memEvent_only { s with regs := x } u (eventAddr u a) kindSealed; exact ⟨y, z, h⟩
  · simp only [hx']
    obtain ⟨y, z, h⟩ := memEvent_only { s with regs := x' } u (eventAddr u a) kindUncorrectable; exact ⟨y, z, h⟩
  · obtain ⟨y, z, h⟩ := memEvent_only { s with regs := x } u (eventAddr u a) kindSealed; exact ⟨y, z, h⟩

theorem readWords_only (n w : Nat) (cells : List Host.Cell) (last : Nat) (s : State) :
    ∃ x y z, (readWords n w cells last s).2.2 = { s with regs := x, trail := y, writeBacks := z } := by
  induction n generalizing w cells last s with
  | zero => exact ⟨_, _, _, rfl⟩
  | succ n ih =>
    simp only [readWords]
    split
    · split
      · exact ih ..
      · obtain ⟨x, y, z, h⟩ := corrected_only s (.hbm (stackOf w)) w (last != w / 64 + 1)
        obtain ⟨x', y', z', h'⟩ := ih (w + 8) (cells.dropWhile (fun c => c.1 < w + 8)) (w / 64 + 1)
          (corrected s (.hbm (stackOf w)) w (last != w / 64 + 1))
        exact ⟨x', y', z', by rw [h']; simp only [h]⟩
    · obtain ⟨x, y, h⟩ := badRead_only s (.hbm (stackOf w)) w (lookup s.marks w)
      exact ⟨x, y, s.writeBacks, h⟩

theorem readPart_only (s : State) (a n : Nat) :
    ∃ x y z, (readPart s a n).2.2 = { s with regs := x, trail := y, writeBacks := z } := by
  unfold readPart; split
  · exact ⟨_, _, _, rfl⟩
  · exact readWords_only ..

/-- A read of HBM changes registers, the Trail and the write-backs that are due alone. -/
theorem readHbm_only (s : State) (a n : Nat) :
    ∃ x y z, (readHbm s a n).2 = { s with regs := x, trail := y, writeBacks := z } := readPart_only s a n

theorem writeWords_only (s : State) (a : Nat) (bs : List Byte) :
    ∃ x y z, writeWords s a bs = { s with hbm := x, marks := y, writeBacks := z } := by
  unfold writeWords; split <;> exact ⟨_, _, _, rfl⟩

theorem narrowWrite_only (s : State) (a : Nat) (bs : List Byte) :
    ∃ v w x y z, narrowWrite s a bs = { s with regs := v, trail := w, hbm := x, marks := y, writeBacks := z } := by
  unfold narrowWrite
  dsimp only
  split
  · exact ⟨_, _, _, _, _, rfl⟩
  · split
    · split <;> exact ⟨_, _, _, _, _, rfl⟩
    · obtain ⟨x, hx⟩ := bump_only s 0x48014 1
      obtain ⟨y, z, h⟩ := memEvent_only { s with regs := x } (.hbm (stackOf (a / 8 * 8))) (a / 8 * 8) kindCorrected
      simp only [hx, h]; exact ⟨_, _, _, _, _, rfl⟩
    · obtain ⟨x, hx⟩ := bump_only s 0x4801C 1
      obtain ⟨y, z, h⟩ := memEvent_only { s with regs := x } (.hbm (stackOf (a / 8 * 8))) (a / 8 * 8) kindPoisonWritten
      simp only [hx, h]; exact ⟨_, _, _, _, _, rfl⟩
    · exact ⟨_, _, _, _, _, rfl⟩

/-- A write of HBM changes the memory, its marks and write-backs, registers and the Trail alone. -/
theorem writeHbm_only (s : State) (a : Nat) (bs : List Byte) :
    ∃ v w x y z, writeHbm s a bs = { s with regs := v, trail := w, hbm := x, marks := y, writeBacks := z } := by
  unfold writeHbm
  obtain ⟨v1, w1, x1, y1, z1, h1⟩ := narrowWrite_only s a (bs.take (if a % 8 = 0 then 0 else min bs.length (8 - a % 8)))
  simp only [h1]
  obtain ⟨x2, y2, z2, h2⟩ := writeWords_only { s with regs := v1, trail := w1, hbm := x1, marks := y1, writeBacks := z1 }
    (a + (if a % 8 = 0 then 0 else min bs.length (8 - a % 8)))
    ((bs.drop (if a % 8 = 0 then 0 else min bs.length (8 - a % 8))).take
      ((bs.length - (if a % 8 = 0 then 0 else min bs.length (8 - a % 8))) / 8 * 8))
  simp only [h2]
  obtain ⟨v3, w3, x3, y3, z3, h3⟩ := narrowWrite_only { s with regs := v1, trail := w1, hbm := x2, marks := y2, writeBacks := z2 }
    (a + (if a % 8 = 0 then 0 else min bs.length (8 - a % 8)) +
      (bs.length - (if a % 8 = 0 then 0 else min bs.length (8 - a % 8))) / 8 * 8)
    (bs.drop ((if a % 8 = 0 then 0 else min bs.length (8 - a % 8)) +
      (bs.length - (if a % 8 = 0 then 0 else min bs.length (8 - a % 8))) / 8 * 8))
  exact ⟨v3, w3, x3, y3, z3, h3⟩

@[simp] theorem readHbm_pending (s : State) (a n : Nat) : ((readHbm s a n).2).pending = s.pending := by
  obtain ⟨_, _, _, h⟩ := readHbm_only s a n; rw [h]
@[simp] theorem readHbm_rtc (s : State) (a n : Nat) : ((readHbm s a n).2).rtc = s.rtc := by
  obtain ⟨_, _, _, h⟩ := readHbm_only s a n; rw [h]
@[simp] theorem readHbm_gptp (s : State) (a n : Nat) : ((readHbm s a n).2).gptp = s.gptp := by
  obtain ⟨_, _, _, h⟩ := readHbm_only s a n; rw [h]
@[simp] theorem readHbm_heldRegs (s : State) (a n : Nat) : ((readHbm s a n).2).heldRegs = s.heldRegs := by
  obtain ⟨_, _, _, h⟩ := readHbm_only s a n; rw [h]
@[simp] theorem readHbm_paths (s : State) (a n : Nat) : ((readHbm s a n).2).paths = s.paths := by
  obtain ⟨_, _, _, h⟩ := readHbm_only s a n; rw [h]
@[simp] theorem readHbm_sessions (s : State) (a n : Nat) : ((readHbm s a n).2).sessions = s.sessions := by
  obtain ⟨_, _, _, h⟩ := readHbm_only s a n; rw [h]
@[simp] theorem readHbm_openQueue (s : State) (a n : Nat) : ((readHbm s a n).2).openQueue = s.openQueue := by
  obtain ⟨_, _, _, h⟩ := readHbm_only s a n; rw [h]
@[simp] theorem readHbm_taken (s : State) (a n : Nat) : ((readHbm s a n).2).taken = s.taken := by
  obtain ⟨_, _, _, h⟩ := readHbm_only s a n; rw [h]
@[simp] theorem readHbm_nonces (s : State) (a n : Nat) : ((readHbm s a n).2).nonces = s.nonces := by
  obtain ⟨_, _, _, h⟩ := readHbm_only s a n; rw [h]
@[simp] theorem readHbm_auths (s : State) (a n : Nat) : ((readHbm s a n).2).auths = s.auths := by
  obtain ⟨_, _, _, h⟩ := readHbm_only s a n; rw [h]
@[simp] theorem readHbm_cbSeen (s : State) (a n : Nat) : ((readHbm s a n).2).cbSeen = s.cbSeen := by
  obtain ⟨_, _, _, h⟩ := readHbm_only s a n; rw [h]
@[simp] theorem readHbm_meters (s : State) (a n : Nat) : ((readHbm s a n).2).meters = s.meters := by
  obtain ⟨_, _, _, h⟩ := readHbm_only s a n; rw [h]
@[simp] theorem readHbm_eth (s : State) (a n : Nat) : ((readHbm s a n).2).eth = s.eth := by
  obtain ⟨_, _, _, h⟩ := readHbm_only s a n; rw [h]
@[simp] theorem readHbm_unsent (s : State) (a n : Nat) : ((readHbm s a n).2).unsent = s.unsent := by
  obtain ⟨_, _, _, h⟩ := readHbm_only s a n; rw [h]
@[simp] theorem readHbm_models (s : State) (a n : Nat) : ((readHbm s a n).2).models = s.models := by
  obtain ⟨_, _, _, h⟩ := readHbm_only s a n; rw [h]
@[simp] theorem readHbm_modelGens (s : State) (a n : Nat) : ((readHbm s a n).2).modelGens = s.modelGens := by
  obtain ⟨_, _, _, h⟩ := readHbm_only s a n; rw [h]
@[simp] theorem readHbm_ctxs (s : State) (a n : Nat) : ((readHbm s a n).2).ctxs = s.ctxs := by
  obtain ⟨_, _, _, h⟩ := readHbm_only s a n; rw [h]
@[simp] theorem readHbm_ctxGens (s : State) (a n : Nat) : ((readHbm s a n).2).ctxGens = s.ctxGens := by
  obtain ⟨_, _, _, h⟩ := readHbm_only s a n; rw [h]
@[simp] theorem readHbm_hbm (s : State) (a n : Nat) : ((readHbm s a n).2).hbm = s.hbm := by
  obtain ⟨_, _, _, h⟩ := readHbm_only s a n; rw [h]
@[simp] theorem readHbm_marks (s : State) (a n : Nat) : ((readHbm s a n).2).marks = s.marks := by
  obtain ⟨_, _, _, h⟩ := readHbm_only s a n; rw [h]
@[simp] theorem readHbm_spadMarks (s : State) (a n : Nat) : ((readHbm s a n).2).spadMarks = s.spadMarks := by
  obtain ⟨_, _, _, h⟩ := readHbm_only s a n; rw [h]
@[simp] theorem readHbm_otherMarks (s : State) (a n : Nat) : ((readHbm s a n).2).otherMarks = s.otherMarks := by
  obtain ⟨_, _, _, h⟩ := readHbm_only s a n; rw [h]
@[simp] theorem readHbm_walkers (s : State) (a n : Nat) : ((readHbm s a n).2).walkers = s.walkers := by
  obtain ⟨_, _, _, h⟩ := readHbm_only s a n; rw [h]
@[simp] theorem readHbm_moves (s : State) (a n : Nat) : ((readHbm s a n).2).moves = s.moves := by
  obtain ⟨_, _, _, h⟩ := readHbm_only s a n; rw [h]
@[simp] theorem readHbm_fills (s : State) (a n : Nat) : ((readHbm s a n).2).fills = s.fills := by
  obtain ⟨_, _, _, h⟩ := readHbm_only s a n; rw [h]
@[simp] theorem readHbm_loads (s : State) (a n : Nat) : ((readHbm s a n).2).loads = s.loads := by
  obtain ⟨_, _, _, h⟩ := readHbm_only s a n; rw [h]
@[simp] theorem readHbm_saves (s : State) (a n : Nat) : ((readHbm s a n).2).saves = s.saves := by
  obtain ⟨_, _, _, h⟩ := readHbm_only s a n; rw [h]
@[simp] theorem readHbm_destroys (s : State) (a n : Nat) : ((readHbm s a n).2).destroys = s.destroys := by
  obtain ⟨_, _, _, h⟩ := readHbm_only s a n; rw [h]
@[simp] theorem readHbm_progs (s : State) (a n : Nat) : ((readHbm s a n).2).progs = s.progs := by
  obtain ⟨_, _, _, h⟩ := readHbm_only s a n; rw [h]
@[simp] theorem readHbm_drains (s : State) (a n : Nat) : ((readHbm s a n).2).drains = s.drains := by
  obtain ⟨_, _, _, h⟩ := readHbm_only s a n; rw [h]
@[simp] theorem readHbm_map (s : State) (a n : Nat) : ((readHbm s a n).2).map = s.map := by
  obtain ⟨_, _, _, h⟩ := readHbm_only s a n; rw [h]
@[simp] theorem readHbm_cores (s : State) (a n : Nat) : ((readHbm s a n).2).cores = s.cores := by
  obtain ⟨_, _, _, h⟩ := readHbm_only s a n; rw [h]
@[simp] theorem readHbm_faults (s : State) (a n : Nat) : ((readHbm s a n).2).faults = s.faults := by
  obtain ⟨_, _, _, h⟩ := readHbm_only s a n; rw [h]
@[simp] theorem readHbm_power (s : State) (a n : Nat) : ((readHbm s a n).2).power = s.power := by
  obtain ⟨_, _, _, h⟩ := readHbm_only s a n; rw [h]
@[simp] theorem readHbm_sec (s : State) (a n : Nat) : ((readHbm s a n).2).sec = s.sec := by
  obtain ⟨_, _, _, h⟩ := readHbm_only s a n; rw [h]
@[simp] theorem readHbm_ent (s : State) (a n : Nat) : ((readHbm s a n).2).ent = s.ent := by
  obtain ⟨_, _, _, h⟩ := readHbm_only s a n; rw [h]
@[simp] theorem readHbm_ports (s : State) (a n : Nat) : ((readHbm s a n).2).ports = s.ports := by
  obtain ⟨_, _, _, h⟩ := readHbm_only s a n; rw [h]
@[simp] theorem readHbm_join (s : State) (a n : Nat) : ((readHbm s a n).2).join = s.join := by
  obtain ⟨_, _, _, h⟩ := readHbm_only s a n; rw [h]
@[simp] theorem readHbm_side (s : State) (a n : Nat) : ((readHbm s a n).2).side = s.side := by
  obtain ⟨_, _, _, h⟩ := readHbm_only s a n; rw [h]
@[simp] theorem readHbm_tap (s : State) (a n : Nat) : ((readHbm s a n).2).tap = s.tap := by
  obtain ⟨_, _, _, h⟩ := readHbm_only s a n; rw [h]
@[simp] theorem readHbm_turn (s : State) (a n : Nat) : ((readHbm s a n).2).turn = s.turn := by
  obtain ⟨_, _, _, h⟩ := readHbm_only s a n; rw [h]
@[simp] theorem readHbm_spad (s : State) (a n : Nat) : ((readHbm s a n).2).spad = s.spad := by
  obtain ⟨_, _, _, h⟩ := readHbm_only s a n; rw [h]
@[simp] theorem readHbm_slots (s : State) (a n : Nat) : ((readHbm s a n).2).slots = s.slots := by
  obtain ⟨_, _, _, h⟩ := readHbm_only s a n; rw [h]
@[simp] theorem readHbm_out (s : State) (a n : Nat) : ((readHbm s a n).2).out = s.out := by
  obtain ⟨_, _, _, h⟩ := readHbm_only s a n; rw [h]
@[simp] theorem readHbm_free (s : State) (a n : Nat) : ((readHbm s a n).2).free = s.free := by
  obtain ⟨_, _, _, h⟩ := readHbm_only s a n; rw [h]

@[simp] theorem writeHbm_pending (s : State) (a : Nat) (bs : List Byte) : (writeHbm s a bs).pending = s.pending := by
  obtain ⟨_, _, _, _, _, h⟩ := writeHbm_only s a bs; rw [h]
@[simp] theorem writeHbm_rtc (s : State) (a : Nat) (bs : List Byte) : (writeHbm s a bs).rtc = s.rtc := by
  obtain ⟨_, _, _, _, _, h⟩ := writeHbm_only s a bs; rw [h]
@[simp] theorem writeHbm_gptp (s : State) (a : Nat) (bs : List Byte) : (writeHbm s a bs).gptp = s.gptp := by
  obtain ⟨_, _, _, _, _, h⟩ := writeHbm_only s a bs; rw [h]
@[simp] theorem writeHbm_heldRegs (s : State) (a : Nat) (bs : List Byte) : (writeHbm s a bs).heldRegs = s.heldRegs := by
  obtain ⟨_, _, _, _, _, h⟩ := writeHbm_only s a bs; rw [h]
@[simp] theorem writeHbm_paths (s : State) (a : Nat) (bs : List Byte) : (writeHbm s a bs).paths = s.paths := by
  obtain ⟨_, _, _, _, _, h⟩ := writeHbm_only s a bs; rw [h]
@[simp] theorem writeHbm_sessions (s : State) (a : Nat) (bs : List Byte) : (writeHbm s a bs).sessions = s.sessions := by
  obtain ⟨_, _, _, _, _, h⟩ := writeHbm_only s a bs; rw [h]
@[simp] theorem writeHbm_openQueue (s : State) (a : Nat) (bs : List Byte) : (writeHbm s a bs).openQueue = s.openQueue := by
  obtain ⟨_, _, _, _, _, h⟩ := writeHbm_only s a bs; rw [h]
@[simp] theorem writeHbm_taken (s : State) (a : Nat) (bs : List Byte) : (writeHbm s a bs).taken = s.taken := by
  obtain ⟨_, _, _, _, _, h⟩ := writeHbm_only s a bs; rw [h]
@[simp] theorem writeHbm_nonces (s : State) (a : Nat) (bs : List Byte) : (writeHbm s a bs).nonces = s.nonces := by
  obtain ⟨_, _, _, _, _, h⟩ := writeHbm_only s a bs; rw [h]
@[simp] theorem writeHbm_auths (s : State) (a : Nat) (bs : List Byte) : (writeHbm s a bs).auths = s.auths := by
  obtain ⟨_, _, _, _, _, h⟩ := writeHbm_only s a bs; rw [h]
@[simp] theorem writeHbm_cbSeen (s : State) (a : Nat) (bs : List Byte) : (writeHbm s a bs).cbSeen = s.cbSeen := by
  obtain ⟨_, _, _, _, _, h⟩ := writeHbm_only s a bs; rw [h]
@[simp] theorem writeHbm_meters (s : State) (a : Nat) (bs : List Byte) : (writeHbm s a bs).meters = s.meters := by
  obtain ⟨_, _, _, _, _, h⟩ := writeHbm_only s a bs; rw [h]
@[simp] theorem writeHbm_eth (s : State) (a : Nat) (bs : List Byte) : (writeHbm s a bs).eth = s.eth := by
  obtain ⟨_, _, _, _, _, h⟩ := writeHbm_only s a bs; rw [h]
@[simp] theorem writeHbm_unsent (s : State) (a : Nat) (bs : List Byte) : (writeHbm s a bs).unsent = s.unsent := by
  obtain ⟨_, _, _, _, _, h⟩ := writeHbm_only s a bs; rw [h]
@[simp] theorem writeHbm_models (s : State) (a : Nat) (bs : List Byte) : (writeHbm s a bs).models = s.models := by
  obtain ⟨_, _, _, _, _, h⟩ := writeHbm_only s a bs; rw [h]
@[simp] theorem writeHbm_modelGens (s : State) (a : Nat) (bs : List Byte) : (writeHbm s a bs).modelGens = s.modelGens := by
  obtain ⟨_, _, _, _, _, h⟩ := writeHbm_only s a bs; rw [h]
@[simp] theorem writeHbm_ctxs (s : State) (a : Nat) (bs : List Byte) : (writeHbm s a bs).ctxs = s.ctxs := by
  obtain ⟨_, _, _, _, _, h⟩ := writeHbm_only s a bs; rw [h]
@[simp] theorem writeHbm_ctxGens (s : State) (a : Nat) (bs : List Byte) : (writeHbm s a bs).ctxGens = s.ctxGens := by
  obtain ⟨_, _, _, _, _, h⟩ := writeHbm_only s a bs; rw [h]
@[simp] theorem writeHbm_spadMarks (s : State) (a : Nat) (bs : List Byte) : (writeHbm s a bs).spadMarks = s.spadMarks := by
  obtain ⟨_, _, _, _, _, h⟩ := writeHbm_only s a bs; rw [h]
@[simp] theorem writeHbm_otherMarks (s : State) (a : Nat) (bs : List Byte) : (writeHbm s a bs).otherMarks = s.otherMarks := by
  obtain ⟨_, _, _, _, _, h⟩ := writeHbm_only s a bs; rw [h]
@[simp] theorem writeHbm_walkers (s : State) (a : Nat) (bs : List Byte) : (writeHbm s a bs).walkers = s.walkers := by
  obtain ⟨_, _, _, _, _, h⟩ := writeHbm_only s a bs; rw [h]
@[simp] theorem writeHbm_moves (s : State) (a : Nat) (bs : List Byte) : (writeHbm s a bs).moves = s.moves := by
  obtain ⟨_, _, _, _, _, h⟩ := writeHbm_only s a bs; rw [h]
@[simp] theorem writeHbm_fills (s : State) (a : Nat) (bs : List Byte) : (writeHbm s a bs).fills = s.fills := by
  obtain ⟨_, _, _, _, _, h⟩ := writeHbm_only s a bs; rw [h]
@[simp] theorem writeHbm_loads (s : State) (a : Nat) (bs : List Byte) : (writeHbm s a bs).loads = s.loads := by
  obtain ⟨_, _, _, _, _, h⟩ := writeHbm_only s a bs; rw [h]
@[simp] theorem writeHbm_saves (s : State) (a : Nat) (bs : List Byte) : (writeHbm s a bs).saves = s.saves := by
  obtain ⟨_, _, _, _, _, h⟩ := writeHbm_only s a bs; rw [h]
@[simp] theorem writeHbm_destroys (s : State) (a : Nat) (bs : List Byte) : (writeHbm s a bs).destroys = s.destroys := by
  obtain ⟨_, _, _, _, _, h⟩ := writeHbm_only s a bs; rw [h]
@[simp] theorem writeHbm_progs (s : State) (a : Nat) (bs : List Byte) : (writeHbm s a bs).progs = s.progs := by
  obtain ⟨_, _, _, _, _, h⟩ := writeHbm_only s a bs; rw [h]
@[simp] theorem writeHbm_drains (s : State) (a : Nat) (bs : List Byte) : (writeHbm s a bs).drains = s.drains := by
  obtain ⟨_, _, _, _, _, h⟩ := writeHbm_only s a bs; rw [h]
@[simp] theorem writeHbm_map (s : State) (a : Nat) (bs : List Byte) : (writeHbm s a bs).map = s.map := by
  obtain ⟨_, _, _, _, _, h⟩ := writeHbm_only s a bs; rw [h]
@[simp] theorem writeHbm_cores (s : State) (a : Nat) (bs : List Byte) : (writeHbm s a bs).cores = s.cores := by
  obtain ⟨_, _, _, _, _, h⟩ := writeHbm_only s a bs; rw [h]
@[simp] theorem writeHbm_faults (s : State) (a : Nat) (bs : List Byte) : (writeHbm s a bs).faults = s.faults := by
  obtain ⟨_, _, _, _, _, h⟩ := writeHbm_only s a bs; rw [h]
@[simp] theorem writeHbm_power (s : State) (a : Nat) (bs : List Byte) : (writeHbm s a bs).power = s.power := by
  obtain ⟨_, _, _, _, _, h⟩ := writeHbm_only s a bs; rw [h]
@[simp] theorem writeHbm_sec (s : State) (a : Nat) (bs : List Byte) : (writeHbm s a bs).sec = s.sec := by
  obtain ⟨_, _, _, _, _, h⟩ := writeHbm_only s a bs; rw [h]
@[simp] theorem writeHbm_ent (s : State) (a : Nat) (bs : List Byte) : (writeHbm s a bs).ent = s.ent := by
  obtain ⟨_, _, _, _, _, h⟩ := writeHbm_only s a bs; rw [h]
@[simp] theorem writeHbm_ports (s : State) (a : Nat) (bs : List Byte) : (writeHbm s a bs).ports = s.ports := by
  obtain ⟨_, _, _, _, _, h⟩ := writeHbm_only s a bs; rw [h]
@[simp] theorem writeHbm_join (s : State) (a : Nat) (bs : List Byte) : (writeHbm s a bs).join = s.join := by
  obtain ⟨_, _, _, _, _, h⟩ := writeHbm_only s a bs; rw [h]
@[simp] theorem writeHbm_side (s : State) (a : Nat) (bs : List Byte) : (writeHbm s a bs).side = s.side := by
  obtain ⟨_, _, _, _, _, h⟩ := writeHbm_only s a bs; rw [h]
@[simp] theorem writeHbm_tap (s : State) (a : Nat) (bs : List Byte) : (writeHbm s a bs).tap = s.tap := by
  obtain ⟨_, _, _, _, _, h⟩ := writeHbm_only s a bs; rw [h]
@[simp] theorem writeHbm_turn (s : State) (a : Nat) (bs : List Byte) : (writeHbm s a bs).turn = s.turn := by
  obtain ⟨_, _, _, _, _, h⟩ := writeHbm_only s a bs; rw [h]
@[simp] theorem writeHbm_spad (s : State) (a : Nat) (bs : List Byte) : (writeHbm s a bs).spad = s.spad := by
  obtain ⟨_, _, _, _, _, h⟩ := writeHbm_only s a bs; rw [h]
@[simp] theorem writeHbm_slots (s : State) (a : Nat) (bs : List Byte) : (writeHbm s a bs).slots = s.slots := by
  obtain ⟨_, _, _, _, _, h⟩ := writeHbm_only s a bs; rw [h]
@[simp] theorem writeHbm_out (s : State) (a : Nat) (bs : List Byte) : (writeHbm s a bs).out = s.out := by
  obtain ⟨_, _, _, _, _, h⟩ := writeHbm_only s a bs; rw [h]
@[simp] theorem writeHbm_free (s : State) (a : Nat) (bs : List Byte) : (writeHbm s a bs).free = s.free := by
  obtain ⟨_, _, _, _, _, h⟩ := writeHbm_only s a bs; rw [h]

/-! ### The canonical form -/

/-- Bytes put into a canonical memory leave it canonical. -/
theorem putCells_wf {m : List Host.Cell} (h : Memory.wf m) (a : Nat) (bs : List Byte) : Memory.wf (putCells m a bs) := by
  rw [Memory.wf, rising_iff] at *
  unfold putCells
  rw [List.pairwise_append, List.pairwise_append]
  refine ⟨⟨h.filter _, cellsAt_rising a bs, ?_⟩, h.filter _, ?_⟩
  · intro x hx y hy
    have h1 : x.1 < a := by simpa using (List.mem_filter.mp hx).2
    have h2 := cellsAt_mem hy
    omega
  · intro x hx y hy
    have h2 : a + bs.length ≤ y.1 := by simpa using (List.mem_filter.mp hy).2
    rcases List.mem_append.mp hx with hx | hx
    · have h1 : x.1 < a := by simpa using (List.mem_filter.mp hx).2
      omega
    · have h1 := cellsAt_mem hx
      omega

theorem writeWords_wf {s : State} (h : Memory.wf s.hbm) (a : Nat) (bs : List Byte) : Memory.wf (writeWords s a bs).hbm := by
  unfold writeWords; split
  · exact h
  · exact putCells_wf h a bs

theorem narrowWrite_wf {s : State} (h : Memory.wf s.hbm) (a : Nat) (bs : List Byte) : Memory.wf (narrowWrite s a bs).hbm := by
  have hm : Memory.wf (if (lookup s.hbm (a / 8 * 8)).isSome then putCells s.hbm a bs else s.hbm) := by
    split
    · exact putCells_wf h a bs
    · exact h
  unfold narrowWrite
  dsimp only
  split
  · exact h
  · split
    · exact hm
    · simpa using putCells_wf (a := a) (bs := bs) h
    · exact hm
    · exact hm

/-- Writes keep the canonical form. -/
theorem writeHbm_wf {s : State} (h : Memory.wf s.hbm) (a : Nat) (bs : List Byte) : Memory.wf (writeHbm s a bs).hbm :=
  narrowWrite_wf (writeWords_wf (narrowWrite_wf h _ _) _ _) _ _

/-- A write to a scratchpad changes scratchpads, their marks and write-backs alone. -/
theorem writeSpad_only (s : State) (p a : Nat) (bs : List Byte) :
    ∃ x y z, writeSpad s p a bs = { s with spad := x, spadMarks := y, writeBacks := z } := by
  unfold writeSpad; dsimp only; split <;> exact ⟨_, _, _, rfl⟩

/-- A write to a scratchpad keeps the canonical form. -/
theorem writeSpad_wf {s : State} (h : Memory.wf s.spad) (p a : Nat) (bs : List Byte) : Memory.wf (writeSpad s p a bs).spad := by
  unfold writeSpad; dsimp only; split
  · exact h
  · exact putCells_wf h _ bs

@[simp] theorem writeSpad_hbm (s : State) (p a : Nat) (bs : List Byte) : (writeSpad s p a bs).hbm = s.hbm := by
  obtain ⟨_, _, _, h⟩ := writeSpad_only s p a bs; rw [h]

theorem foldCorrected_only (s : State) (u : MemUnit) (es : List (Nat × Nat)) :
    ∃ x y z, es.foldl (fun s e => corrected s u e.1 (e.2 != e.1 / 64 + 1)) s =
      { s with regs := x, trail := y, writeBacks := z } := by
  induction es generalizing s with
  | nil => exact ⟨_, _, _, rfl⟩
  | cons e es ih =>
    obtain ⟨x, y, z, h⟩ := corrected_only s u e.1 (e.2 != e.1 / 64 + 1)
    obtain ⟨x', y', z', h'⟩ := ih (corrected s u e.1 (e.2 != e.1 / 64 + 1))
    exact ⟨x', y', z', by rw [List.foldl_cons, h']; simp only [h]⟩

/-- An engine's read of a scratchpad changes registers, the Trail and the write-backs that are due alone. -/
theorem readSpad_only (s : State) (p a n : Nat) :
    ∃ x y z, (readSpad s p a n).2 = { s with regs := x, trail := y, writeBacks := z } := by
  unfold readSpad
  dsimp only
  split
  · exact foldCorrected_only ..
  · have after : ∀ (t : State) (e : Nat × Option WordClass),
        (∃ x y z, t = { s with regs := x, trail := y, writeBacks := z }) →
        ∃ x y z, badRead t (.spad p) e.1 e.2 = { s with regs := x, trail := y, writeBacks := z } := by
      rintro t e ⟨x, y, z, rfl⟩
      obtain ⟨x', y', h⟩ := badRead_only { s with regs := x, trail := y, writeBacks := z } (.spad p) e.1 e.2
      exact ⟨x', y', z, h⟩
    exact after _ _ (foldCorrected_only ..)

/-- A strike keeps the canonical form of both memories. -/
theorem strikeWord_wf {s : State} (h : Memory.wf s.hbm) (g : Memory.wf s.spad) (u : MemUnit) (a : Nat) (c : WordClass) :
    Memory.wf (strikeWord u s a c).hbm ∧ Memory.wf (strikeWord u s a c).spad := by
  have hs : ∀ (t : State) (u : MemUnit) (m : Map WordClass), (setMarks t u m).hbm = t.hbm ∧ (setMarks t u m).spad = t.spad := by
    intro t u m; cases u <;> exact ⟨rfl, rfl⟩
  unfold strikeWord
  dsimp only
  split
  · rw [(hs ..).1, (hs ..).2]; exact ⟨h, g⟩
  · split
    · split
      · exact ⟨h, g⟩
      · rw [(hs ..).1, (hs ..).2]; exact ⟨h, g⟩
    · cases u with
      | hbm n => exact ⟨putCells_wf h _ _, g⟩
      | spad p => exact ⟨h, putCells_wf g _ _⟩
      | other o k => exact ⟨h, g⟩

/-- Sealing keeps the canonical form. -/
theorem sealHbm_wf {s : State} (h : Memory.wf s.hbm) (a n : Nat) : Memory.wf (sealHbm s a n).hbm := by
  rw [Memory.wf, rising_iff] at *
  exact h.filter _

end Sys2Proof.Machine
end

