-- ==== Sys2Proof/Laws/Reply.lean ====
section
/-!
SUPPORT. What a reply can change: the sessions' caches, the taken commands, what leaves the module and waits to leave, and on a
bridge the transmitter of its port. A frame of every Handler command starts here.
-/

namespace Sys2Proof.Machine

/-! ### The transmitter -/

theorem freeFlits_only (s : State) (n vl k : Nat) : ∃ x, freeFlits s n vl k = { s with ports := x } := ⟨_, rfl⟩

/-- A flit that is sent changes ports and outputs alone. -/
theorem sendFlit_only (s : State) (n : Nat) (o : Outgoing) : ∃ x y, sendFlit s n o = { s with ports := x, out := y } := by
  unfold sendFlit
  dsimp only
  split
  · exact ⟨_, _, rfl⟩
  · exact ⟨_, _, rfl⟩

theorem pumpFlits_only (k : Nat) (s : State) (n : Nat) : ∃ x y, pumpFlits k s n = { s with ports := x, out := y } := by
  induction k generalizing s with
  | zero => exact ⟨_, _, rfl⟩
  | succ k ih =>
    simp only [pumpFlits]; split
    · exact ⟨_, _, rfl⟩
    · rename_i o _
      obtain ⟨x, y, h⟩ := sendFlit_only s n o
      obtain ⟨x', y', h'⟩ := ih (sendFlit s n o)
      exact ⟨x', y', by rw [h']; simp only [h]⟩

/-- The transmitter changes ports and outputs alone. -/
theorem pump_only (s : State) (n : Nat) : ∃ x y, pump s n = { s with ports := x, out := y } := pumpFlits_only ..

theorem firstWhistle_only (s : State) (n : Nat) : ∃ x y, firstWhistle s n = { s with ports := x, out := y } := by
  unfold firstWhistle; split <;> exact ⟨_, _, rfl⟩

/-- A message handed to a port changes ports and outputs alone. -/
theorem queueMsg_only (s : State) (n : Nat) (m : LeashMsg) (k : Option Nat) :
    ∃ x y, queueMsg s n m k = { s with ports := x, out := y } := by
  unfold queueMsg
  dsimp only
  generalize ht : modPort s n _ = t
  obtain ⟨x, y, h⟩ := firstWhistle_only t n
  obtain ⟨x', y', h'⟩ := pump_only (firstWhistle t n) n
  exact ⟨x', y', by rw [h', h, ← ht]; rfl⟩

theorem sendMsg_only (s : State) (n : Nat) (m : LeashMsg) : ∃ x y, sendMsg s n m = { s with ports := x, out := y } :=
  queueMsg_only ..

theorem sendAll_only (l : List LeashMsg) (s : State) (n : Nat) :
    ∃ x y, each l s (fun s m => sendMsg s n m) = { s with ports := x, out := y } := by
  induction l generalizing s with
  | nil => exact ⟨_, _, rfl⟩
  | cons m l ih =>
    obtain ⟨x, y, h⟩ := sendMsg_only s n m
    obtain ⟨x', y', h'⟩ := ih (sendMsg s n m)
    exact ⟨x', y', by rw [h] at h'; exact (congrArg (fun t => each l t (fun s m => sendMsg s n m)) h).trans h'⟩

/-! ### Replies -/

theorem sendReply_only (s : State) (r : Reply) :
    ∃ x y z w, sendReply s r = { s with unsent := x, ports := y, join := z, out := w } := by
  unfold sendReply
  split
  · obtain ⟨x, y, h⟩ := sendAll_only (valazSegments { s with join := { s.join with nextTag := s.join.nextTag + 1 } } r.dest.port
      r.dest.member s.join.nextTag.toNat r.bytes) { s with join := { s.join with nextTag := s.join.nextTag + 1 } } r.dest.port
    exact ⟨_, _, _, _, h⟩
  · simp only
    repeat' split
    all_goals exact ⟨_, _, _, _, rfl⟩

theorem answer_only (s : State) (r : Req) (op : Nat) (st : Status) (d : Nat) (p : List Byte) (o w : Nat) :
    ∃ a b c e f, answer s r op st d p o w = { s with sessions := a, unsent := b, ports := c, join := e, out := f } := by
  unfold answer
  split
  · obtain ⟨x, y, z, w, h⟩ := sendReply_only s (mkReply s r op st d p o w)
    exact ⟨_, _, _, _, _, h⟩
  · rename_i k _
    split
    · generalize hq : (mkReply s r op st d p o w).withTag (session s k).kM = q
      obtain ⟨x, y, z, v, h⟩ := sendReply_only (cacheReply s k q) q
      exact ⟨_, _, _, _, _, h⟩
    · exact ⟨_, _, _, _, _, rfl⟩

/-- A reply changes caches, taken commands and what leaves the module alone. -/
theorem reply_only (s : State) (r : Req) (op : Nat) (st : Status) (d : Nat) (p : List Byte) (o : Nat) :
    ∃ a t b c e f, reply s r op st d p o =
      { s with sessions := a, taken := t, unsent := b, ports := c, join := e, out := f } := by
  obtain ⟨a, b, c, e, f, h⟩ := answer_only { s with taken := s.taken.filter (fun t => !(t.r == r && t.opcode == op)) } r op st d p o 0
  exact ⟨a, _, b, c, e, f, h⟩

theorem hold_only (s : State) (r : Req) (op : Nat) (c m : Option Nat) (md : Modes) :
    ∃ t, hold s r op c m md = { s with taken := t } := by
  unfold hold; split <;> exact ⟨_, rfl⟩

/-- Taking a packet changes the queues and the turn alone. -/
theorem unqueue_only (s : State) (r : Req) (op : Nat) :
    ∃ a b c, unqueue s r op = { s with sessions := a, openQueue := b, turn := c } := by
  unfold unqueue; dsimp only; split
  · split
    · exact ⟨_, _, _, rfl⟩
    · exact ⟨_, _, _, rfl⟩
  · exact ⟨_, _, _, rfl⟩

@[simp] theorem reply_pending (s : State) (r : Req) (op : Nat) (st : Status) (d : Nat) (p : List Byte) (o : Nat) : (reply s r op st d p o).pending = s.pending := by
  obtain ⟨_, _, _, _, _, _, h⟩ := reply_only s r op st d p o; rw [h]
@[simp] theorem reply_rtc (s : State) (r : Req) (op : Nat) (st : Status) (d : Nat) (p : List Byte) (o : Nat) : (reply s r op st d p o).rtc = s.rtc := by
  obtain ⟨_, _, _, _, _, _, h⟩ := reply_only s r op st d p o; rw [h]
@[simp] theorem reply_gptp (s : State) (r : Req) (op : Nat) (st : Status) (d : Nat) (p : List Byte) (o : Nat) : (reply s r op st d p o).gptp = s.gptp := by
  obtain ⟨_, _, _, _, _, _, h⟩ := reply_only s r op st d p o; rw [h]
@[simp] theorem reply_regs (s : State) (r : Req) (op : Nat) (st : Status) (d : Nat) (p : List Byte) (o : Nat) : (reply s r op st d p o).regs = s.regs := by
  obtain ⟨_, _, _, _, _, _, h⟩ := reply_only s r op st d p o; rw [h]
@[simp] theorem reply_heldRegs (s : State) (r : Req) (op : Nat) (st : Status) (d : Nat) (p : List Byte) (o : Nat) : (reply s r op st d p o).heldRegs = s.heldRegs := by
  obtain ⟨_, _, _, _, _, _, h⟩ := reply_only s r op st d p o; rw [h]
@[simp] theorem reply_paths (s : State) (r : Req) (op : Nat) (st : Status) (d : Nat) (p : List Byte) (o : Nat) : (reply s r op st d p o).paths = s.paths := by
  obtain ⟨_, _, _, _, _, _, h⟩ := reply_only s r op st d p o; rw [h]
@[simp] theorem reply_openQueue (s : State) (r : Req) (op : Nat) (st : Status) (d : Nat) (p : List Byte) (o : Nat) : (reply s r op st d p o).openQueue = s.openQueue := by
  obtain ⟨_, _, _, _, _, _, h⟩ := reply_only s r op st d p o; rw [h]
@[simp] theorem reply_nonces (s : State) (r : Req) (op : Nat) (st : Status) (d : Nat) (p : List Byte) (o : Nat) : (reply s r op st d p o).nonces = s.nonces := by
  obtain ⟨_, _, _, _, _, _, h⟩ := reply_only s r op st d p o; rw [h]
@[simp] theorem reply_auths (s : State) (r : Req) (op : Nat) (st : Status) (d : Nat) (p : List Byte) (o : Nat) : (reply s r op st d p o).auths = s.auths := by
  obtain ⟨_, _, _, _, _, _, h⟩ := reply_only s r op st d p o; rw [h]
@[simp] theorem reply_cbSeen (s : State) (r : Req) (op : Nat) (st : Status) (d : Nat) (p : List Byte) (o : Nat) : (reply s r op st d p o).cbSeen = s.cbSeen := by
  obtain ⟨_, _, _, _, _, _, h⟩ := reply_only s r op st d p o; rw [h]
@[simp] theorem reply_meters (s : State) (r : Req) (op : Nat) (st : Status) (d : Nat) (p : List Byte) (o : Nat) : (reply s r op st d p o).meters = s.meters := by
  obtain ⟨_, _, _, _, _, _, h⟩ := reply_only s r op st d p o; rw [h]
@[simp] theorem reply_eth (s : State) (r : Req) (op : Nat) (st : Status) (d : Nat) (p : List Byte) (o : Nat) : (reply s r op st d p o).eth = s.eth := by
  obtain ⟨_, _, _, _, _, _, h⟩ := reply_only s r op st d p o; rw [h]
@[simp] theorem reply_models (s : State) (r : Req) (op : Nat) (st : Status) (d : Nat) (p : List Byte) (o : Nat) : (reply s r op st d p o).models = s.models := by
  obtain ⟨_, _, _, _, _, _, h⟩ := reply_only s r op st d p o; rw [h]
@[simp] theorem reply_modelGens (s : State) (r : Req) (op : Nat) (st : Status) (d : Nat) (p : List Byte) (o : Nat) : (reply s r op st d p o).modelGens = s.modelGens := by
  obtain ⟨_, _, _, _, _, _, h⟩ := reply_only s r op st d p o; rw [h]
@[simp] theorem reply_ctxs (s : State) (r : Req) (op : Nat) (st : Status) (d : Nat) (p : List Byte) (o : Nat) : (reply s r op st d p o).ctxs = s.ctxs := by
  obtain ⟨_, _, _, _, _, _, h⟩ := reply_only s r op st d p o; rw [h]
@[simp] theorem reply_ctxGens (s : State) (r : Req) (op : Nat) (st : Status) (d : Nat) (p : List Byte) (o : Nat) : (reply s r op st d p o).ctxGens = s.ctxGens := by
  obtain ⟨_, _, _, _, _, _, h⟩ := reply_only s r op st d p o; rw [h]
@[simp] theorem reply_hbm (s : State) (r : Req) (op : Nat) (st : Status) (d : Nat) (p : List Byte) (o : Nat) : (reply s r op st d p o).hbm = s.hbm := by
  obtain ⟨_, _, _, _, _, _, h⟩ := reply_only s r op st d p o; rw [h]
@[simp] theorem reply_marks (s : State) (r : Req) (op : Nat) (st : Status) (d : Nat) (p : List Byte) (o : Nat) : (reply s r op st d p o).marks = s.marks := by
  obtain ⟨_, _, _, _, _, _, h⟩ := reply_only s r op st d p o; rw [h]
@[simp] theorem reply_spadMarks (s : State) (r : Req) (op : Nat) (st : Status) (d : Nat) (p : List Byte) (o : Nat) : (reply s r op st d p o).spadMarks = s.spadMarks := by
  obtain ⟨_, _, _, _, _, _, h⟩ := reply_only s r op st d p o; rw [h]
@[simp] theorem reply_otherMarks (s : State) (r : Req) (op : Nat) (st : Status) (d : Nat) (p : List Byte) (o : Nat) : (reply s r op st d p o).otherMarks = s.otherMarks := by
  obtain ⟨_, _, _, _, _, _, h⟩ := reply_only s r op st d p o; rw [h]
@[simp] theorem reply_writeBacks (s : State) (r : Req) (op : Nat) (st : Status) (d : Nat) (p : List Byte) (o : Nat) : (reply s r op st d p o).writeBacks = s.writeBacks := by
  obtain ⟨_, _, _, _, _, _, h⟩ := reply_only s r op st d p o; rw [h]
@[simp] theorem reply_walkers (s : State) (r : Req) (op : Nat) (st : Status) (d : Nat) (p : List Byte) (o : Nat) : (reply s r op st d p o).walkers = s.walkers := by
  obtain ⟨_, _, _, _, _, _, h⟩ := reply_only s r op st d p o; rw [h]
@[simp] theorem reply_moves (s : State) (r : Req) (op : Nat) (st : Status) (d : Nat) (p : List Byte) (o : Nat) : (reply s r op st d p o).moves = s.moves := by
  obtain ⟨_, _, _, _, _, _, h⟩ := reply_only s r op st d p o; rw [h]
@[simp] theorem reply_fills (s : State) (r : Req) (op : Nat) (st : Status) (d : Nat) (p : List Byte) (o : Nat) : (reply s r op st d p o).fills = s.fills := by
  obtain ⟨_, _, _, _, _, _, h⟩ := reply_only s r op st d p o; rw [h]
@[simp] theorem reply_loads (s : State) (r : Req) (op : Nat) (st : Status) (d : Nat) (p : List Byte) (o : Nat) : (reply s r op st d p o).loads = s.loads := by
  obtain ⟨_, _, _, _, _, _, h⟩ := reply_only s r op st d p o; rw [h]
@[simp] theorem reply_saves (s : State) (r : Req) (op : Nat) (st : Status) (d : Nat) (p : List Byte) (o : Nat) : (reply s r op st d p o).saves = s.saves := by
  obtain ⟨_, _, _, _, _, _, h⟩ := reply_only s r op st d p o; rw [h]
@[simp] theorem reply_destroys (s : State) (r : Req) (op : Nat) (st : Status) (d : Nat) (p : List Byte) (o : Nat) : (reply s r op st d p o).destroys = s.destroys := by
  obtain ⟨_, _, _, _, _, _, h⟩ := reply_only s r op st d p o; rw [h]
@[simp] theorem reply_progs (s : State) (r : Req) (op : Nat) (st : Status) (d : Nat) (p : List Byte) (o : Nat) : (reply s r op st d p o).progs = s.progs := by
  obtain ⟨_, _, _, _, _, _, h⟩ := reply_only s r op st d p o; rw [h]
@[simp] theorem reply_drains (s : State) (r : Req) (op : Nat) (st : Status) (d : Nat) (p : List Byte) (o : Nat) : (reply s r op st d p o).drains = s.drains := by
  obtain ⟨_, _, _, _, _, _, h⟩ := reply_only s r op st d p o; rw [h]
@[simp] theorem reply_map (s : State) (r : Req) (op : Nat) (st : Status) (d : Nat) (p : List Byte) (o : Nat) : (reply s r op st d p o).map = s.map := by
  obtain ⟨_, _, _, _, _, _, h⟩ := reply_only s r op st d p o; rw [h]
@[simp] theorem reply_cores (s : State) (r : Req) (op : Nat) (st : Status) (d : Nat) (p : List Byte) (o : Nat) : (reply s r op st d p o).cores = s.cores := by
  obtain ⟨_, _, _, _, _, _, h⟩ := reply_only s r op st d p o; rw [h]
@[simp] theorem reply_faults (s : State) (r : Req) (op : Nat) (st : Status) (d : Nat) (p : List Byte) (o : Nat) : (reply s r op st d p o).faults = s.faults := by
  obtain ⟨_, _, _, _, _, _, h⟩ := reply_only s r op st d p o; rw [h]
@[simp] theorem reply_trail (s : State) (r : Req) (op : Nat) (st : Status) (d : Nat) (p : List Byte) (o : Nat) : (reply s r op st d p o).trail = s.trail := by
  obtain ⟨_, _, _, _, _, _, h⟩ := reply_only s r op st d p o; rw [h]
@[simp] theorem reply_power (s : State) (r : Req) (op : Nat) (st : Status) (d : Nat) (p : List Byte) (o : Nat) : (reply s r op st d p o).power = s.power := by
  obtain ⟨_, _, _, _, _, _, h⟩ := reply_only s r op st d p o; rw [h]
@[simp] theorem reply_sec (s : State) (r : Req) (op : Nat) (st : Status) (d : Nat) (p : List Byte) (o : Nat) : (reply s r op st d p o).sec = s.sec := by
  obtain ⟨_, _, _, _, _, _, h⟩ := reply_only s r op st d p o; rw [h]
@[simp] theorem reply_ent (s : State) (r : Req) (op : Nat) (st : Status) (d : Nat) (p : List Byte) (o : Nat) : (reply s r op st d p o).ent = s.ent := by
  obtain ⟨_, _, _, _, _, _, h⟩ := reply_only s r op st d p o; rw [h]
@[simp] theorem reply_side (s : State) (r : Req) (op : Nat) (st : Status) (d : Nat) (p : List Byte) (o : Nat) : (reply s r op st d p o).side = s.side := by
  obtain ⟨_, _, _, _, _, _, h⟩ := reply_only s r op st d p o; rw [h]
@[simp] theorem reply_tap (s : State) (r : Req) (op : Nat) (st : Status) (d : Nat) (p : List Byte) (o : Nat) : (reply s r op st d p o).tap = s.tap := by
  obtain ⟨_, _, _, _, _, _, h⟩ := reply_only s r op st d p o; rw [h]
@[simp] theorem reply_turn (s : State) (r : Req) (op : Nat) (st : Status) (d : Nat) (p : List Byte) (o : Nat) : (reply s r op st d p o).turn = s.turn := by
  obtain ⟨_, _, _, _, _, _, h⟩ := reply_only s r op st d p o; rw [h]
@[simp] theorem reply_spad (s : State) (r : Req) (op : Nat) (st : Status) (d : Nat) (p : List Byte) (o : Nat) : (reply s r op st d p o).spad = s.spad := by
  obtain ⟨_, _, _, _, _, _, h⟩ := reply_only s r op st d p o; rw [h]
@[simp] theorem reply_slots (s : State) (r : Req) (op : Nat) (st : Status) (d : Nat) (p : List Byte) (o : Nat) : (reply s r op st d p o).slots = s.slots := by
  obtain ⟨_, _, _, _, _, _, h⟩ := reply_only s r op st d p o; rw [h]
@[simp] theorem reply_free (s : State) (r : Req) (op : Nat) (st : Status) (d : Nat) (p : List Byte) (o : Nat) : (reply s r op st d p o).free = s.free := by
  obtain ⟨_, _, _, _, _, _, h⟩ := reply_only s r op st d p o; rw [h]

@[simp] theorem hold_pending (s : State) (r : Req) (op : Nat) (c m : Option Nat) (md : Modes) : (hold s r op c m md).pending = s.pending := by
  obtain ⟨_, h⟩ := hold_only s r op c m md; rw [h]
@[simp] theorem hold_rtc (s : State) (r : Req) (op : Nat) (c m : Option Nat) (md : Modes) : (hold s r op c m md).rtc = s.rtc := by
  obtain ⟨_, h⟩ := hold_only s r op c m md; rw [h]
@[simp] theorem hold_gptp (s : State) (r : Req) (op : Nat) (c m : Option Nat) (md : Modes) : (hold s r op c m md).gptp = s.gptp := by
  obtain ⟨_, h⟩ := hold_only s r op c m md; rw [h]
@[simp] theorem hold_regs (s : State) (r : Req) (op : Nat) (c m : Option Nat) (md : Modes) : (hold s r op c m md).regs = s.regs := by
  obtain ⟨_, h⟩ := hold_only s r op c m md; rw [h]
@[simp] theorem hold_heldRegs (s : State) (r : Req) (op : Nat) (c m : Option Nat) (md : Modes) : (hold s r op c m md).heldRegs = s.heldRegs := by
  obtain ⟨_, h⟩ := hold_only s r op c m md; rw [h]
@[simp] theorem hold_paths (s : State) (r : Req) (op : Nat) (c m : Option Nat) (md : Modes) : (hold s r op c m md).paths = s.paths := by
  obtain ⟨_, h⟩ := hold_only s r op c m md; rw [h]
@[simp] theorem hold_sessions (s : State) (r : Req) (op : Nat) (c m : Option Nat) (md : Modes) : (hold s r op c m md).sessions = s.sessions := by
  obtain ⟨_, h⟩ := hold_only s r op c m md; rw [h]
@[simp] theorem hold_openQueue (s : State) (r : Req) (op : Nat) (c m : Option Nat) (md : Modes) : (hold s r op c m md).openQueue = s.openQueue := by
  obtain ⟨_, h⟩ := hold_only s r op c m md; rw [h]
@[simp] theorem hold_nonces (s : State) (r : Req) (op : Nat) (c m : Option Nat) (md : Modes) : (hold s r op c m md).nonces = s.nonces := by
  obtain ⟨_, h⟩ := hold_only s r op c m md; rw [h]
@[simp] theorem hold_auths (s : State) (r : Req) (op : Nat) (c m : Option Nat) (md : Modes) : (hold s r op c m md).auths = s.auths := by
  obtain ⟨_, h⟩ := hold_only s r op c m md; rw [h]
@[simp] theorem hold_cbSeen (s : State) (r : Req) (op : Nat) (c m : Option Nat) (md : Modes) : (hold s r op c m md).cbSeen = s.cbSeen := by
  obtain ⟨_, h⟩ := hold_only s r op c m md; rw [h]
@[simp] theorem hold_meters (s : State) (r : Req) (op : Nat) (c m : Option Nat) (md : Modes) : (hold s r op c m md).meters = s.meters := by
  obtain ⟨_, h⟩ := hold_only s r op c m md; rw [h]
@[simp] theorem hold_eth (s : State) (r : Req) (op : Nat) (c m : Option Nat) (md : Modes) : (hold s r op c m md).eth = s.eth := by
  obtain ⟨_, h⟩ := hold_only s r op c m md; rw [h]
@[simp] theorem hold_unsent (s : State) (r : Req) (op : Nat) (c m : Option Nat) (md : Modes) : (hold s r op c m md).unsent = s.unsent := by
  obtain ⟨_, h⟩ := hold_only s r op c m md; rw [h]
@[simp] theorem hold_models (s : State) (r : Req) (op : Nat) (c m : Option Nat) (md : Modes) : (hold s r op c m md).models = s.models := by
  obtain ⟨_, h⟩ := hold_only s r op c m md; rw [h]
@[simp] theorem hold_modelGens (s : State) (r : Req) (op : Nat) (c m : Option Nat) (md : Modes) : (hold s r op c m md).modelGens = s.modelGens := by
  obtain ⟨_, h⟩ := hold_only s r op c m md; rw [h]
@[simp] theorem hold_ctxs (s : State) (r : Req) (op : Nat) (c m : Option Nat) (md : Modes) : (hold s r op c m md).ctxs = s.ctxs := by
  obtain ⟨_, h⟩ := hold_only s r op c m md; rw [h]
@[simp] theorem hold_ctxGens (s : State) (r : Req) (op : Nat) (c m : Option Nat) (md : Modes) : (hold s r op c m md).ctxGens = s.ctxGens := by
  obtain ⟨_, h⟩ := hold_only s r op c m md; rw [h]
@[simp] theorem hold_hbm (s : State) (r : Req) (op : Nat) (c m : Option Nat) (md : Modes) : (hold s r op c m md).hbm = s.hbm := by
  obtain ⟨_, h⟩ := hold_only s r op c m md; rw [h]
@[simp] theorem hold_marks (s : State) (r : Req) (op : Nat) (c m : Option Nat) (md : Modes) : (hold s r op c m md).marks = s.marks := by
  obtain ⟨_, h⟩ := hold_only s r op c m md; rw [h]
@[simp] theorem hold_spadMarks (s : State) (r : Req) (op : Nat) (c m : Option Nat) (md : Modes) : (hold s r op c m md).spadMarks = s.spadMarks := by
  obtain ⟨_, h⟩ := hold_only s r op c m md; rw [h]
@[simp] theorem hold_otherMarks (s : State) (r : Req) (op : Nat) (c m : Option Nat) (md : Modes) : (hold s r op c m md).otherMarks = s.otherMarks := by
  obtain ⟨_, h⟩ := hold_only s r op c m md; rw [h]
@[simp] theorem hold_writeBacks (s : State) (r : Req) (op : Nat) (c m : Option Nat) (md : Modes) : (hold s r op c m md).writeBacks = s.writeBacks := by
  obtain ⟨_, h⟩ := hold_only s r op c m md; rw [h]
@[simp] theorem hold_walkers (s : State) (r : Req) (op : Nat) (c m : Option Nat) (md : Modes) : (hold s r op c m md).walkers = s.walkers := by
  obtain ⟨_, h⟩ := hold_only s r op c m md; rw [h]
@[simp] theorem hold_moves (s : State) (r : Req) (op : Nat) (c m : Option Nat) (md : Modes) : (hold s r op c m md).moves = s.moves := by
  obtain ⟨_, h⟩ := hold_only s r op c m md; rw [h]
@[simp] theorem hold_fills (s : State) (r : Req) (op : Nat) (c m : Option Nat) (md : Modes) : (hold s r op c m md).fills = s.fills := by
  obtain ⟨_, h⟩ := hold_only s r op c m md; rw [h]
@[simp] theorem hold_loads (s : State) (r : Req) (op : Nat) (c m : Option Nat) (md : Modes) : (hold s r op c m md).loads = s.loads := by
  obtain ⟨_, h⟩ := hold_only s r op c m md; rw [h]
@[simp] theorem hold_saves (s : State) (r : Req) (op : Nat) (c m : Option Nat) (md : Modes) : (hold s r op c m md).saves = s.saves := by
  obtain ⟨_, h⟩ := hold_only s r op c m md; rw [h]
@[simp] theorem hold_destroys (s : State) (r : Req) (op : Nat) (c m : Option Nat) (md : Modes) : (hold s r op c m md).destroys = s.destroys := by
  obtain ⟨_, h⟩ := hold_only s r op c m md; rw [h]
@[simp] theorem hold_progs (s : State) (r : Req) (op : Nat) (c m : Option Nat) (md : Modes) : (hold s r op c m md).progs = s.progs := by
  obtain ⟨_, h⟩ := hold_only s r op c m md; rw [h]
@[simp] theorem hold_drains (s : State) (r : Req) (op : Nat) (c m : Option Nat) (md : Modes) : (hold s r op c m md).drains = s.drains := by
  obtain ⟨_, h⟩ := hold_only s r op c m md; rw [h]
@[simp] theorem hold_map (s : State) (r : Req) (op : Nat) (c m : Option Nat) (md : Modes) : (hold s r op c m md).map = s.map := by
  obtain ⟨_, h⟩ := hold_only s r op c m md; rw [h]
@[simp] theorem hold_cores (s : State) (r : Req) (op : Nat) (c m : Option Nat) (md : Modes) : (hold s r op c m md).cores = s.cores := by
  obtain ⟨_, h⟩ := hold_only s r op c m md; rw [h]
@[simp] theorem hold_faults (s : State) (r : Req) (op : Nat) (c m : Option Nat) (md : Modes) : (hold s r op c m md).faults = s.faults := by
  obtain ⟨_, h⟩ := hold_only s r op c m md; rw [h]
@[simp] theorem hold_trail (s : State) (r : Req) (op : Nat) (c m : Option Nat) (md : Modes) : (hold s r op c m md).trail = s.trail := by
  obtain ⟨_, h⟩ := hold_only s r op c m md; rw [h]
@[simp] theorem hold_power (s : State) (r : Req) (op : Nat) (c m : Option Nat) (md : Modes) : (hold s r op c m md).power = s.power := by
  obtain ⟨_, h⟩ := hold_only s r op c m md; rw [h]
@[simp] theorem hold_sec (s : State) (r : Req) (op : Nat) (c m : Option Nat) (md : Modes) : (hold s r op c m md).sec = s.sec := by
  obtain ⟨_, h⟩ := hold_only s r op c m md; rw [h]
@[simp] theorem hold_ent (s : State) (r : Req) (op : Nat) (c m : Option Nat) (md : Modes) : (hold s r op c m md).ent = s.ent := by
  obtain ⟨_, h⟩ := hold_only s r op c m md; rw [h]
@[simp] theorem hold_ports (s : State) (r : Req) (op : Nat) (c m : Option Nat) (md : Modes) : (hold s r op c m md).ports = s.ports := by
  obtain ⟨_, h⟩ := hold_only s r op c m md; rw [h]
@[simp] theorem hold_join (s : State) (r : Req) (op : Nat) (c m : Option Nat) (md : Modes) : (hold s r op c m md).join = s.join := by
  obtain ⟨_, h⟩ := hold_only s r op c m md; rw [h]
@[simp] theorem hold_side (s : State) (r : Req) (op : Nat) (c m : Option Nat) (md : Modes) : (hold s r op c m md).side = s.side := by
  obtain ⟨_, h⟩ := hold_only s r op c m md; rw [h]
@[simp] theorem hold_tap (s : State) (r : Req) (op : Nat) (c m : Option Nat) (md : Modes) : (hold s r op c m md).tap = s.tap := by
  obtain ⟨_, h⟩ := hold_only s r op c m md; rw [h]
@[simp] theorem hold_turn (s : State) (r : Req) (op : Nat) (c m : Option Nat) (md : Modes) : (hold s r op c m md).turn = s.turn := by
  obtain ⟨_, h⟩ := hold_only s r op c m md; rw [h]
@[simp] theorem hold_spad (s : State) (r : Req) (op : Nat) (c m : Option Nat) (md : Modes) : (hold s r op c m md).spad = s.spad := by
  obtain ⟨_, h⟩ := hold_only s r op c m md; rw [h]
@[simp] theorem hold_slots (s : State) (r : Req) (op : Nat) (c m : Option Nat) (md : Modes) : (hold s r op c m md).slots = s.slots := by
  obtain ⟨_, h⟩ := hold_only s r op c m md; rw [h]
@[simp] theorem hold_out (s : State) (r : Req) (op : Nat) (c m : Option Nat) (md : Modes) : (hold s r op c m md).out = s.out := by
  obtain ⟨_, h⟩ := hold_only s r op c m md; rw [h]
@[simp] theorem hold_free (s : State) (r : Req) (op : Nat) (c m : Option Nat) (md : Modes) : (hold s r op c m md).free = s.free := by
  obtain ⟨_, h⟩ := hold_only s r op c m md; rw [h]

@[simp] theorem unqueue_pending (s : State) (r : Req) (op : Nat) : (unqueue s r op).pending = s.pending := by
  obtain ⟨_, _, _, h⟩ := unqueue_only s r op; rw [h]
@[simp] theorem unqueue_rtc (s : State) (r : Req) (op : Nat) : (unqueue s r op).rtc = s.rtc := by
  obtain ⟨_, _, _, h⟩ := unqueue_only s r op; rw [h]
@[simp] theorem unqueue_gptp (s : State) (r : Req) (op : Nat) : (unqueue s r op).gptp = s.gptp := by
  obtain ⟨_, _, _, h⟩ := unqueue_only s r op; rw [h]
@[simp] theorem unqueue_regs (s : State) (r : Req) (op : Nat) : (unqueue s r op).regs = s.regs := by
  obtain ⟨_, _, _, h⟩ := unqueue_only s r op; rw [h]
@[simp] theorem unqueue_heldRegs (s : State) (r : Req) (op : Nat) : (unqueue s r op).heldRegs = s.heldRegs := by
  obtain ⟨_, _, _, h⟩ := unqueue_only s r op; rw [h]
@[simp] theorem unqueue_paths (s : State) (r : Req) (op : Nat) : (unqueue s r op).paths = s.paths := by
  obtain ⟨_, _, _, h⟩ := unqueue_only s r op; rw [h]
@[simp] theorem unqueue_taken (s : State) (r : Req) (op : Nat) : (unqueue s r op).taken = s.taken := by
  obtain ⟨_, _, _, h⟩ := unqueue_only s r op; rw [h]
@[simp] theorem unqueue_nonces (s : State) (r : Req) (op : Nat) : (unqueue s r op).nonces = s.nonces := by
  obtain ⟨_, _, _, h⟩ := unqueue_only s r op; rw [h]
@[simp] theorem unqueue_auths (s : State) (r : Req) (op : Nat) : (unqueue s r op).auths = s.auths := by
  obtain ⟨_, _, _, h⟩ := unqueue_only s r op; rw [h]
@[simp] theorem unqueue_cbSeen (s : State) (r : Req) (op : Nat) : (unqueue s r op).cbSeen = s.cbSeen := by
  obtain ⟨_, _, _, h⟩ := unqueue_only s r op; rw [h]
@[simp] theorem unqueue_meters (s : State) (r : Req) (op : Nat) : (unqueue s r op).meters = s.meters := by
  obtain ⟨_, _, _, h⟩ := unqueue_only s r op; rw [h]
@[simp] theorem unqueue_eth (s : State) (r : Req) (op : Nat) : (unqueue s r op).eth = s.eth := by
  obtain ⟨_, _, _, h⟩ := unqueue_only s r op; rw [h]
@[simp] theorem unqueue_unsent (s : State) (r : Req) (op : Nat) : (unqueue s r op).unsent = s.unsent := by
  obtain ⟨_, _, _, h⟩ := unqueue_only s r op; rw [h]
@[simp] theorem unqueue_models (s : State) (r : Req) (op : Nat) : (unqueue s r op).models = s.models := by
  obtain ⟨_, _, _, h⟩ := unqueue_only s r op; rw [h]
@[simp] theorem unqueue_modelGens (s : State) (r : Req) (op : Nat) : (unqueue s r op).modelGens = s.modelGens := by
  obtain ⟨_, _, _, h⟩ := unqueue_only s r op; rw [h]
@[simp] theorem unqueue_ctxs (s : State) (r : Req) (op : Nat) : (unqueue s r op).ctxs = s.ctxs := by
  obtain ⟨_, _, _, h⟩ := unqueue_only s r op; rw [h]
@[simp] theorem unqueue_ctxGens (s : State) (r : Req) (op : Nat) : (unqueue s r op).ctxGens = s.ctxGens := by
  obtain ⟨_, _, _, h⟩ := unqueue_only s r op; rw [h]
@[simp] theorem unqueue_hbm (s : State) (r : Req) (op : Nat) : (unqueue s r op).hbm = s.hbm := by
  obtain ⟨_, _, _, h⟩ := unqueue_only s r op; rw [h]
@[simp] theorem unqueue_marks (s : State) (r : Req) (op : Nat) : (unqueue s r op).marks = s.marks := by
  obtain ⟨_, _, _, h⟩ := unqueue_only s r op; rw [h]
@[simp] theorem unqueue_spadMarks (s : State) (r : Req) (op : Nat) : (unqueue s r op).spadMarks = s.spadMarks := by
  obtain ⟨_, _, _, h⟩ := unqueue_only s r op; rw [h]
@[simp] theorem unqueue_otherMarks (s : State) (r : Req) (op : Nat) : (unqueue s r op).otherMarks = s.otherMarks := by
  obtain ⟨_, _, _, h⟩ := unqueue_only s r op; rw [h]
@[simp] theorem unqueue_writeBacks (s : State) (r : Req) (op : Nat) : (unqueue s r op).writeBacks = s.writeBacks := by
  obtain ⟨_, _, _, h⟩ := unqueue_only s r op; rw [h]
@[simp] theorem unqueue_walkers (s : State) (r : Req) (op : Nat) : (unqueue s r op).walkers = s.walkers := by
  obtain ⟨_, _, _, h⟩ := unqueue_only s r op; rw [h]
@[simp] theorem unqueue_moves (s : State) (r : Req) (op : Nat) : (unqueue s r op).moves = s.moves := by
  obtain ⟨_, _, _, h⟩ := unqueue_only s r op; rw [h]
@[simp] theorem unqueue_fills (s : State) (r : Req) (op : Nat) : (unqueue s r op).fills = s.fills := by
  obtain ⟨_, _, _, h⟩ := unqueue_only s r op; rw [h]
@[simp] theorem unqueue_loads (s : State) (r : Req) (op : Nat) : (unqueue s r op).loads = s.loads := by
  obtain ⟨_, _, _, h⟩ := unqueue_only s r op; rw [h]
@[simp] theorem unqueue_saves (s : State) (r : Req) (op : Nat) : (unqueue s r op).saves = s.saves := by
  obtain ⟨_, _, _, h⟩ := unqueue_only s r op; rw [h]
@[simp] theorem unqueue_destroys (s : State) (r : Req) (op : Nat) : (unqueue s r op).destroys = s.destroys := by
  obtain ⟨_, _, _, h⟩ := unqueue_only s r op; rw [h]
@[simp] theorem unqueue_progs (s : State) (r : Req) (op : Nat) : (unqueue s r op).progs = s.progs := by
  obtain ⟨_, _, _, h⟩ := unqueue_only s r op; rw [h]
@[simp] theorem unqueue_drains (s : State) (r : Req) (op : Nat) : (unqueue s r op).drains = s.drains := by
  obtain ⟨_, _, _, h⟩ := unqueue_only s r op; rw [h]
@[simp] theorem unqueue_map (s : State) (r : Req) (op : Nat) : (unqueue s r op).map = s.map := by
  obtain ⟨_, _, _, h⟩ := unqueue_only s r op; rw [h]
@[simp] theorem unqueue_cores (s : State) (r : Req) (op : Nat) : (unqueue s r op).cores = s.cores := by
  obtain ⟨_, _, _, h⟩ := unqueue_only s r op; rw [h]
@[simp] theorem unqueue_faults (s : State) (r : Req) (op : Nat) : (unqueue s r op).faults = s.faults := by
  obtain ⟨_, _, _, h⟩ := unqueue_only s r op; rw [h]
@[simp] theorem unqueue_trail (s : State) (r : Req) (op : Nat) : (unqueue s r op).trail = s.trail := by
  obtain ⟨_, _, _, h⟩ := unqueue_only s r op; rw [h]
@[simp] theorem unqueue_power (s : State) (r : Req) (op : Nat) : (unqueue s r op).power = s.power := by
  obtain ⟨_, _, _, h⟩ := unqueue_only s r op; rw [h]
@[simp] theorem unqueue_sec (s : State) (r : Req) (op : Nat) : (unqueue s r op).sec = s.sec := by
  obtain ⟨_, _, _, h⟩ := unqueue_only s r op; rw [h]
@[simp] theorem unqueue_ent (s : State) (r : Req) (op : Nat) : (unqueue s r op).ent = s.ent := by
  obtain ⟨_, _, _, h⟩ := unqueue_only s r op; rw [h]
@[simp] theorem unqueue_ports (s : State) (r : Req) (op : Nat) : (unqueue s r op).ports = s.ports := by
  obtain ⟨_, _, _, h⟩ := unqueue_only s r op; rw [h]
@[simp] theorem unqueue_join (s : State) (r : Req) (op : Nat) : (unqueue s r op).join = s.join := by
  obtain ⟨_, _, _, h⟩ := unqueue_only s r op; rw [h]
@[simp] theorem unqueue_side (s : State) (r : Req) (op : Nat) : (unqueue s r op).side = s.side := by
  obtain ⟨_, _, _, h⟩ := unqueue_only s r op; rw [h]
@[simp] theorem unqueue_tap (s : State) (r : Req) (op : Nat) : (unqueue s r op).tap = s.tap := by
  obtain ⟨_, _, _, h⟩ := unqueue_only s r op; rw [h]
@[simp] theorem unqueue_spad (s : State) (r : Req) (op : Nat) : (unqueue s r op).spad = s.spad := by
  obtain ⟨_, _, _, h⟩ := unqueue_only s r op; rw [h]
@[simp] theorem unqueue_slots (s : State) (r : Req) (op : Nat) : (unqueue s r op).slots = s.slots := by
  obtain ⟨_, _, _, h⟩ := unqueue_only s r op; rw [h]
@[simp] theorem unqueue_out (s : State) (r : Req) (op : Nat) : (unqueue s r op).out = s.out := by
  obtain ⟨_, _, _, h⟩ := unqueue_only s r op; rw [h]
@[simp] theorem unqueue_free (s : State) (r : Req) (op : Nat) : (unqueue s r op).free = s.free := by
  obtain ⟨_, _, _, h⟩ := unqueue_only s r op; rw [h]

/-! ### Taking a command -/

/-- A command that is ready is served. -/
theorem serve_ready {s : State} {r : Req} {op : Nat} {ctx model : Option Nat} {f : State → State} (h : Ready s r op ctx model) :
    serve s r op ctx model f = .next (f (unqueue s r op)) := by
  simp [serve, take, h.1, h.2]

theorem serveEarly_ready {s : State} {r : Req} {op : Nat} {early doze : Bool} {f : State → State} (h : ReadyEarly s r op early doze) :
    serveEarly s r op early doze f = .next (f (unqueue s r op)) := by
  simp [serveEarly, take, h.1, h.2]

/-- What taking a command answers: it is not taken, it waits behind an earlier one, or it is served. -/
theorem take_cases (s : State) (r : Req) (op : Nat) (early doze : Bool) (ctx model : Option Nat) (f : State → State) :
    take s r op early doze ctx model f = .next s ∨
    take s r op early doze ctx model f = .next (hold (unqueue s r op) r op ctx model (modesOf s r op)) ∨
    take s r op early doze ctx model f = .next (f (unqueue s r op)) := by
  unfold take; split
  · split <;> simp
  · simp

/-- The checks pass, or the first that fails is answered. -/
theorem checked_pass {s : State} {r : Req} {op : Nat} {cs : List (Bool × Status × Nat)} {ok : State → State}
    (h : firstErr cs = none) : checked s r op cs ok = ok s := by
  simp [checked, h]

theorem checked_cases (s : State) (r : Req) (op : Nat) (cs : List (Bool × Status × Nat)) (ok : State → State) :
    checked s r op cs ok = ok s ∨ ∃ e : Status × Nat, checked s r op cs ok = reply s r op e.1 e.2 := by
  unfold checked; split
  · exact .inr ⟨_, rfl⟩
  · exact .inl rfl

/-- No check of a list fails. -/
theorem firstErr_none {cs : List (Bool × Status × Nat)} (h : ∀ c ∈ cs, c.1 = false) : firstErr cs = none := by
  induction cs with
  | nil => rfl
  | cons c cs ih =>
    obtain ⟨b, e⟩ := c
    have hb : b = false := h (b, e) (List.mem_cons_self ..)
    subst hb
    exact ih (fun c hc => h c (List.mem_cons_of_mem _ hc))

end Sys2Proof.Machine
end

