-- ==== Sys2Proof/Laws/Regs.lean ====
section
/-!
SUPPORT. Sessions, paths, register views, the checks that precede a command, and what a write of HBM does to each byte.
-/

namespace Sys2Proof.Machine

/-! ### Sessions and paths -/

theorem session_modSession (s : State) (k j : Nat) (f : Session → Session) :
    session (modSession s k f) j = if j = k then f (session s k) else session s j := by
  unfold session modSession setSession lookupD; split
  · subst j; simp [session, lookupD]
  · rename_i h; simp [lookup_put_other _ _ h]

theorem path_setPath_same (s : State) (p : Nat) (v : Path) : path (setPath s p v) p = v := by
  simp [path, setPath, lookupD]

theorem path_setPath_other (s : State) {p q : Nat} (v : Path) (h : q ≠ p) : path (setPath s p v) q = path s q := by
  simp [path, setPath, lookupD, lookup_put_other _ _ h]

/-! ### Views -/

theorem makeRoom_held (h : Map Word) (n : Nat) (s : State) (p need : Nat) :
    makeRoom n { s with heldRegs := h } p need = (makeRoom n s p need).map (fun t => { t with heldRegs := h }) := by
  have e1 : ∀ s : State, residentSize { s with heldRegs := h } p = residentSize s p := fun _ => rfl
  have e2 : ∀ s : State, oldestIdle { s with heldRegs := h } p = oldestIdle s p := fun _ => rfl
  induction n generalizing s with
  | zero => simp only [makeRoom, e1]; split <;> rfl
  | succ n ih =>
    simp only [makeRoom, e1, e2]; split
    · rfl
    · split
      · rfl
      · rename_i g _
        exact ih (modCore s p (fun c => { c with shares := eraseFirst (fun x => x == g) c.shares }))

theorem roomFor_held (s : State) (h : Map Word) (m : Model) (absent : List (Nat × Nat)) :
    roomFor { s with heldRegs := h } m absent = (roomFor s m absent).map (fun t => { t with heldRegs := h }) := by
  have fold : ∀ (ps : List Nat) (acc : Option State),
      ps.foldl (fun (acc : Option State) p =>
        acc.bind (fun s => makeRoom (coreState s p).shares.length s p
          ((absent.filter (fun e => e.2 == p)).map (fun e => workingSize m e.1)).sum))
        (acc.map (fun t => ({ t with heldRegs := h } : State))) =
      (ps.foldl (fun (acc : Option State) p =>
        acc.bind (fun s => makeRoom (coreState s p).shares.length s p
          ((absent.filter (fun e => e.2 == p)).map (fun e => workingSize m e.1)).sum)) acc).map
        (fun t => { t with heldRegs := h }) := by
    intro ps
    induction ps with
    | nil => intro acc; rfl
    | cons p ps ih =>
      intro acc
      rw [List.foldl_cons, List.foldl_cons, ← ih]
      congr 1
      cases acc with
      | none => rfl
      | some s => exact makeRoom_held h _ s p _
  exact fold _ (some s)

/-- A pending value leaves a replacement of shares as it is. -/
theorem evicting_held (s : State) (h : Map Word) : evicting { s with heldRegs := h } = evicting s := by
  have e : ∀ m absent, (roomFor { s with heldRegs := h } m absent).isSome = (roomFor s m absent).isSome := by
    intro m absent; rw [roomFor_held]; simp
  unfold evicting
  simp only [e]
  rfl

/-- A pending value shows in no register but REG_STATUS (17 R506). -/
theorem view_held (s : State) (h : Map Word) (b : Bool) (a : Nat) (ha : a ≠ 0x24) : viewReg { s with heldRegs := h } b a = viewReg s b a := by
  obtain ⟨t, ht⟩ : ∃ t, t = ({ s with heldRegs := h } : State) := ⟨_, rfl⟩
  rw [← ht]
  have f1 : ∀ l, physOf t l = physOf s l := by subst ht; intros; rfl
  have f2 : t.sec = s.sec := by subst ht; rfl
  have f3 : ∀ l, port t l = port s l := by subst ht; intros; rfl
  have f4 : ∀ l, coreStatus t l = coreStatus s l := by subst ht; intros; rfl
  have f5 : ∀ l, coreState t l = coreState s l := by subst ht; intros; rfl
  have f6 : ∀ l, spinStatus t l = spinStatus s l := by subst ht; intros; rfl
  have f7 : hbmState t = hbmState s := by subst ht; rfl
  have f8 : ∀ n, sensor t n = sensor s n := by subst ht; intros; rfl
  have f9 : t.walkers = s.walkers := by subst ht; rfl
  have g1 : t.map = s.map := by subst ht; rfl
  have g2 : ∀ x, regVal t x = regVal s x := by subst ht; intros; rfl
  have g3 : halvesEqual t = halvesEqual s := by subst ht; rfl
  have g4 : t.models = s.models := by subst ht; rfl
  have g5 : t.ctxs = s.ctxs := by subst ht; rfl
  have g6 : t.join = s.join := by subst ht; rfl
  have g7 : t.power = s.power := by subst ht; rfl
  have g8 : pwrStatus t = pwrStatus s := by subst ht; rfl
  have g9 : ∀ i n, hottest t i n = hottest s i n := by subst ht; intros; rfl
  have k1 : t.rtc = s.rtc := by subst ht; rfl
  have k2 : faultStatus t = faultStatus s := by subst ht; rfl
  have k3 : fenceOtp t = fenceOtp s := by subst ht; rfl
  have k4 : fenceVol t = fenceVol s := by subst ht; rfl
  have k5 : t.faults = s.faults := by subst ht; rfl
  have k6 : t.trail = s.trail := by subst ht; rfl
  have k7 : entStatus t = entStatus s := by subst ht; rfl
  have k8 : t.ent = s.ent := by subst ht; rfl
  have k9 : secStatus t b = secStatus s b := by subst ht; rfl
  have l1 : ∀ e, ethPort t e = ethPort s e := by subst ht; intros; rfl
  have l2 : ∀ e, session t e = session s e := by subst ht; intros; rfl
  have l3 : budget t = budget s := by subst ht; rfl
  have l4 : ∀ e, walking t e = walking s e := by subst ht; intros; rfl
  have l5 : evicting t = evicting s := by subst ht; exact evicting_held s h
  clear ht
  unfold viewReg
  simp only [f1,f2,f3,f4,f5,f6,f7,f8,f9,g1,g2,g3,g4,g5,g6,g7,g8,g9,k1,k2,k3,k4,k5,k6,k7,k8,k9,l1,l2,l3,l4,l5]
  repeat' (refine ite_congr rfl (fun _ => rfl) (fun _ => ?_))
  split <;> first | rfl | exact absurd rfl ha

/-! ### What taking a command from its queue leaves -/

theorem regionChecks_unqueue (s : State) (r op) (a n al w) : regionChecks (unqueue s r op) a n al w = regionChecks s a n al w := by
  obtain ⟨x, y, z, h⟩ := unqueue_only s r op; rw [h]; rfl

theorem modelOfHandle_unqueue (s : State) (r op) (h) : modelOfHandle (unqueue s r op) h = modelOfHandle s h := by
  obtain ⟨x, y, z, e⟩ := unqueue_only s r op; rw [e]; rfl

theorem ctxOf_unqueue (s : State) (r op) (h) : ctxOf (unqueue s r op) h = ctxOf s h := by
  obtain ⟨x, y, z, e⟩ := unqueue_only s r op; rw [e]; rfl

theorem ctxModel_unqueue (s : State) (r op) (h) : ctxModel (unqueue s r op) h = ctxModel s h := by
  obtain ⟨x, y, z, e⟩ := unqueue_only s r op; rw [e]; rfl

/-- A region that is in order fails no check of R336. -/
theorem region_pass {s : State} {a n al w} (h : RegionOk s a n al w) : ∀ c ∈ regionChecks s a n al w, c.1 = false := by
  obtain ⟨h1, h2, h3⟩ := h
  intro c hc; simp [regionChecks] at hc
  rcases hc with rfl | rfl
  · simp [h1, h2]
  · cases w <;> simp_all

/-! ### What a write does to each byte (13 R414, R417, R418) -/

theorem lookup_append {α : Type} (m n : Map α) (k : Nat) : lookup (m ++ n) k = (lookup m k).or (lookup n k) := by
  induction m with
  | nil => simp [lookup]
  | cons a m ih => obtain ⟨j, v⟩ := a; simp only [List.cons_append, lookup]; split <;> simp_all

theorem lookup_filter {α : Type} (m : Map α) (p : Nat → Bool) (k : Nat) :
    lookup (m.filter (fun e => p e.1)) k = if p k then lookup m k else none := by
  induction m with
  | nil => simp [lookup]
  | cons a m ih =>
    obtain ⟨j, v⟩ := a
    by_cases hj : p j
    · simp only [List.filter_cons, hj, if_true, lookup, ih]
      split
      · subst j; simp [hj]
      · rfl
    · rw [List.filter_cons, if_neg (by simpa using hj), ih, lookup]
      by_cases h : j = k
      · subst h; simp [hj]
      · rw [if_neg h]

theorem lookup_cellsAt (bs : List Byte) : ∀ a k : Nat, k < bs.length → lookup (cellsAt a bs) (a + k) = bs[k]? := by
  induction bs with
  | nil => intro a k h; simp at h
  | cons b bs ih =>
    intro a k h
    have e : cellsAt a (b :: bs) = (a, b) :: cellsAt (a + 1) bs := by
      simp only [cellsAt, List.length_cons, List.range_succ_eq_map, List.zipWith_cons_cons, List.zipWith_map_left, Nat.add_zero]
      congr 1; congr 1; funext i c; simp; omega
    rw [e, lookup]
    cases k with
    | zero => simp
    | succ k =>
      have : a ≠ a + (k + 1) := by omega
      rw [if_neg this, show a + (k + 1) = a + 1 + k by omega, ih]
      · simp
      · simpa using h

theorem lookup_none {α : Type} {m : Map α} {k : Nat} (h : ∀ e ∈ m, e.1 ≠ k) : lookup m k = none := by
  induction m with
  | nil => rfl
  | cons a m ih =>
    obtain ⟨j, v⟩ := a
    rw [lookup, if_neg (h _ (List.mem_cons_self ..)), ih (fun e he => h e (List.mem_cons_of_mem _ he))]

/-- The bytes put are the ones read there. -/
theorem lookup_putCells_in (m : List Host.Cell) (a k : Nat) (bs : List Byte) (h : k < bs.length) :
    lookup (putCells m a bs) (a + k) = bs[k]? := by
  have h1 : lookup (m.filter (fun c => c.1 < a)) (a + k) = none := by
    have := lookup_filter m (fun x => decide (x < a)) (a + k); simpa using this
  rw [putCells, List.append_assoc, lookup_append, lookup_append, h1, lookup_cellsAt bs a k h]
  obtain ⟨b, hb⟩ : ∃ b, bs[k]? = some b := ⟨bs[k], by simp [h]⟩
  simp [hb]

/-- Every other byte stays. -/
theorem lookup_putCells_out (m : List Host.Cell) (a b : Nat) (bs : List Byte) (h : b < a ∨ a + bs.length ≤ b) :
    lookup (putCells m a bs) b = lookup m b := by
  have h1 : lookup (m.filter (fun c => c.1 < a)) b = if b < a then lookup m b else none := by
    have := lookup_filter m (fun x => decide (x < a)) b; simpa using this
  have h2 : lookup (m.filter (fun c => a + bs.length ≤ c.1)) b = if a + bs.length ≤ b then lookup m b else none := by
    have := lookup_filter m (fun x => decide (a + bs.length ≤ x)) b; simpa using this
  have h3 : lookup (cellsAt a bs) b = none := lookup_none (fun e he => by have := cellsAt_mem he; omega)
  rw [putCells, List.append_assoc, lookup_append, lookup_append, h1, h2, h3]
  rcases h with h | h
  · have : ¬ a + bs.length ≤ b := by omega
    simp [h, this]
  · have : ¬ b < a := by omega
    simp [h, this]

/-- What a byte reads as depends on the readable bytes and the marks alone. -/
theorem peek_congr {s t : State} (h : t.hbm = s.hbm) (m : t.marks = s.marks) (a : Nat) : peek t a = peek s a := by
  simp only [peek, h, m]

/-- A write of whole words: they read back, and every other byte stays. -/
theorem writeWords_peek (s : State) (a : Nat) (bs : List Byte) (ha : a % 8 = 0) (hn : bs.length % 8 = 0) :
    (∀ k, k < bs.length → peek (writeWords s a bs) (a + k) = bs[k]?) ∧
    (∀ b, b < a ∨ a + bs.length ≤ b → peek (writeWords s a bs) b = peek s b) := by
  unfold writeWords
  split
  · rename_i h; cases bs <;> simp_all
  · refine ⟨fun k hk => ?_, fun b hb => ?_⟩
    · have hm := lookup_filter s.marks (fun x => !(decide (a ≤ x) && decide (x < a + bs.length))) ((a + k) / 8 * 8)
      have : (!(decide (a ≤ (a + k) / 8 * 8) && decide ((a + k) / 8 * 8 < a + bs.length))) = false := by
        simp; omega
      rw [this] at hm
      simp only [peek, hm]
      exact lookup_putCells_in _ _ _ _ hk
    · have hm := lookup_filter s.marks (fun x => !(decide (a ≤ x) && decide (x < a + bs.length))) (b / 8 * 8)
      have : (!(decide (a ≤ b / 8 * 8) && decide (b / 8 * 8 < a + bs.length))) = true := by
        simp; omega
      rw [this] at hm
      simp only [peek, hm, lookup_putCells_out _ _ _ _ hb]
      rfl

/-- A write within one word: in a word that can be read it reads back, and every other byte stays. -/
theorem narrowWrite_peek (s : State) (a : Nat) (bs : List Byte) (hn : a % 8 + bs.length ≤ 8) :
    (∀ k, k < bs.length → (peek s ((a + k) / 8 * 8)).isSome = true → peek (narrowWrite s a bs) (a + k) = bs[k]?) ∧
    (∀ b, b < a ∨ a + bs.length ≤ b → peek (narrowWrite s a bs) b = peek s b) := by
  unfold narrowWrite
  dsimp only
  split
  · rename_i h; cases bs <;> simp_all
  · have e8 : a / 8 * 8 / 8 * 8 = a / 8 * 8 := by omega
    have ek : ∀ k, k < bs.length → (a + k) / 8 * 8 = a / 8 * 8 := by intro k hk; omega
    have out : ∀ b, b < a ∨ a + bs.length ≤ b →
        lookup (if (lookup s.hbm (a / 8 * 8)).isSome then putCells s.hbm a bs else s.hbm) b = lookup s.hbm b := by
      intro b hb
      split
      · exact lookup_putCells_out _ _ _ _ hb
      · rfl
    split
    · rename_i hm
      refine ⟨fun k hk h => ?_, fun b hb => ?_⟩
      · rw [ek k hk] at h
        simp only [peek, e8, hm] at h
        simp only [peek, ek k hk, hm, h, if_true]
        exact lookup_putCells_in _ _ _ _ hk
      · simp only [peek, out b hb]
    · rename_i hm
      refine ⟨fun k hk _ => ?_, fun b hb => ?_⟩
      · simp only [peek, ek k hk, memEvent_marks, memEvent_hbm, bump_marks, bump_hbm, lookup_del_same]
        exact lookup_putCells_in _ _ _ _ hk
      · simp only [peek, memEvent_marks, memEvent_hbm, bump_marks, bump_hbm, lookup_putCells_out _ _ _ _ hb]
        by_cases h : b / 8 * 8 = a / 8 * 8
        · rw [h, hm, lookup_del_same]
        · rw [lookup_del_other _ h]
    · rename_i hm
      refine ⟨fun k hk h => ?_, fun b hb => ?_⟩
      · rw [ek k hk] at h; simp [peek, hm] at h
      · simp only [peek, memEvent_marks, bump_marks, out b hb]
        by_cases h : b / 8 * 8 = a / 8 * 8
        · rw [h, hm, lookup_put_same]
        · rw [lookup_put_other _ _ h]
    · rename_i c n1 n2 hm
      refine ⟨fun k hk h => ?_, fun b hb => ?_⟩
      · rw [ek k hk] at h
        simp only [peek, e8, hm] at h
        cases c <;> simp_all
      · simp only [peek, out b hb]

/-- A write of HBM: every word that could be read, or that it covers whole, holds its bytes; no other byte changes. -/
theorem writeHbm_written (s : State) (a : Nat) (bs : List Byte) : Written s (writeHbm s a bs) a bs := by
  unfold writeHbm Written
  dsimp only
  generalize hh : (if a % 8 = 0 then 0 else min bs.length (8 - a % 8)) = h
  generalize hm : (bs.length - h) / 8 * 8 = m
  have hc : (a % 8 = 0 ∧ h = 0) ∨ (a % 8 ≠ 0 ∧ h = bs.length ∧ bs.length ≤ 8 - a % 8) ∨ (a % 8 ≠ 0 ∧ h = 8 - a % 8 ∧ h ≤ bs.length) := by
    subst hh; split <;> omega
  clear hh
  have b1 : h ≤ bs.length := by omega
  have l1 : (bs.take h).length = h := by simp [b1]
  have l2 : ((bs.drop h).take m).length = m := by simp; omega
  have l3 : (bs.drop (h + m)).length = bs.length - h - m := by simp; omega
  have A := narrowWrite_peek s a (bs.take h) (by rw [l1]; omega)
  have B := writeWords_peek (narrowWrite s a (bs.take h)) (a + h) ((bs.drop h).take m)
  have C := narrowWrite_peek (writeWords (narrowWrite s a (bs.take h)) (a + h) ((bs.drop h).take m)) (a + h + m)
    (bs.drop (h + m))
  rw [l1] at A; rw [l2] at B; rw [l3] at C
  have C := C (by omega)
  refine ⟨fun k hk hr => ?_, fun b hb => ?_⟩
  · by_cases c1 : k < h
    · rw [C.2 _ (by omega)]
      by_cases m0 : m = 0
      · have e : writeWords (narrowWrite s a (bs.take h)) (a + h) ((bs.drop h).take m) = narrowWrite s a (bs.take h) := by
          simp [writeWords, m0]
        rw [e, A.1 k c1 (hr.resolve_right (by omega))]; simp [c1]
      · have B := B (by omega) (by omega)
        rw [B.2 _ (by omega), A.1 k c1 (hr.resolve_right (by omega))]; simp [c1]
    · by_cases c2 : k < h + m
      · have B := B (by omega) (by omega)
        rw [C.2 _ (by omega), show a + k = a + h + (k - h) by omega, B.1 _ (by omega)]
        rw [List.getElem?_take, if_pos (by omega), List.getElem?_drop]; congr 1; omega
      · have hs : (peek s ((a + k) / 8 * 8)).isSome = true := hr.resolve_right (by omega)
        have e1 : ∀ b, a + h + m ≤ b → peek (writeWords (narrowWrite s a (bs.take h)) (a + h) ((bs.drop h).take m)) b =
            peek s b := by
          intro b hb
          by_cases m0 : m = 0
          · have e : writeWords (narrowWrite s a (bs.take h)) (a + h) ((bs.drop h).take m) = narrowWrite s a (bs.take h) := by
              simp [writeWords, m0]
            rw [e, A.2 _ (by omega)]
          · have B := B (by omega) (by omega)
            rw [B.2 _ (by omega), A.2 _ (by omega)]
        rw [show a + k = a + h + m + (k - h - m) by omega] at hs ⊢
        rw [C.1 _ (by omega) (by rw [e1]; exact hs; omega), List.getElem?_drop]; congr 1; omega
  · rw [C.2 _ (by omega)]
    by_cases m0 : m = 0
    · have e : writeWords (narrowWrite s a (bs.take h)) (a + h) ((bs.drop h).take m) = narrowWrite s a (bs.take h) := by
        simp [writeWords, m0]
      rw [e, A.2 _ (by omega)]
    · have B := B (by omega) (by omega)
      rw [B.2 _ (by omega), A.2 _ (by omega)]

end Sys2Proof.Machine
end

