-- ==== Sys2Proof/WellFormed.lean ====
section
/-!
DEFINITION. Which commands the outside can send: the ranges that the spec gives to the operands of each row. No meaning rests
on this check; a command outside it is one that no sender of the module can form.
-/

namespace Sys2Proof

/-- An Ethernet source has a port, an address of its carrier's kind and a UDP port; a Leash source a port and a member
(10 R302, R306, 12 R374). -/
def Source.wf (x : Source) : Bool :=
  match x.carrier with
  | .raw => decide (x.port < 2 ∧ x.addr.length = 6 ∧ x.mac = [])
  | .udp4 => decide (x.port < 2 ∧ x.addr.length = 4 ∧ x.udpPort < 65536 ∧ x.mac.length = 6)
  | .udp6 => decide (x.port < 2 ∧ x.addr.length = 16 ∧ x.udpPort < 65536 ∧ x.mac.length = 6)
  | .leash => decide (x.port < 4 ∧ x.addr = [] ∧ x.member < 2 ^ 32 ∧ x.mac = [])

/-- A session is 0 to 7, or none (10 R307); 8 + k names what the closed session k left taken (10 R314). -/
def Req.wf (r : Req) : Bool := r.session.all (fun k => decide (k < 16)) && r.src.wf

/-- A payload is at most 8,192 bytes (10 R307). -/
def payloadWf (p : List Byte) : Bool := decide (p.length ≤ 8192)

/-- Addresses of a frame's body are those of its IP version (10 R302). -/
def FrameBody.wf (b : FrameBody) : Bool :=
  match b with
  | .raw etherType _ => decide (etherType < 65536)
  | .udp v6 _ _ _ _ destIp srcIp srcPort dstPort udpLen _ =>
    decide (destIp.length = (if v6 then 16 else 4) ∧ srcIp.length = destIp.length ∧ srcPort < 65536 ∧ dstPort < 65536 ∧ udpLen < 65536)

/-- A frame comes in on port 0 or 1 with MAC addresses of 6 bytes (10 R303, 18 R534). -/
def Frame.wf (f : Frame) : Bool :=
  decide (f.port < 2 ∧ f.dest.length = 6 ∧ f.src.length = 6 ∧ f.vid < 4096) && f.rTags.all (fun n => decide (n < 65536)) && f.body.wf

/-- The fields of a Leash message have the widths of its header (12 R374). -/
def LeashMsg.wf (m : LeashMsg) : Bool :=
  decide (m.port < 4 ∧ m.seq < 4096 ∧ m.vl < 4 ∧ m.kind < 256 ∧ m.segment < 256 ∧ m.length < 65536 ∧ m.srcMember < 2 ^ 32 ∧
    m.destMember < 2 ^ 32 ∧ m.addr < 2 ^ 64 ∧ m.data.length ≤ m.length)

/-- The fields of a CTRL flit have their widths, and it frees flits of four virtual lanes (12 R380). -/
def CtrlFlit.wf (f : CtrlFlit) : Bool :=
  decide (f.ackSeq < 4096 ∧ f.nakSeq < 4096 ∧ f.freed.length = 4 ∧ f.notice < 256)

/-- A partner's parameters (12 R385). -/
def LinkParams.wf (q : LinkParams) : Bool := decide (q.selfIndex < 2 ^ 32 ∧ q.topology < 256 ∧ q.port < 4)

/-- A memory unit of R420. -/
def MemUnit.wf (u : MemUnit) : Bool :=
  match u with
  | .hbm n => decide (n < 8)
  | .spad p => decide (p < 18)
  | .other c k => decide (c < 19 ∧ k < 8)

/-- A detection names cores 0 to 17 and mesh links 0 to 48 (14 R428, R441). -/
def Detection.wf (d : Detection) : Bool :=
  match d with
  | .tileResidue p r => decide (p < 18) && r.wf
  | .colour p engine _ _ => decide (p < 18 ∧ engine < 3)
  | .generator p => decide (p < 18)
  | .reduce p _ => decide (p < 18)
  | .meshCrc k direction flits _ => decide (k < 49 ∧ direction < 2 ∧ 0 < flits)
  | .badWord p _ _ => decide (p < 18)
  | .energyCheck p _ replica => decide (p < 18 ∧ replica < 64)
  | .memoryWord u _ _ => u.wf

/-- A register access path (17 R500). -/
def pathWf (p : Nat) : Bool := decide (p < 9)

/-- A junction sensor (18 R532). -/
def sensorWf (n : Nat) : Bool := decide (n < 24)

/-- A command that the outside of the module can send. -/
def Instr.wf (i : Instr) : Bool :=
  match i with
  | .ping r p => r.wf && payloadWf p
  | .info r p => r.wf && payloadWf p
  | .sessionOpen r p => r.wf && payloadWf p
  | .sessionClose r p => r.wf && payloadWf p
  | .regRead r p => r.wf && payloadWf p
  | .regWrite r p => r.wf && payloadWf p
  | .regReadInd r p => r.wf && payloadWf p
  | .regWriteInd r p => r.wf && payloadWf p
  | .modelLoad r p => r.wf && payloadWf p
  | .modelVerify r p => r.wf && payloadWf p
  | .modelFree r p => r.wf && payloadWf p
  | .ctxCreate r p => r.wf && payloadWf p
  | .ctxUpdate r p => r.wf && payloadWf p
  | .ctxSave r p => r.wf && payloadWf p
  | .ctxRestore r p => r.wf && payloadWf p
  | .ctxDestroy r p => r.wf && payloadWf p
  | .ctxQuery r p => r.wf && payloadWf p
  | .runSample r p => r.wf && payloadWf p
  | .runAnneal r p => r.wf && payloadWf p
  | .runTemper r p => r.wf && payloadWf p
  | .runPause r p => r.wf && payloadWf p
  | .runResume r p => r.wf && payloadWf p
  | .runAbort r p => r.wf && payloadWf p
  | .statsRead r p => r.wf && payloadWf p
  | .tensorOp r p => r.wf && payloadWf p
  | .accDrain r p => r.wf && payloadWf p
  | .accDrainComplete r => r.wf
  | .move r p => r.wf && payloadWf p
  | .fill r p => r.wf && payloadWf p
  | .entropyGet r p => r.wf && payloadWf p
  | .powerSet r p => r.wf && payloadWf p
  | .wakeArm r p => r.wf && payloadWf p
  | .trailFreeze r p => r.wf && payloadWf p
  | .trailRead r p => r.wf && payloadWf p
  | .trailThaw r p => r.wf && payloadWf p
  | .dumpRead r p => r.wf && payloadWf p
  | .faultMap r p => r.wf && payloadWf p
  | .joinConfig r p => r.wf && payloadWf p
  | .barrier r p => r.wf && payloadWf p
  | .fwStage r p => r.wf && payloadWf p
  | .fwActivate r p => r.wf && payloadWf p
  | .otpProgram r p => r.wf && payloadWf p
  | .debugUnlock r p => r.wf && payloadWf p
  | .attest r p => r.wf && payloadWf p
  | .frameReceived f => f.wf
  | .ethernetWhistleFrame f => f.wf
  | .arpRequest port senderMac senderIp targetIp => decide (port < 2 ∧ senderMac.length = 6 ∧ senderIp.length = 4 ∧ targetIp.length = 4)
  | .neighborSolicitation port senderMac senderIp targetIp => decide (port < 2 ∧ senderMac.length = 6 ∧ senderIp.length = 16 ∧ targetIp.length = 16)
  | .gptpMessage port domain _ => decide (port < 2 ∧ domain < 256)
  | .reorderWaitExpiry k => decide (k < 8)
  | .sessionIdleTimeout k => decide (k < 8)
  | .ethLinkUp port _ _ _ eye => decide (port < 2 ∧ eye < 256)
  | .ethLinkDown port => decide (port < 2)
  | .gateCycleStart port => decide (port < 2)
  | .leashCtrlFlit port f => decide (port < 4) && f.wf
  | .ctrlFlitDue port => decide (port < 4)
  | .leashReplayTimeout port => decide (port < 4)
  | .leashCtrlTimeout port => decide (port < 4)
  | .write m => m.wf
  | .writeAck m => m.wf
  | .readReq m => m.wf
  | .readData m => m.wf
  | .valaz m => m.wf
  | .barrierMessage m => m.wf
  | .time m => m.wf
  | .timeSend => true
  | .lost m => m.wf
  | .selftest m => m.wf
  | .laneSignalLoss port lane => decide (port < 4 ∧ lane < 8)
  | .leashTrainingDone port _ q ws => decide (port < 4) && q.all LinkParams.wf && ws.all (fun w => decide (w.eye < 256))
  | .leashTrainingTimeout port => decide (port < 4)
  | .whistleRepeat port => decide (port < 4)
  | .whistleTimeout port => decide (port < 4)
  | .lossTimeout port => decide (port < 4)
  | .barrierTimeout _ => true
  | .joinWaitTimeout => true
  | .joinSelftestDone _ => true
  | .fieldVectorComplete core _ batch => decide (core < 16 ∧ 1 ≤ batch.length ∧ batch.length ≤ 256)
  | .sampleBatch core _ batch => decide (core < 16 ∧ 1 ≤ batch.length ∧ batch.length ≤ 256)
  | .passKeyDraw _ stream replica => decide (stream < 64 ∧ replica < 64)
  | .flipWalk core _ => decide (core < 16)
  | .validation core _ => decide (core < 16)
  | .remoteCommitArrival core fromCore _ => decide (core < 16 ∧ fromCore < 16 ∧ core ≠ fromCore)
  | .colourCommit core _ => decide (core < 16)
  | .sweepBoundary ctx => decide (ctx < 2 ^ 18)
  | .generatorSeedingDone ctx => decide (ctx < 2 ^ 18)
  | .tileDrain r => r.wf
  | .tileOutputWritten r => r.wf
  | .faultRetry d => d.wf
  | .knownAnswerWindow core _ engine => decide (core < 18 ∧ engine < 8)
  | .fenceSequence ok => ok.all (fun p => decide (p < 18))
  | .fenceOtpWrite _ => true
  | .fatalError cause unit => decide (cause < 65536 ∧ unit < 65536)
  | .fetchDumpDone => true
  | .seating model _ => decide (model < 4096)
  | .contextWriteBack ctx => decide (ctx < 2 ^ 18)
  | .dynamicLoadBalance model _ => decide (model < 4096)
  | .shareEviction model _ => decide (model < 4096)
  | .memWriteBack u a => u.wf && a % 8 == 0
  | .groomerRead u upsets => u.wf && upsets.all (fun e => e.addr % 8 == 0)
  | .hbmRefresh stack => decide (stack < 8)
  | .trailRecordWrite => true
  | .trailSpill => true
  | .trailIntervalEnd _ => true
  | .healthTestFail source test _ => decide (source < 7 ∧ test < 3)
  | .sourceRestart source => decide (source < 7)
  | .sourceStartupPass source samples => decide (source < 7 ∧ samples.length = 1024)
  | .conditionedBlock samples => decide (samples.length = 1024)
  | .drbgInstantiate => true
  | .drbgReseed => true
  | .drbgGenerate => true
  | .hostWaitExpiry r => r.wf
  | .sleepEntryComplete => true
  | .wakeNAssert => true
  | .rtcAlarm => true
  | .thermalWake n _ => sensorWf n
  | .leashActivity port lane _ => decide (port < 4 ∧ lane < 8)
  | .sleepExitComplete cs ns => cs.all (fun p => decide (p < 18)) && ns.all (fun n => decide (n < 8))
  | .coreClkGate half => decide (half < 2)
  | .throttleTempReached n _ => sensorWf n
  | .throttleStepTimer half => decide (half < 2)
  | .alertTemp n _ => sensorWf n
  | .relockDone => true
  | .thermtrip n _ => sensorWf n
  | .pwrOkAssert => true
  | .pwrOkDeassert => true
  | .inputUndervoltage _ => true
  | .rstNAssert => true
  | .warmReset => true
  | .rstNDeassert => true
  | .glitchDetected kind unit => decide (kind < 256 ∧ unit < 256)
  | .startDone failed => failed.all (fun p => decide (p < 18))
  | .boot => true
  | .secRecover path _ => pathWf path
  | .muzzle path _ => pathWf path
  | .muzzleArmExpiry path => pathWf path
  | .indData path _ => pathWf path
  | .loWordRead path addr => pathWf path && decide (addr < 2 ^ 32)
  | .secChallenge0 path => pathWf path
  | .fetchStatusKept path _ => pathWf path
  | .registerWrite path addr _ _ => pathWf path && decide (addr < 2 ^ 32)
  | .commandBoundary => true
  | .sidebandRegRead bytes _ => decide (bytes.length ≤ 8)
  | .sidebandRegWrite bytes _ => decide (bytes.length ≤ 8)
  | .indRead bytes _ => decide (bytes.length ≤ 8)
  | .indWrite bytes _ => decide (bytes.length ≤ 8)
  | .telemetry bytes _ => decide (bytes.length ≤ 8)
  | .alertResponse => true
  | .setdasa _ => true
  | .entdaa _ => true
  | .rstdaa => true
  | .getpid => true
  | .getbcr => true
  | .getdcr => true
  | .getstatus => true
  | .enec => true
  | .disec => true
  | .extest => true
  | .samplePreload _ => true
  | .idcode => true
  | .clamp => true
  | .highz => true
  | .bypass => true
  | .leashFrameBoundary port => decide (port < 4)
  | .alertTempRelease n _ => sensorWf n
  | .wakeNDeassert => true
  | .joinIdChange _ => true
  | .flitCrcError port seq vl _ => decide (port < 4 ∧ seq < 4096 ∧ vl < 4)
  | .moveComplete r => r.wf
  | .fillComplete r => r.wf
  | .modelLoadComplete r => r.wf
  | .ctxSaveComplete r => r.wf

end Sys2Proof
end

