-- ==== Sys2Proof/Tests/Slice0.lean ====
section
/-!
SUPPORT. Tests: for every statement with hypotheses a state and operands that meet them, ill-formed commands that the checks
refuse, and the worked examples of the spec.
-/

open Sys2Proof Sys2Proof.Machine

namespace Sys2Proof.Tests

set_option Elab.async false

/-! ### States and operands of the witnesses -/

/-- Zeros with some bytes set: the operands of a command, by offset. -/
def bytesWith (n : Nat) (l : List (Nat × Byte)) : List Byte := l.foldl (fun p e => p.set e.1 e.2) (zeros n)

/-- A command of session 0, sent as a raw frame on port 0. -/
def reqAt (op : Nat) : Req := ⟨some 0, BitVec.ofNat 32 op, ⟨.raw, 0, [2, 0, 0, 0, 0, 1], 0, 0, none, []⟩⟩

/-- The module after START_DONE, with session 0 open and the link of port 0 up. -/
def run : State :=
  { State.reset with
    trail := {}
    power := { phase := .running }
    eth := [(0, { link := true })]
    sessions := [(0, { isOpen := true, kH := zeros 48, kM := zeros 48 })] }

/-! ### Replies and sessions -/

theorem witness_reply : (reqAt 1).session = some 0 ∧ (session run 0).isOpen = true ∧ (reqAt 1).src.carrier ≠ .leash ∧
    regBit run 0x6050 5 = false ∧ (ethPort run 0).link = true := by decide +kernel

theorem witness_replyClosed : (⟨some 1, 0, (reqAt 1).src⟩ : Req).session = some 1 ∧ (session run 1).isOpen = false := by decide +kernel

theorem witness_ping : Ready run (reqAt 1) 0x01 none none ∧ (zeros 64).length ≤ 64 := by unfold Ready; decide +kernel

theorem witness_info : Ready run (reqAt 2) 0x02 none none := by unfold Ready; decide +kernel

theorem witness_sessionClose : run.taken.any (fun t => t.r.session == some 0) = false ∧ Ready run (reqAt 4) 0x04 none none := by
  unfold Ready; decide +kernel

/-- SESSION_IDLE of 1 s has passed. -/
def idleRun : State := { run with rtc := 2 ^ 15, regs := [(0x6808, 1)] }

theorem witness_idleTimeout : idleExpired idleRun 0 = true := by decide +kernel

theorem witness_sessionOpen :
    let p := bytesWith 248 [(52, 4)]
    let r : Req := ⟨none, 0, (reqAt 3).src⟩
    Ready run r 0x03 none none ∧ p.length = 248 ∧ allZero (slice p 1 3 ++ slice p 149 3) = true ∧ u8 p 0 ≤ 3 ∧ u8 p 52 = 4 ∧
      operatorKey run.sec.otp (u8 p 0) = some (zeros 96) ∧ run.ent.st ≠ .failed := by unfold Ready; decide +kernel

/-! ### Registers -/

/-- The payload of a register command: its first address, the number of words, values. -/
def wordsAt (a n : Nat) (vs : List Nat) : List Byte := leBytes 4 a ++ leBytes 2 n ++ zeros 2 ++ vs.flatMap (leBytes 4)

/-- Path 0 armed, a challenge latched, and an IND_ADDR at the last word of the window without INC. -/
def pathRun : State :=
  { run with paths := [(0, { armed := true, indAddr := 0xFFFC, indInc := false })], sec := { challenge := some (zeros 48) } }

theorem witness_readValue : ReadyEarly run (reqAt 7) 0x10 (earlyWords (wordsAt 0x28 1 []) false) true ∧
    (wordsAt 0x28 1 []).length = 8 ∧ u16 (wordsAt 0x28 1 []) 4 = 1 ∧ allZero (slice (wordsAt 0x28 1 []) 6 2) = true ∧
    (regInfo 0x28).isSome = true ∧ u32 (wordsAt 0x28 1 []) 0 = 0x28 ∧ plainRead 0x28 = true := by
  unfold ReadyEarly; decide +kernel

theorem witness_readMany : (∀ ind : Bool, ∀ n ∈ [1, 256], ReadyEarly run (reqAt 7) (if ind then 0x12 else 0x10)
      (earlyWords (wordsAt 0x6808 n []) ind) true ∧ (wordsAt 0x6808 n []).length = 8 ∧ u16 (wordsAt 0x6808 n []) 4 = n ∧
      allZero (slice (wordsAt 0x6808 n []) 6 2) = true) ∧
    (readMany 1 run 0 0x6808 false).2.1 = none ∧ (readMany 256 run 0 0x6808 false).2.1.isSome = true := by
  unfold ReadyEarly; decide +kernel

theorem witness_writeMany : (∀ ind : Bool, ∀ n ∈ [1, 256], ReadyEarly run (reqAt 7) (if ind then 0x13 else 0x11)
      (earlyWords (wordsAt 0x6808 n (List.replicate n 0)) ind) true ∧ (wordsAt 0x6808 n (List.replicate n 0)).length = 8 + 4 * n ∧
      u16 (wordsAt 0x6808 n (List.replicate n 0)) 4 = n ∧ allZero (slice (wordsAt 0x6808 n (List.replicate n 0)) 6 2) = true) ∧
    (writeMany [5] run 0 0x6808 false).2.1 = none ∧ (writeMany [5, 6, 7] run 0 0x6834 false).2.1.isSome = true := by
  unfold ReadyEarly; decide +kernel

/-- A write that takes effect at once: the W1C flags of NUM_STATUS. -/
theorem witness_writeNow : Reaches run 8 0x88 ∧ ∃ i, regInfo 0x88 = some i ∧ plainWrite 0x88 = true ∧ i.guarded = false ∧
    i.masked = false ∧ i.bound = .now ∧ i.miss = none :=
  ⟨by unfold Reaches; decide +kernel, (regInfo 0x88).get (by decide +kernel), by decide +kernel⟩

theorem witness_writeCounter : Reaches run 0 0x110 ∧ ∃ i, regInfo 0x110 = some i ∧ plainWrite 0x110 = true ∧ i.guarded = false ∧
    i.masked = false ∧ i.bound = .now ∧ i.miss = some (0x11C, 0) ∧ (0xFFFFFFFF#32).toNat ≠ 0 :=
  ⟨by unfold Reaches; decide +kernel, (regInfo 0x110).get (by decide +kernel), by decide +kernel⟩

theorem witness_writeMasked : Reaches run 8 0x28 ∧ ∃ i, regInfo 0x28 = some i ∧
    plainWrite 0x28 = true ∧ i.guarded = false ∧ i.masked = true ∧ i.bound = .now :=
  ⟨by unfold Reaches; decide +kernel, (regInfo 0x28).get (by decide +kernel), by decide +kernel⟩

theorem witness_writeHeld : Reaches run 0 0x6808 ∧ ∃ i, regInfo 0x6808 = some i ∧ plainWrite 0x6808 = true ∧ i.guarded = false ∧
    i.bound = .command ∧ i.rw ≠ 0 ∧ run.heldRegs = [] :=
  ⟨by unfold Reaches; decide +kernel, (regInfo 0x6808).get (by decide +kernel), by decide +kernel⟩

theorem witness_guarded : pathOpen run 0 = true ∧ pathOpen run 8 = true ∧ Reaches run 0 0x1014 ∧ ∃ i, regInfo 0x1014 = some i ∧
    plainWrite 0x1014 = true ∧ i.guarded = true ∧ i.bound = .command ∧ i.rw ≠ 0 ∧ (path run 0).armed = false ∧
    Reaches pathRun 0 0x1014 ∧ (path pathRun 0).armed = true :=
  ⟨by decide +kernel, by decide +kernel, by unfold Reaches; decide +kernel, (regInfo 0x1014).get (by decide +kernel), by
    unfold Reaches; decide +kernel⟩

theorem witness_pair : Reaches run 0 0x110 ∧ pairHigh 0x110 = some 0x114 ∧ isHighWord 0x110 = false ∧
    Reaches run 8 0x33808 ∧ pairHigh 0x33808 = some 0x3380C ∧ isHighWord 0x33808 = false ∧
    Reaches run 0 0x114 ∧ isHighWord 0x114 = true := by unfold Reaches; decide +kernel

theorem witness_challenge : pathOpen pathRun 0 = true ∧ pathRun.sec.challenge = some (zeros 48) := by decide +kernel

/-- The DRBG is READY and nothing waits for it. -/
def entRun : State :=
  { run with ent := { st := .ready, instantiated := true, sources := List.replicate 7 .healthy } }

theorem witness_challengeDrawn : pathOpen entRun 0 = true ∧ entRun.sec.challenge = none ∧ entRun.ent.st = .ready ∧
    entRun.ent.queue = [] ∧ reseedDue entRun = false ∧ entRun.ent.drbg.key.length = 32 := by decide +kernel

/-- Path 0 at an indirect address, armed or not; in recovery, with a bad word, when the buffer is read. -/
def indRun (a : Nat) (armed : Bool) : State :=
  { run with
    power := { phase := if a < 0x800000 then .running else .recovery }, paths := [(0, { armed := armed, indAddr := a })]
    otherMarks := [(markKey handlerSram 0, .uncorrectable)] }

theorem witness_indData : pathOpen pathRun 0 = true ∧ (∃ w t, indRead pathRun (path pathRun 0).indAddr = .ok (w, t)) ∧
    indGuarded (path pathRun 0).indAddr = false ∧
    ∃ w t, indWrite pathRun (path pathRun 0).indAddr (0#32).toNat = .ok (w, t) :=
  ⟨by decide +kernel, ⟨_, _, rfl⟩, by decide +kernel, ⟨_, _, rfl⟩⟩

/-- A guarded word, on an armed path and on another; a word that cannot be read, in the recovery buffer and elsewhere. -/
theorem witness_indGuarded : (∀ b : Bool, pathOpen (indRun 0x100004 b) 0 = true ∧ indGuarded (path (indRun 0x100004 b) 0).indAddr = true ∧
      (path (indRun 0x100004 b) 0).armed = b) ∧
    (∃ w t, indWrite (modPath (indRun 0x100004 true) 0 (fun q => { q with armed := false })) 0x100004 5 = .ok (w, t)) ∧
    (∀ a ∈ [2, 0x800000], pathOpen (indRun a false) 0 = true ∧
      (match indRead (indRun a false) (path (indRun a false) 0).indAddr with | .error _ => true | .ok _ => false) = true) :=
  ⟨by decide +kernel, ⟨_, _, rfl⟩, by decide +kernel⟩

/-- The module in recovery: no slot boots. -/
def recoveryRun : State := { run with power := { phase := .recovery }, sessions := [] }

theorem witness_recovery : Reaches recoveryRun 8 0x5018 ∧ (1#32).toNat % 2 = 1 ∧ recoveryRun.power.phase = .recovery ∧
    slotBoots recoveryRun.sec.otp (recoveryImage recoveryRun) = false := by unfold Reaches; decide +kernel

/-- A dump of 1,024 bytes is valid and kept. -/
def dumpRun (valid : Bool) : State := { run with faults := { dump := { number := 1, valid := valid, kept := true, size := 1024 } } }

theorem witness_kept : ∀ b : Bool, Reaches (dumpRun b) 0 0x2024 ∧ bitOf (4#32).toNat 2 = 1 ∧ (dumpRun b).faults.dump.kept = true ∧
    (dumpRun b).faults.dump.valid = b := by unfold Reaches; decide +kernel

/-! ### Models and contexts -/

/-- Bytes put one after another, each at its offset. -/
def layOut (n : Nat) (l : List (Nat × List Byte)) : List Byte :=
  l.foldl (fun p e => p.take e.1 ++ e.2 ++ p.drop (e.1 + e.2.length)) (zeros n)

/-- Cells of HBM that hold bytes from an address on. -/
def cellsAt (a : Nat) (bs : List Byte) : List Host.Cell := List.zipWith (fun k b => (a + k, b)) (List.range bs.length) bs

/-- A model of two latent variables of two states, in two blocks and two colours with a pair, and a clamped one. -/
def m1 : Model :=
  { (default : Model) with
    gen := 1, digest := zeros 48, modelId := zeros 16, maxReplicas := 2, colours := 2,
    vars := [⟨2, false, 0⟩, ⟨2, false, 1⟩, ⟨3, true, 0xFF⟩],
    biases := List.replicate 7 ⟨0, 127⟩, pairs := [⟨0, 1, 0, 0, ⟨64, 127⟩⟩],
    blocks := [⟨0, 1, 0, 0, 0x800000000, 512⟩, ⟨1, 2, 1, 0, 0x800000200, 512⟩], descAddr := 0x800001000, codedSize := 5120,
    placements := [[0, 1], [2, 3]], lists := [[], []] }

/-- The content of a context of one replica and a schedule of one entry. -/
def d1 : CtxData :=
  { (default : CtxData) with
    evidence := [2], latent := [[0, 1]], energy := [0], mc := [[0, 0], [0, 0]], bestState := [0, 1], params := zeros 128,
    rungMap := List.replicate 64 0, exchAttempt := List.replicate 63 0, exchAccept := List.replicate 63 0, schedule := zeros 8,
    gens := [⟨0, 0, 0, 0, List.replicate 1279 1⟩] }

/-- A context of the model: 7,040 bytes in a class of 8 KiB at the start of the pool. -/
def c1 (st : RunState) : Ctx :=
  { gen := 1, model := 0, sizeClass := 1, span := 0, home := 0, addr := 0, used := usedBytes m1 1 1, replicas := 1, tableCap := 1,
    st := st, placement := 0, data := d1, seat := none, run := none, sat := 0 }

/-- Run with the model, a context of it, and readable words from address 0 and where tests read. -/
def work (c : Ctx) : State := { run with models := [(0, m1)], ctxs := [(0, c)], hbm := cellsAt 0 (zeros 8192) }

/-- The same with a model of one clamped variable: a context of 1,344 bytes. -/
def m0 : Model :=
  { m1 with vars := [⟨3, true, 0xFF⟩], biases := List.replicate 3 ⟨0, 127⟩, pairs := [], blocks := [⟨0, 1, 0, 0, 0x800000000, 512⟩],
            placements := [[0], [1]] }

def d0 : CtxData := { d1 with latent := [[]], mc := [], bestState := [], gens := [] }

def c0 (st : RunState) : Ctx := { c1 st with sizeClass := 0, used := usedBytes m0 1 1, data := d0 }

def work0 (c : Ctx) : State := { run with models := [(0, m0)], ctxs := [(0, c)], hbm := cellsAt 0 (zeros 1344) }

/-- The handle of the context, of the model. -/
def hCtx : Nat := 2 ^ 18
def hModel : Nat := 2 ^ 12

/-- An image of one variable of two states: header, directory, VARIABLES at 256, BIASES at 320, BLOCKS at 384. -/
def image0 : List Byte :=
  let dir := fun (t off len : Nat) => leBytes 2 t ++ zeros 6 ++ leBytes 8 off ++ leBytes 8 len ++ leBytes 8 1
  layOut 448 [(0, leBytes 4 0x4D374E47 ++ leBytes 2 1 ++ leBytes 2 128 ++ leBytes 8 448), (0x14, leBytes 4 1 ++ [1, 1, 3, 0]),
    (128, dir 1 256 4), (160, dir 2 320 8), (192, dir 7 384 16), (256, [1, 0, 0, 0]), (384, leBytes 4 0 ++ leBytes 4 1 ++ [0xFF, 0xFF])]

/-- The image with its digest. -/
def image1 : List Byte := layOut 448 [(0, image0), (0x40, sha384 image0)]

def loadRun (img : List Byte) : State := { run with hbm := cellsAt 64 img }

def loadOp : List Byte := leBytes 8 64 ++ leBytes 8 448

theorem witness_modelLoad : ∀ img ∈ [image0, image1], Ready (loadRun img) (reqAt 1) 0x20 none none ∧ loadOp.length = 16 ∧
    RegionOk (loadRun img) (u64 loadOp 0) (u64 loadOp 8) 64 false := by unfold Ready RegionOk; decide +kernel

theorem witness_modelLoads :
    let u := unqueue (loadRun image1) (reqAt 1) 0x20
    (buildModel u (readImage u 64 448).1 448).toOption.isSome = true := by decide +kernel

theorem witness_modelLoadFails :
    let u := unqueue (loadRun image0) (reqAt 1) 0x20
    (buildModel u (readImage u 64 448).1 448).toOption = none := by decide +kernel

theorem witness_modelLoadComplete :
    let l : Load := ⟨reqAt 1, .ok, 0, zeros 96⟩
    let s := { run with loads := [l] }
    s.loads.find? (fun x => x.r == l.r) = some l := by decide +kernel

def verifyOp : List Byte := leBytes 4 hModel ++ zeros 12

/-- The words of the coded model are clean, or one is bad. -/
def verifyRun (ok : Bool) : State :=
  { run with models := [(0, m1)], marks := if ok then [] else [(0x8000001F8, .uncorrectable)] }

theorem witness_modelVerify : ∀ ok : Bool, Ready (verifyRun ok) (reqAt 1) 0x21 none (some (u32 verifyOp 0 % 2 ^ 12)) ∧
    verifyOp.length = 16 ∧ allZero (slice verifyOp 4 4) = true ∧ u64 verifyOp 8 = 0 ∧
    modelOfHandle (verifyRun ok) (u32 verifyOp 0) = some (0, m1) ∧
    (scrubModel (unqueue (verifyRun ok) (reqAt 1) 0x21) m1).2.1 = ok := by unfold Ready; decide +kernel

def freeOp : List Byte := leBytes 4 hModel ++ zeros 4

theorem witness_modelFree : ∀ ok : Bool,
    let s := if ok then verifyRun true else work (c1 .idle)
    Ready s (reqAt 1) 0x22 none (some (u32 freeOp 0 % 2 ^ 12)) ∧ freeOp.length = 8 ∧ allZero (slice freeOp 4 4) = true ∧
    modelOfHandle s (u32 freeOp 0) = some (0, m1) ∧ s.ctxs.any (fun e => e.2.model == 0) = !ok := by unfold Ready; decide +kernel

/-- CTX_CREATE at any index with one replica, without state, and at index 2^18 - 1 with two and their state. -/
def createOp (top : Bool) : List Byte :=
  leBytes 4 hModel ++ leBytes 4 (if top then 2 ^ 18 - 1 else 0xFFFFFFFF) ++
    (if top then [7, 2, 1, 0] else [0xFF, 1, 0, 0]) ++ leBytes 2 (if top then 4096 else 0) ++ zeros 2 ++ leBytes 8 5 ++ zeros 8 ++
    (2 : Byte) :: zeros (if top then 191 else 63)

theorem witness_ctxCreate : Ready (verifyRun true) (reqAt 1) 0x30 none (some (u32 (createOp false) 0 % 2 ^ 12)) ∧
    CreateFits (verifyRun true) (createOp false) 0 m1 0 0 ∧
    Ready (verifyRun true) (reqAt 1) 0x30 none (some (u32 (createOp true) 0 % 2 ^ 12)) ∧
    CreateFits (verifyRun true) (createOp true) 0 m1 (2 ^ 18 - 1) (poolBase 7 + 32767 * 2 ^ 20) := by unfold Ready CreateFits; decide +kernel

/-- CTX_UPDATE with one item: evidence of variable 0 becomes 0. -/
def updateOp : List Byte := leBytes 4 hCtx ++ leBytes 2 1 ++ leBytes 2 1 ++ zeros 8 ++ zeros 4 ++ leBytes 4 0

theorem witness_ctxUpdate :
    let s := work0 (c0 .idle)
    let p := updateOp
    Ready s (reqAt 1) 0x31 (some (ctxIndex (u32 p 0))) none ∧ p.length = 16 + 8 * u16 p 6 ∧ 1 ≤ u16 p 6 ∧ u16 p 6 ≤ 1022 ∧
    u16 p 4 ≤ 1 ∧ allZero (slice p 8 8) = true ∧ (updateItems p).any (fun b => u8 b 3 != 0) = false ∧
    ctxOf s (u32 p 0) = some (c0 .idle) ∧ (c0 .idle).st = .idle ∧
    (updateItems p).any (itemBad (ctxModel s (c0 .idle)) (c0 .idle)) = false ∧
    (readSpans (unqueue s (reqAt 1) 0x31) (c0 .idle).addr (updateSpans (ctxModel s (c0 .idle)) (c0 .idle))).1 = true := by
  unfold Ready; decide +kernel

/-- CTX_SAVE to address 2^20. -/
def saveOp : List Byte := leBytes 4 hCtx ++ zeros 4 ++ leBytes 8 (2 ^ 20) ++ leBytes 8 8192

theorem witness_ctxSave : ∀ st ∈ [RunState.idle, .running, .paused],
    let s := work0 (c0 st)
    Ready s (reqAt 1) 0x32 (some (ctxIndex (u32 saveOp 0))) none ∧ saveOp.length = 24 ∧ allZero (slice saveOp 4 4) = true ∧
    ctxOf s (u32 saveOp 0) = some (c0 st) ∧ RegionOk s (u64 saveOp 8) (u64 saveOp 16) 64 false ∧
    badSaveRegion s (c0 st) (u64 saveOp 8) (u64 saveOp 16) = false ∧
    (readHbm (unqueue s (reqAt 1) 0x32) (c0 st).addr (c0 st).used).1.isSome = true := by unfold Ready RegionOk; decide +kernel

theorem witness_ctxSaveComplete :
    let v : Save := ⟨reqAt 1, 0, 2 ^ 20, some (zeros 256), false, false⟩
    let s := { work0 (c0 .idle) with saves := [v] }
    s.saves.find? (fun x => x.r == v.r) = some v ∧ v.image = some (zeros 256) ∧ s.destroys.any (fun d => ctxIndex d.2 == v.ctx) = false := by
  decide +kernel

/-- The image of the Paused context, its digest written out; it lies at 2^20, and the context is gone. -/
def savedImg : List Byte :=
  leBytes 4 0x43374E47 ++ [1, 0, 0, 1, 2, 0, 1, 0] ++ leBytes 4 1344 ++ zeros 97 ++ [1, 0, 0] ++ zeros 12 ++
  [0x140, 0x180, 0x1C0, 0x200, 0x500].flatMap (leBytes 4) ++ zeros 12 ++
  [37, 133, 81, 55, 97, 1, 50, 51, 213, 205, 209, 138, 16, 36, 248, 248, 239, 99, 249, 136, 142, 109, 41, 120, 187, 3, 59, 84, 64,
   146, 194, 182, 140, 23, 117, 91, 211, 4, 197, 122, 195, 49, 145, 29, 144, 18, 74, 17] ++ zeros 48 ++ 2 :: zeros 1087
def restoreRun : State := { work0 (c0 .idle) with ctxs := [], hbm := cellsAt (2 ^ 20) savedImg }
def restoreOp : List Byte := leBytes 8 (2 ^ 20) ++ leBytes 8 8192 ++ leBytes 4 0xFFFFFFFF ++ [0xFF, 0, 0, 0]

theorem witness_ctxRestore :
    let s := restoreRun
    let p := restoreOp
    Ready s (reqAt 1) 0x33 (if 2 ^ 18 ≤ u32 p 16 ∧ u32 p 16 ≠ 0xFFFFFFFF then some (ctxIndex (u32 p 16)) else none) none ∧
    p.length = 24 ∧ allZero (slice p 21 3) = true ∧ (u8 p 20 < 8 ∨ u8 p 20 = 0xFF) ∧ RegionOk s (u64 p 0) (u64 p 8) 64 false ∧
    (readSaved (unqueue s (reqAt 1) 0x33) (u64 p 0) (u64 p 8)).1 = some savedImg ∧ savedHeaderBad savedImg (u64 p 8) = false ∧
    savedModel s savedImg = some (0, m0) ∧ savedBodyBad m0 savedImg = false ∧
    restoreTarget s (u32 p 16) = none ∧ targetIndex s (u32 p 16) = some 0 ∧
    poolPlace s 0 (some 0) (homeOf (u8 p 20) 0) (classBytes (classOf (u32 savedImg 0x0C)).1 (classOf (u32 savedImg 0x0C)).2) =
      some 0 := by unfold Ready RegionOk; decide +kernel

theorem witness_ctxRestoreDigest : savedDigestBad savedImg = false := by decide +kernel

def handleOp : List Byte := leBytes 4 hCtx ++ zeros 4

theorem witness_ctxDestroy : ∀ saving : Bool,
    let s := { work0 (c0 .idle) with saves := if saving then [⟨reqAt 9, 0, 2 ^ 20, some [], false, false⟩] else [] }
    Ready s ⟨some 0, 1, (reqAt 1).src⟩ 0x34 (some (ctxIndex (u32 handleOp 0))) none ∧ handleOp.length = 8 ∧
    allZero (slice handleOp 4 4) = true ∧ ctxOf s (u32 handleOp 0) = some (c0 .idle) ∧
    s.saves.any (fun v => v.ctx == ctxIndex (u32 handleOp 0)) = saving := by unfold Ready; decide +kernel

theorem witness_ctxQuery : Ready (work0 (c0 .running)) (reqAt 1) 0x35 (some (ctxIndex (u32 handleOp 0))) none ∧
    handleOp.length = 8 ∧ allZero (slice handleOp 4 4) = true ∧
    ctxOf (work0 (c0 .running)) (u32 handleOp 0) = some (c0 .running) := by unfold Ready; decide +kernel

/-- STATS_READ of a selection over every variable, inline or to address 2^20. -/
def statsOp (sel : Nat) (inl : Bool) : List Byte :=
  leBytes 4 hCtx ++ leBytes 1 sel ++ zeros 3 ++ leBytes 4 0 ++ leBytes 4 (if sel = 0 ∨ sel = 5 then 0 else 3) ++
    leBytes 8 (if inl then 0 else 2 ^ 20)

theorem witness_statsRead : ∀ sel ∈ [0, 2, 4, 5], ∀ inl : Bool,
    let s := { work (c1 .idle) with hbm := cellsAt 0 (zeros 1536) }
    let p := statsOp sel inl
    Ready s (reqAt 1) 0x46 (some (ctxIndex (u32 p 0))) none ∧ p.length = 24 ∧ u16 p 6 = 0 ∧ u8 p 4 ≤ 5 ∧
    (u8 p 4 ≠ 4 → u8 p 5 = 0) ∧ (u8 p 4 = 4 → u8 p 5 < (c1 .idle).replicas) ∧
    (u8 p 4 = 0 ∨ u8 p 4 = 5 → u32 p 8 = 0 ∧ u32 p 12 = 0) ∧ ctxOf s (u32 p 0) = some (c1 .idle) ∧
    u32 p 8 + u32 p 12 ≤ (ctxModel s (c1 .idle)).vars.length ∧
    (readSpans (unqueue s (reqAt 1) 0x46) 0 (statsSpans m1 (c1 .idle) (u8 p 4) (u8 p 5) (u32 p 8) (u32 p 12))).1 = true ∧
    (statsData m1 (c1 .idle) d1 (u8 p 4) (u8 p 5) (u32 p 8) (u32 p 12)).length ≤ 8192 ∧
    RegionOk s (2 ^ 20) (statsData m1 (c1 .idle) d1 (u8 p 4) (u8 p 5) (u32 p 8) (u32 p 12)).length 64 true := by
  unfold Ready RegionOk; decide +kernel

theorem witness_mostProbable : [3, 7, 7, 0] ≠ ([] : List Nat) ∧ mostProbable [3, 7, 7, 0] = 1 := by decide +kernel

/-! ### Runs, sweeps and the scheduler -/

/-- A parameter block of R122: SWEEPS, SCHEDULE, SEED_MODE, SUBSET. -/
def block (sweeps sched seed subset : Nat) (tableAddr tableLen : Nat := 0) : List Byte :=
  leBytes 4 sweeps ++ leBytes 1 sched ++ leBytes 1 seed ++ leBytes 1 subset ++ zeros 9 ++ leBytes 8 tableAddr ++ leBytes 2 tableLen ++
    zeros 102

def runOp (b : List Byte) (ladder : List Byte := []) : List Byte := leBytes 4 hCtx ++ zeros 4 ++ b ++ ladder

/-- An Idle context of two replicas for a ladder. -/
def c2 : Ctx := { c1 .idle with replicas := 2, data := { d1 with latent := [[0, 1], [1, 1]], energy := [0, 0] } }

/-- A schedule table of one entry, 5 sweeps at beta 0, at 2^20; the DRBG in a state of the block. -/
def admitRun (c : Ctx) (st : EntState) : State :=
  { work c with hbm := cellsAt (2 ^ 20) (zeros 4 ++ leBytes 4 5), ent := { (default : Entropy) with st := st } }

theorem witness_runSample : ∀ seed ∈ [0, 1, 2],
    let s := admitRun (c1 .idle) .ready
    let p := runOp (block 1 0 seed 15)
    Ready s (reqAt 1) 0x40 (some (ctxIndex (u32 p 0))) none ∧
    RunFits (unqueue s (reqAt 1) 0x40) 0x40 p (c1 .idle) [] (unqueue s (reqAt 1) 0x40) := by
  unfold Ready RunFits RegionOk; decide +kernel

/-- The seed modes of these commands; the states of the DRBG that an ENTROPY run meets; the model of the context. -/
theorem witness_runSeed : (∀ seed ∈ [0, 1, 2], pSeedMode (slice (runOp (block 1 0 seed 15)) 8 128) = seed) ∧
    (∀ st ∈ [EntState.ready, .failed, .startup, .halted], (admitRun (c1 .idle) st).ent.st = st ∧
      Ready (admitRun (c1 .idle) st) (reqAt 1) 0x40 (some 0) none) ∧
    lookup (admitRun (c1 .idle) .ready).models (c1 .idle).model = some m1 ∧ ListsFit m1 := by
  unfold Ready ListsFit; decide +kernel

theorem witness_runAnneal : ∀ seed ∈ [0, 1, 2],
    let s := admitRun (c1 .idle) .ready
    let p := runOp (block 5 3 seed 0 (2 ^ 20) 1)
    let u := unqueue s (reqAt 1) 0x41
    Ready s (reqAt 1) 0x41 (some (ctxIndex (u32 p 0))) none ∧
    RunFits u 0x41 p (c1 .idle) (zeros 4 ++ leBytes 4 5) (readHbm u (2 ^ 20) 8).2 := by
  unfold Ready RunFits RegionOk; decide +kernel

theorem witness_runTemper : ∀ seed ∈ [0, 1, 2],
    let s := admitRun c2 .ready
    let p := runOp (block 5 0 seed 0) (leBytes 4 0x3F800000 ++ zeros 4)
    let u := unqueue s (reqAt 1) 0x42
    Ready s (reqAt 1) 0x42 (some (ctxIndex (u32 p 0))) none ∧ RunFits u 0x42 p c2 [] u := by
  unfold Ready RunFits RegionOk; decide +kernel

/-- The run of a context, with a stop reason. -/
def run1 (stop : Option Nat) : Run :=
  { (default : Run) with r := reqAt 9, opcode := 0x40, pauses := [], seeded := true, stop := stop, before := some d1 }

/-- The content of a run of 2 sweeps with a subset size. -/
def dRun (subset : Nat) : CtxData := { d1 with params := block 2 0 0 subset, runKind := 1 }

/-- The context seated with sweeps left, in a sweep; its run may be over. -/
def seated1 (left : Nat) (w : Option Sweep) (stop : Option Nat) (subset : Nat) : Ctx :=
  { c1 .running with run := some (run1 stop), seat := some ⟨0, left, dRun subset, w, 0, []⟩ }

def listed : Model := { m1 with lists := [[0], []] }

/-- Run with the seated context in list 0 of its model. -/
def sweepRun (c : Ctx) : State := { run with models := [(0, listed)], ctxs := [(0, c)] }

theorem witness_runResume : ∀ st ∈ [RunState.paused, .idle, .running],
    let s := work (c1 st)
    Ready s (reqAt 1) 0x44 (some (ctxIndex (u32 handleOp 0))) none ∧ handleOp.length = 8 ∧ allZero (slice handleOp 4 4) = true ∧
    ctxOf s (u32 handleOp 0) = some (c1 st) ∧ lookup s.models (c1 st).model = some m1 ∧ ListsFit m1 := by
  unfold Ready ListsFit; decide +kernel

theorem witness_runPause : ∀ op ∈ [0x43, 0x45], ∀ c ∈ [seated1 1 none none 15, seated1 0 none (some 0) 15, c1 .idle, c1 .paused],
    Ready (sweepRun c) (reqAt 1) op (some (ctxIndex (u32 handleOp 0))) none ∧ handleOp.length = 8 ∧
    allZero (slice handleOp 4 4) = true ∧ ctxOf (sweepRun c) (u32 handleOp 0) = some c ∧
    runOver c = (c.seat.any (fun t => t.left == 0)) := by unfold Ready; decide +kernel

/-- The two shares of a sweep: block 0 with its colour 0, block 1 with its colour 1. -/
def shareA : Share :=
  { (default : Share) with block := 0, core := 0, colour := 0, plane := [[0, 1, 2]], base := none, barred := none }

def shareB : Share :=
  { (default : Share) with block := 1, core := 1, colour := 1, plane := [[0, 1, 2]], base := none, barred := none }

def sweep1 (a b : Share) (remote : List Remote) (subset : Nat) : Sweep :=
  { (default : Sweep) with
    work := dRun subset, shares := [a, b], keys := [⟨0, 0, 0, 1, 2⟩, ⟨0, 0, 1, 3, 4⟩], remote := remote,
    drawn := [(0, 0, 0), (0, 0, 1)] }

/-- A vector of variable 1 in speculative work, marked or not; its sample. -/
def vecB (invalid : Bool) : Vec := ⟨1, 0, 0, [0, 5], false, true, invalid⟩

theorem witness_vectorPlain : ∀ issued : Bool,
    let w := { sweep1 shareA shareB [] 15 with issued := issued }
    let c := seated1 1 (some w) none 15
    let s := sweepRun c
    let seat : Seat := ⟨0, 1, dRun 15, some w, 0, []⟩
    ShareAt s 0 0 c seat w shareA ∧ colourOf (ctxModel s c) 0 = 0 ∧
    batchOk (ctxModel s c) w shareA c.replicas 0 [⟨0, 0⟩] = true ∧ (readPlaces (sweepPlaces s c seat w) s).1 = none ∧
    c.run.any (fun v => heldByFence s v.r 0) = false ∧
    modeOf (ctxModel s c) w shareA c.replicas 0 (specEn s shareA) = .plain := by unfold ShareAt; decide +kernel

theorem witness_vectorSpeculative :
    let w := sweep1 shareA shareB [] 15
    let c := seated1 1 (some w) none 15
    let s := sweepRun c
    let seat : Seat := ⟨0, 1, dRun 15, some w, 0, []⟩
    ShareAt s 1 0 c seat w shareB ∧ colourOf (ctxModel s c) 1 = 1 ∧
    batchOk (ctxModel s c) w shareB c.replicas 1 [⟨1, 0⟩] = true ∧ (readPlaces (sweepPlaces s c seat w) s).1 = none ∧
    c.run.any (fun v => heldByFence s v.r 1) = false ∧
    modeOf (ctxModel s c) w shareB c.replicas 1 (specEn s shareB) = .speculative := by unfold ShareAt; decide +kernel

theorem witness_sample : ∀ spec : Bool,
    let v : Vec := { vecB false with spec := spec }
    let h := { shareB with vecs := [v] }
    let w := { sweep1 shareA h [] 15 with issued := true }
    let c := seated1 1 (some w) none 15
    ShareAt (sweepRun c) 1 0 c ⟨0, 1, dRun 15, some w, 0, []⟩ w h ∧ w.issued = true ∧
    vecAt h 1 0 = some v ∧ keyOf m1 w 1 0 = some ⟨0, 0, 1, 3, 4⟩ ∧ sampled h 1 0 = false ∧
    (let g := if spec then { h with spec := [⟨1, 0, 1⟩] } else { h with pend := [⟨1, 0, 1⟩] }
     vecAt g 1 0 = some v ∧ sampled g 1 0 = true) := by unfold ShareAt; decide +kernel

theorem witness_passKey :
    let w := { sweep1 shareA shareB [] 15 with keys := [], drawn := [] }
    let c := seated1 1 (some w) none 15
    let s := sweepRun c
    lookup s.ctxs 0 = some c ∧ sweepOf s 0 c = some (⟨0, 1, dRun 15, some w, 0, []⟩, w) ∧
    (sweepStreams (ctxModel s c) (w.shares.map (·.block))).contains 0 = true ∧ 0 < c.replicas ∧
    nextKey (ctxModel s c) w 0 0 = some 0 := by decide +kernel

theorem witness_flipWalk :
    let h := { shareB with vecs := [vecB false], base := some [[0, 1, 2]], unwalked := [(⟨0, 0, 1⟩, 0)] }
    let w := sweep1 shareA h [] 15
    let c := seated1 1 (some w) none 15
    let s := sweepRun c
    ShareAt s 1 0 c ⟨0, 1, dRun 15, some w, 0, []⟩ w h ∧ h.base.isSome = true ∧
    allIssued (ctxModel s c) h ((specColour (ctxModel s c) h).getD 0) c.replicas = true ∧
    ShareAt s 0 0 c ⟨0, 1, dRun 15, some w, 0, []⟩ w shareA ∧ shareA.base = none ∧
    (vecB false).spec = true ∧ (vecB false).rep = 0 ∧ { vecB false with spec := false }.spec = false ∧
    adjacent m1 (vecB false).var 0 = true ∧ adjacent m1 (vecB false).var 2 = false := by unfold ShareAt; decide +kernel

theorem witness_validation : ∀ invalid : Bool,
    let h := { shareB with vecs := [vecB invalid], base := some [[0, 1, 2]], spec := [⟨1, 0, 1⟩], arrived := [(0, 0)] }
    let w := sweep1 shareA h [] 15
    let c := seated1 1 (some w) none 15
    let s := sweepRun c
    ShareAt s 1 0 c ⟨0, 1, dRun 15, some w, 0, []⟩ w h ∧ specColour (ctxModel s c) h = some 1 ∧ h.colour = 1 ∧
    remoteDoneBelow (ctxModel s c) w h 1 1 = true ∧ h.unwalked = [] ∧ allIssued (ctxModel s c) h 1 c.replicas = true ∧
    specReady (ctxModel s c) w h = true := by unfold ShareAt; decide +kernel

theorem witness_commit :
    let h := { shareA with pend := [⟨0, 0, 1⟩] }
    let w := sweep1 h shareB [] 15
    let c := seated1 1 (some w) none 15
    let s := sweepRun c
    ShareAt s 0 0 c ⟨0, 1, dRun 15, some w, 0, []⟩ w h ∧ h.colour < (ctxModel s c).colours ∧
    (h.pend.filter (fun u => colourOf (ctxModel s c) u.var == h.colour)).length =
      (slotsOf (ctxModel s c) h.block h.colour c.replicas).length ∧
    remoteDoneBelow (ctxModel s c) w h h.colour h.colour = true := by unfold ShareAt; decide +kernel

theorem witness_remote :
    let r : Remote := ⟨0, 1, 0, [⟨0, 0, 1⟩]⟩
    let w := sweep1 { shareA with colour := 2 } shareB [r] 15
    let c := seated1 1 (some w) none 15
    let s := sweepRun c
    ShareAt s 1 0 c ⟨0, 1, dRun 15, some w, 0, []⟩ w shareB ∧
    w.shares.find? (fun x => x.core == 0) = some { shareA with colour := 2 } ∧
    w.remote.find? (fun x => x.fromBlock == 0 && x.toBlock == shareB.block) = some r ∧
    arrivalWaits (ctxModel s c) shareB r = false := by unfold ShareAt; decide +kernel

/-- Every colour has committed: with both blocks in one subset the sweep ends, with one block each the next subset follows. -/
theorem witness_boundary : ∀ subset ∈ [15, 1],
    let w := sweep1 { shareA with colour := 2 } { shareB with colour := 2 } [] subset
    let c := seated1 1 (some w) none subset
    let s := sweepRun c
    lookup s.ctxs 0 = some c ∧ sweepOf s 0 c = some (⟨0, 1, dRun subset, some w, 0, []⟩, w) ∧ sweepOver (ctxModel s c) c w = true ∧
    nextTurn (ctxModel s c) w = (if subset = 15 then none else some (1, 0)) := by decide +kernel

theorem witness_best : ∀ e ∈ [-1, 0, 1],
    let w := sweep1 shareA shareB [] 15
    let v := { w with work := { w.work with energy := [e] } }
    (finalEnergies m1 v).energy = [e] ∧ v.work.bestEnergy = 0 := by decide +kernel

/-- A context of the small model waits in list 0; the model's shares are resident or not, and the words of the context's class can be
read or have never been written. -/
def seatRun (resident : Bool) : State :=
  { work0 { c0 .running with run := some (run1 none), data := { d0 with params := block 2 0 0 15 } } with
    models := [(0, { m0 with lists := [[0], []] })], cores := if resident then [(0, { shares := [⟨0, 0, 0, 512, 0⟩] })] else []
    hbm := if resident then cellsAt 0 (zeros 4096) else [] }

theorem witness_seating : ∃ c, lookup (seatRun true).ctxs 0 = some c ∧ waitingIn (seatRun true) 0 0 = [0] ∧
    engineOn (seatRun true) = true ∧ fenceDue (seatRun true) (.model 0) (runLogical (seatRun true) c 0) = false ∧
    (listAt (seatRun true) 0 0).length - (waitingIn (seatRun true) 0 0).length < 3 ∧
    absentShares (seatRun true) 0 (runBlocks (seatRun true) c 0) = [] ∧ (seatRun true).heldRegs = [] ∧
    (ctxModel (seatRun true) c).bad = false ∧ (readHbm (seatRun true) c.addr (moveLen c)).1.isSome = true ∧ c.run.isSome = true :=
  ⟨(lookup (seatRun true).ctxs 0).get (by decide +kernel), by decide +kernel⟩

theorem witness_eviction : ∃ c, lookup (seatRun false).ctxs 0 = some c ∧ waitingIn (seatRun false) 0 0 = [0] ∧
    engineOn (seatRun false) = true ∧ absentShares (seatRun false) 0 (runBlocks (seatRun false) c 0) ≠ [] ∧
    (roomFor (seatRun false) (modelAt (seatRun false) 0) (absentShares (seatRun false) 0 (runBlocks (seatRun false) c 0))).isSome =
      true := ⟨(lookup (seatRun false).ctxs 0).get (by decide +kernel), by decide +kernel⟩

theorem witness_writeBack : ∀ stop ∈ [none, some 0],
    let c := seated1 0 none stop 15
    let s := sweepRun c
    lookup s.ctxs 0 = some c ∧ c.seat = some ⟨0, 0, dRun 15, none, 0, []⟩ ∧ c.run = some (run1 stop) ∧ engineOn s = true ∧
    (readPlaces [] s).1 = none ∧
    (run1 stop).stop = stop ∧ lookup s.models c.model = some listed ∧ 0 < listed.lists.length := by decide +kernel

theorem witness_balance :
    let s := { sweepRun { c1 .running with run := some (run1 none), placement := 1 } with
      models := [(0, { m1 with lists := [[], [0]] })], regs := [(0x100, 0x4001)] }
    engineOn s = true ∧ regBit s 0x100 0 = true ∧ lookup s.models 0 = some { m1 with lists := [[], [0]] } ∧
    waitingIn s 0 0 = [] ∧ donor s 0 0 = some 1 ∧ (waitingIn s 0 1).getLast? = some 0 := by decide +kernel

/-! ### Tensor programs, drains, MOVE and FILL -/

/-- A tensor descriptor: address, elements, vectors, format. -/
def tensor32 (addr k v fmt : Nat) : List Byte := leBytes 8 addr ++ leBytes 4 k ++ leBytes 4 v ++ leBytes 2 fmt ++ zeros 14

/-- A step: operation, accumulator, B; A is tensor 0 and C tensor 2. -/
def step64 (op acc b : Nat) : List Byte :=
  leBytes 1 op ++ leBytes 1 acc ++ zeros 2 ++ leBytes 2 0 ++ leBytes 2 b ++ leBytes 2 2 ++ leBytes 8 0xFFFFFFFFFFFFFFFF ++
    leBytes 2 0 ++ leBytes 4 0x3F800000 ++ zeros 40

/-- A program of one step over A (32 elements in 8 bits, or one in FP32), B and the output C of one element, each of one vector. -/
def prog192 (op acc b : Nat) (fp : Bool) (magic : Nat := 0x54374E47) : List Byte :=
  leBytes 4 magic ++ leBytes 2 1 ++ leBytes 2 1 ++ leBytes 2 3 ++ zeros 22 ++ tensor32 0 32 1 (if fp then 7 else 5) ++
    tensor32 64 32 1 5 ++ tensor32 128 (if op = 0 then 1 else 32) 1 (if op = 0 then 7 else 5) ++ step64 op acc b

def tensorOpPl : List Byte := leBytes 8 256 ++ leBytes 4 192 ++ zeros 4

/-- Operands of zeros, and a program at 256. -/
def tensorRun (b : List Byte) : State := { run with hbm := cellsAt 0 (zeros 256 ++ b) }

theorem witness_tensorOp : ∀ acc ∈ [0, 1],
    let s := tensorRun (prog192 0 acc 1 false)
    Ready s (reqAt 1) 0x50 none none ∧ ProgFits (unqueue s (reqAt 1) 0x50) (modesOf s (reqAt 1) 0x50) tensorOpPl
      (prog192 0 acc 1 false) (readHbm (unqueue s (reqAt 1) 0x50) 256 192).2 := by unfold Ready ProgFits RegionOk; decide +kernel

theorem witness_tensorOpBad :
    let s := tensorRun (prog192 0 0 1 false 0)
    let u := unqueue s (reqAt 1) 0x50
    let md := modesOf s (reqAt 1) 0x50
    Ready s (reqAt 1) 0x50 none none ∧ tensorOpPl.length = 16 ∧ allZero (slice tensorOpPl 12 4) = true ∧
    RegionOk s (u64 tensorOpPl 0) (u32 tensorOpPl 8) 64 false ∧ 32 ≤ u32 tensorOpPl 8 ∧ u32 tensorOpPl 8 ≤ 8224 ∧
    (readHbm u 256 192).1 = some (prog192 0 0 1 false 0) ∧
    progBad (readHbm u 256 192).2 md.tree md.gn5 (prog192 0 0 1 false 0) = true := by
  unfold Ready RegionOk; decide +kernel

/-- The program in progress at its only tile, which may have drained. -/
def progAt (b : List Byte) (drained : Option Tile) : Prog :=
  { (default : Prog) with
    r := reqAt 9, tensors := progTensors b, steps := progSteps b, drained := drained, reports := [newReport], firstTile := none,
    satTile := none }

def tileRun (b : List Byte) (drained : Option Tile) : State := { tensorRun b with progs := [progAt b drained] }

theorem witness_matmulTile : ∀ acc ∈ [0, 1],
    let b := prog192 0 acc 1 false
    let p := progAt b none
    let s := tileRun b none
    let ra := readGroups s (tensorOf (tensor32 0 32 1 5)) (tileM p)
    let rb := readGroups ra.2 (tensorOf (tensor32 64 32 1 5)) (tileN p)
    findProg s (reqAt 9) = some p ∧ p.drained = none ∧ tileBegins s p = true ∧ (curStep p).op = 0 ∧
    tensorAt p.tensors (curStep p).a = some (tensorOf (tensor32 0 32 1 5)) ∧
    tensorAt p.tensors (curStep p).b = some (tensorOf (tensor32 64 32 1 5)) ∧
    OperandsRead s p (tensorOf (tensor32 0 32 1 5)) (tensorOf (tensor32 64 32 1 5)) (ra.1.getD []) (rb.1.getD []) [] rb.2 := by
  unfold OperandsRead; decide +kernel

theorem witness_convertTile : ∀ fp : Bool,
    let b := prog192 1 0 0xFFFF fp
    let p := progAt b none
    let s := tileRun b none
    let a := tensorOf (tensor32 0 32 1 (if fp then 7 else 5))
    let got := readVecs s a 0 (if fp then 128 else 33) (tileN p)
    findProg s (reqAt 9) = some p ∧ p.drained = none ∧ tileBegins s p = true ∧ (curStep p).op ≠ 0 ∧
    tensorAt p.tensors (curStep p).a = some a ∧ (tileM p).headD 0 = 0 ∧ (tileM p).length = 32 ∧ narrowBytes 5 32 = 33 ∧
    got.1.isSome = true ∧
    (convertTile p.gn5 a (List.zipWith (fun n b => (vecAddr a n + 0, b)) (tileN p) (got.1.getD []))).2 = false := by
  decide +kernel

/-- A drained tile of one element; the program ends with it. -/
def tile1 : Tile := { exp := 0, replays := 0, saturated := 0, elems := [[.acc 5]] }

theorem witness_tileWritten :
    let b := prog192 0 0 1 false
    let p := progAt b (some tile1)
    let s := tileRun b (some tile1)
    findProg s (reqAt 9) = some p ∧ p.r = reqAt 9 ∧ p.drained = some tile1 ∧ tileRuns s p = true ∧
    (readLate s p (stepNow p)).1 = some [] ∧ (tensorAt p.tensors (curStep p).c).isSome = true ∧
    sentinelDue s p (curStep p) = false ∧ curTiles p ≤ p.tile + 1 ∧ p.steps.length ≤ p.cur + 1 ∧ p.notWritten = 0 := by
  decide +kernel

/-- The same tile of a step with a second one, or followed by a second step. -/
theorem witness_tileGoesOn :
    let b := prog192 0 0 1 false
    let wide := { progAt b (some tile1) with tensors := (progTensors b).map (fun t => { t with vectors := 257 }) }
    let two := { progAt b (some tile1) with steps := progSteps b ++ progSteps b }
    wide.tile + 1 < curTiles wide ∧ tileRuns { tensorRun b with progs := [wide] } wide = true ∧
    curTiles two ≤ two.tile + 1 ∧ two.cur + 1 < two.steps.length ∧ tileRuns { tensorRun b with progs := [two] } two = true := by
  decide +kernel

theorem witness_sequential :
    let p := progAt (prog192 0 1 1 false) none
    (curStep p).acc = 1 ∧ p.tree = false ∧ p.gn5 = false ∧ 0 < [([⟨127, [1], false⟩] : List Group)].length := by decide +kernel

theorem witness_fence : ∀ ctx : Bool,
    let s := work (c1 .running)
    let b := zeros 12 ++ leBytes 4 (if ctx then hCtx else 0)
    FenceFits s b ∧ Ready s (reqAt 1) 0x51 (if u8 b 0 = 0 ∧ u32 b 12 ≠ 0 then some (ctxIndex (u32 b 12)) else none) none := by
  unfold FenceFits Ready; decide +kernel

/-- Two FP32 parts of one element at 0 and 64, combined at 128, or two ACC48 parts. -/
def combineOp (acc : Nat) : List Byte :=
  [1, BitVec.ofNat 8 acc, 0, 2] ++ zeros 4 ++ leBytes 4 0x3F800000 ++ zeros 20 ++ tensor32 128 1 1 7 ++ zeros 64 ++
    tensor32 0 1 1 (8 - acc) ++ leBytes 4 0 ++ leBytes 4 1 ++ zeros 8 ++ tensor32 64 1 1 (8 - acc) ++ leBytes 4 1 ++ leBytes 4 1 ++ zeros 8

theorem witness_combine : ∀ acc ∈ [0, 1], CombineFits run (modesOf run (reqAt 1) 0x51) (combineOp acc) ∧ Ready run (reqAt 1) 0x51 none none := by
  unfold CombineFits Ready; decide +kernel

theorem witness_drainComplete : ∀ op ∈ [zeros 16, combineOp 0, combineOp 1],
    let d : Drain := ⟨reqAt 9, u8 op 0 == 1, op, false, false, [0], none⟩
    let s := { tensorRun [] with drains := [d] }
    s.drains.find? (fun x => x.r == reqAt 9) = some d ∧ d.r = reqAt 9 ∧ engineOn s = true ∧ fenceWaits s d = false ∧
    (d.combine = true →
      let rc := readColumns { s with drains := [] } d.gn5 (combineParts d.payload) (List.range 1)
      rc.1.isSome = true ∧ (combinePreload rc.2 d.gn5 d.payload 1).1.isSome = true) := by decide +kernel

theorem witness_fenceWaits :
    let d : Drain := ⟨reqAt 9, false, zeros 16, false, false, [0], none⟩
    let s := { tileRun (prog192 0 0 1 false) none with drains := [d], taken := [⟨reqAt 9, 0x50, none, none, modesNow run⟩] }
    s.drains.find? (fun x => x.r == reqAt 9) = some d ∧ fenceWaits s d = true := by decide +kernel

/-- A MOVE: kind, member, source, destination, length, data. -/
def moveOp (kind member src dst len : Nat) (data : List Byte) : List Byte :=
  leBytes 4 kind ++ leBytes 4 member ++ leBytes 8 src ++ leBytes 8 dst ++ leBytes 8 len ++ data

theorem witness_move : ∀ p ∈ [moveOp 0 bridge 3 (hbmEnd - 0x10000001) 1 [], moveOp 0 bridge 0 8 0 [], moveOp 1 bridge 0 5 3 [1, 2, 3],
      moveOp 2 bridge (hbmEnd - 8184) 0 8184 []], Ready run (reqAt 1) 0x60 none none ∧ LocalMoveFits run p := by
  unfold Ready LocalMoveFits RegionOk; decide +kernel

theorem witness_moveComplete : ∀ kind ∈ [0, 1, 2],
    let m : Move := ⟨reqAt 9, kind, bridge, 0, 2 ^ 20, 8, [1, 2, 3, 4, 5, 6, 7, 8], 0, false, []⟩
    findMove { run with moves := [m], hbm := cellsAt 0 (zeros 8) } (reqAt 9) = some m ∧ m.kind < 3 := by decide +kernel

/-- Member 0 of a pair, its partner joined on port 0, and a bridge on port 1. -/
def pairRun : State :=
  { run with
    ports := [(0, { st := .active, partnerJoined := true, everActive := true, lanes := 0xFF, partner := some ⟨7, 1, 1, 0⟩ }),
              (1, { st := .active, lanes := 0xFF })]
    join := { st := .complete, topology := 1, systemId := 7, count := 2 }
    hbm := cellsAt 0 (zeros 4104) }

theorem witness_remoteMove : ∀ p ∈ [moveOp 3 1 0 0 4097 [], moveOp 4 bridge 0 0 1 [], moveOp 5 bridge 0 64 8192 []],
    Ready pairRun (reqAt 1) 0x60 none none ∧ RemoteMoveFits pairRun p ∧ 0 < u64 p 24 ∧
    (u8 p 0 ≠ 5 → (readPart (unqueue pairRun (reqAt 1) 0x60) (u64 p 8) (u64 p 24)).2.1 = true) := by
  unfold Ready RemoteMoveFits RegionOk; decide +kernel

/-- A FILL: kind, destination, length, seed, pattern. -/
def fillOp (kind dst len seed pattern : Nat) : List Byte :=
  leBytes 8 kind ++ leBytes 8 dst ++ leBytes 8 len ++ leBytes 8 seed ++ leBytes 8 pattern

theorem witness_fill : ∀ p ∈ [fillOp 0 0 8 0 5, fillOp 4 (hbmEnd - 2 ^ 30) 0 9 0, fillOp 1 8 16 3 0],
    Ready run (reqAt 1) 0x61 none none ∧ p.length = 40 ∧ allZero (slice p 1 7) = true ∧ u8 p 0 ≤ 4 ∧ (u8 p 0 = 0 → u64 p 24 = 0) ∧
    (u8 p 0 ≠ 0 → u64 p 32 = 0) ∧ u64 p 16 % 8 = 0 ∧ RegionOk run (u64 p 8) (u64 p 16) 8 true := by
  unfold Ready RegionOk; decide +kernel

theorem witness_fillComplete :
    let f : Fill := ⟨reqAt 9, 1, 8, 16, 3, 0⟩
    let s := { run with fills := [f] }
    s.fills.find? (fun x => x.r == f.r) = some f ∧ f.dst % 8 = 0 ∧ f.len % 8 = 0 := by decide +kernel

/-! ### Entropy -/

/-- The entropy block in a state, with requests that wait. -/
def drawRun (st : EntState) (q : List EntReq) : State :=
  { run with ent := { st := st, instantiated := true, sources := List.replicate 7 .healthy, queue := q } }

theorem witness_entropyGet : ∀ st ∈ [EntState.ready, .failed, .startup, .halted], ∀ n ∈ [1, 1024],
    let s := drawRun st (List.replicate 63 ⟨.host (reqAt 9), 5, []⟩)
    let p := leBytes 2 n ++ zeros 2
    Ready s (reqAt 1) 0x70 none none ∧ p.length = 4 ∧ u16 p 2 = 0 ∧ 1 ≤ u16 p 0 ∧ u16 p 0 ≤ 1024 ∧ regBit s 0x400C 0 = true ∧
    s.ent.st = st ∧ hostWaiting s < 64 ∧ regField s 0x400C 8 8 ≠ 0 := by unfold Ready; decide +kernel

theorem witness_hostWait : (drawRun .ready [⟨.host (reqAt 9), 5, []⟩]).ent.queue.any (fun q => q.what == .host (reqAt 9)) = true := by
  decide +kernel

theorem witness_generate : ∀ n ∈ [257, 256, 1],
    let e : EntReq := ⟨.host (reqAt 9), n, []⟩
    let s := drawRun .ready [e]
    entropyOn s = true ∧ s.ent.st = .ready ∧ reseedDue s = false ∧ nextDraw s.ent.queue = some e ∧ s.ent.drbg.key.length = 32 ∧
    (callBytes e < e.need - e.got.length ∨ e.need - e.got.length ≤ 256) := by decide +kernel

theorem witness_drawOrder :
    let a : EntReq := ⟨.host (reqAt 9), 5, []⟩
    let b : EntReq := ⟨.challenge, 48, []⟩
    nextDraw [a, b] = some b ∧ a ∈ [a, b] ∧ reseedDue { run with ent := { calls := 65536 } } = true := by decide +kernel

/-- Samples of which the last fails the repetition count, or the adaptive proportion test, of a source; and 1,024 that pass. -/
def samplesOf (test : Nat) : List Bool :=
  if test = 0 then List.replicate 41 true else (List.replicate 103 [true, true, true, true, true, false]).flatten

def goodSamples : List Bool := (List.replicate 512 [true, false]).flatten

theorem witness_healthTest : ∀ test ∈ [0, 1], ∀ x ∈ [SourceState.startup, .healthy], ∀ fenced ∈ [0, 5],
    let s := { run with ent := { (default : Entropy) with
      st := .ready, sources := List.replicate fenced .fenced ++ List.replicate (7 - fenced) x } }
    entropyOn s = true ∧ s.ent.st ≠ .failed ∧ 6 < s.ent.sources.length ∧ 6 < s.sec.otp.entropyFails.length ∧
    sourceAt s.ent 6 = x ∧ (samplesOf test).length ≤ 1024 ∧
    (runTests 6 (testsOf s.ent 6) (samplesOf test)).2 = some test := by decide +kernel

/-- The states of a source, and its start-up test. -/
theorem witness_sources : (∀ x ∈ [SourceState.restarting, .startup],
      sourceAt { (default : Entropy) with sources := List.replicate 7 x } 6 = x) ∧ entropyOn run = true ∧
    goodSamples.length = 1024 ∧ (runTests 6 {} goodSamples).2 = none := by decide +kernel

/-- A block of samples for every state that takes one: one output makes it READY's, two instantiate, one reseeds. -/
theorem witness_blocks :
    (∀ st ∈ [EntState.ready, .startup, .halted],
      let s := drawRun st []
      entropyOn s = true ∧ healthySources s.ent ≠ [] ∧ (blockTests s.ent goodSamples).isSome = true ∧ s.ent.st = st ∧
      allHealthy s.ent = true ∧ s.ent.katFailed = false) ∧
    (∀ st ∈ [EntState.startup, .halted],
      let s := { drawRun st [] with ent := { (drawRun st []).ent with outputs := [zeros 48, zeros 48] } }
      entropyOn s = true ∧ s.ent.outputs = [zeros 48, zeros 48] ∧ allHealthy s.ent = true ∧ s.ent.katFailed = false) ∧
    (let s := { drawRun .ready [] with ent := { (drawRun .ready []).ent with outputs := [zeros 48], calls := 65536 } }
     entropyOn s = true ∧ s.ent.st = .ready ∧ s.ent.outputs = [zeros 48] ∧ reseedDue s = true) := by decide +kernel

/-! ### Power, clocks and reset -/

theorem witness_powerSet : ∀ code ∈ [1, 2, 3],
    let p := leBytes 8 code ++ leBytes 8 (if code = 1 then 0 else 5)
    ReadyEarly run (reqAt 1) 0x80 false (dozeServes run 0x80 p) ∧ p.length = 16 ∧ allZero (slice p 1 7) = true ∧ 1 ≤ u8 p 0 ∧
    u8 p 0 ≤ 3 ∧ (u8 p 0 = 1 → u64 p 8 = 0) ∧ run.power.st = .run ∧ workInProgress run = false ∧ wakeActive run = false := by
  unfold ReadyEarly; decide +kernel

/-- A sleep state: entering it, in it, leaving it. -/
def sleepRun (st : PState) (exiting : Bool) : State := { run with power := { phase := .running, st := st, exiting := exiting } }

theorem witness_sleep : ∀ st ∈ [PState.doze, .nap, .den], (sleepRun st true).power.exiting = true ∧ (sleepRun st true).power.st = st ∧
    ({ sleepRun .run false with power := { phase := .running, entering := some ⟨st, reqAt 9, none⟩ } } : State).power.entering =
      some ⟨st, reqAt 9, none⟩ ∧ (∀ x ∈ run.ctxs, x.2.seat = none) := by decide +kernel

theorem witness_wake : ∀ st ∈ [PState.doze, .nap, .den],
    let s := { sleepRun st false with power := { (sleepRun st false).power with alarm := 1, thermWake := 105 }, rtc := 1 }
    Asleep s ∧ alarmPresent s = true ∧ thermalPresent (setSensor s 23 (105 * 16)) = true := by unfold Asleep; decide +kernel

theorem witness_wakeArm : ∀ alarm ∈ [0, 1],
    let p := leBytes 8 alarm ++ leBytes 8 105
    ReadyEarly run (reqAt 1) 0x81 true true ∧ p.length = 16 ∧ allZero (slice p 9 7) = true ∧ u8 p 8 ≤ 105 ∧
    (u64 p 0 = 0 ∨ run.rtc < u64 p 0) ∧ run.power.phase ≠ .off ∧ run.power.phase ≠ .reset := by unfold ReadyEarly; decide +kernel

/-- One sensor of a half has a reading. -/
def hotRun (n : Nat) (temp : Int) : State := { run with power := { phase := .running, sensors := [(n, ⟨temp, true⟩)] } }

theorem witness_throttle : ∀ n ∈ [0, 11, 12, 23], thermalOn run = true ∧
    hottest run (12 * halfOfSensor n) 12 < throttleTemp run ∧ throttleTemp run ≤ reading run n (throttleTemp run) ∧
    throttleTemp (hotRun n (100 * 16)) ≤ hottest (hotRun n (100 * 16)) (12 * halfOfSensor n) 12 ∧
    hottest run (12 * halfOfSensor n) 12 < throttleTemp run - hystTemp run ∧
    alertTempOf run ≤ reading run n (alertTempOf run) ∧ reading run n 0 < alertTempOf run - hystTemp run ∧
    115 * 16 ≤ reading run n (115 * 16) ∧ run.power.phase ≠ .off ∧ run.power.phase ≠ .tripped := by decide +kernel

theorem witness_clocks : ({ run with power := { phase := .running, south := { relock := some 2 } } } : State).power.south.relock.isSome = true ∧
    ∀ h ∈ [0, 1], run.power.st = .run ∧ run.power.phase = .running ∧ halfBusy run h = false := by decide +kernel

theorem witness_powerLoss : run.power.pwrOk = true ∧ (43999 < 44000 ∨ 59000 < 43999) ∧ (59001 < 44000 ∨ 59000 < 59001) ∧
    run.faults.otpPending = none ∧
    let s := { run with power := { phase := .off, pwrOk := false } }
    s.power.pwrOk = false ∧ s.power.inputBad = false ∧ s.power.rstN = false := by decide +kernel

theorem witness_warmReset : run.power.phase ≠ .off ∧ run.power.phase ≠ .tripped ∧ run.power.phase ≠ .reset ∧
    (∀ kind ∈ [1, 2, 3], ({ run with power := { phase := .running, resetDue := some kind } } : State).power.resetDue = some kind) ∧
    (∀ b : Bool, ({ run with power := { phase := .reset, rstN := true, coldDue := b } } : State).power.phase = .reset) ∧
    run.trail.waiting = [] ∧ run.trail.intervals = [] := by decide +kernel

/-- The firmware of a fresh module does not boot. What verifies is opaque (log 10), so a slot that boots is no data of a test. -/
theorem witness_boot : State.reset.power.phase = .starting ∧ bootWaits State.reset = false ∧
    slotBoots State.reset.sec.otp State.reset.sec.slotA = false := by decide +kernel

/-- The boot ROM has run, over a factory map. -/
def bootedRun (map : List Byte) : State :=
  { run with power := { phase := .booted }, sec := { otp := { (default : Otp) with factoryMap := map } } }

/-- START_DONE with every core, or without core 3: of 18, of which two are reserves, or of 15. -/
theorem witness_startDone : ∀ map ∈ [run.map, [0, 1, 2, 3, 4, 5, 6, 7, 8, 9, 10, 11, 12, 13, 14, 0xFF, 0xFF, 0xFF]],
    let s := { bootedRun map with map := otpMap (bootedRun map).sec.otp }
    (bootedRun map).power.phase = .booted ∧ (bootedRun map).faults.fatal = none ∧ s.faults.fatal = none ∧
    (List.range 18).filter (fun p => [3].contains p) = [3] ∧ exhausts s.map 3 = decide (map ≠ run.map) ∧
    (fenceAtStart s 3).faults.fatal.isSome = decide (map ≠ run.map) := by
  unfold fenceAtStart; generalize Config.generatorFailed = g; generalize hb : g 0 3 = b
  intro map hm; fin_cases hm <;> (simp only [bootedRun, run, State.reset, hb]; cases b <;> decide +kernel)

/-! ### Faults, Trail, dump and the Groomer -/

theorem witness_trailFreeze : ReadyEarly run (reqAt 1) 0x90 true true ∧ run.trail.frozen = false ∧
    ReadyEarly run (reqAt 1) 0x92 true true ∧
    let s := { run with trail := { frozen := true, missed := 3 } }
    ReadyEarly s (reqAt 1) 0x92 true true ∧ s.trail.frozen = true ∧ s.trail.waiting = [] := by unfold ReadyEarly; decide +kernel

/-- A Trail with one record in its ring. -/
def trail1 (frozen : Bool) : Trail := { head := 1, ring := [{ coldResetRec with seq := 1 }], frozen := frozen }

theorem witness_trailRead :
    let s := { run with trail := trail1 true }
    let p := leBytes 8 1 ++ leBytes 8 1
    ReadyEarly s (reqAt 1) 0x91 (trailOnDie s p) (trailOnDie s p) ∧ p.length = 16 ∧ allZero (slice p 10 6) = true ∧ 1 ≤ u16 p 8 ∧
    u16 p 8 ≤ 127 ∧ s.trail.frozen = true ∧ s.trail.oldest ≠ 0 ∧ s.trail.oldest ≤ u64 p 0 ∧ u64 p 0 + u16 p 8 ≤ s.trail.head + 1 ∧
    s.trail.ringFirst ≤ u64 p 0 ∧ s.trail.ring.find? (fun y => y.seq == u64 p 0) = some { coldResetRec with seq := 1 } := by
  unfold ReadyEarly; decide +kernel

theorem witness_trailWrite : (State.reset.trail.frozen = false ∧ State.reset.trail.waiting = [] ++ [coldResetRec] ∧
      State.reset.trail.ring.length < 4096) ∧
    (let s := { run with trail := { head := 4096, ring := List.replicate 4096 coldResetRec, waiting := [coldResetRec] } }
     4096 ≤ s.trail.ring.length ∧ 4096 ≤ s.trail.unspilled ∧ regBit s 0x3000 0 = true) := by decide +kernel

theorem witness_trailSpill :
    let s := { run with trail := { trail1 false with head := 2, ring := [{ coldResetRec with seq := 2 }, { coldResetRec with seq := 1 }] } }
    regBit s 0x3000 0 = true ∧ s.trail.frozen = false ∧ hbmState s = 2 ∧
    (let xs := s.trail.ring.filter (fun y => s.trail.spilled < y.seq)
     xs.length = 2 ∧ xs.Pairwise (fun x y => spillAddr x.seq ≠ spillAddr y.seq)) := by decide +kernel

theorem witness_intervalEnd :
    let i : Interval := ⟨.link 3, 0, coldResetRec, 5⟩
    let s := { run with trail := { intervals := [i] }, rtc := 2 ^ 20 }
    s.trail.intervals.find? (fun j => j.key == .link 3) = some i ∧ ended s i.opened (intervalMs (.link 3)) = true ∧
    s.trail.frozen = false ∧ s.trail.waiting.length < 64 := by decide +kernel

theorem witness_fatal : run.power.phase ≠ .off ∧ run.power.phase ≠ .reset ∧ run.faults.fatal = none ∧
    regBit run 0x2020 0 = true ∧ run.faults.dump.kept = false ∧
    (∀ b : Bool, (dumpRun b).faults.fatal = none ∧ (dumpRun b).faults.dump.kept = true ∧ regBit (dumpRun b) 0x2020 0 = true) ∧
    ({ run with faults := { fatal := some (1, 2), dump := { writing := true } } } : State).faults.fatal = some (1, 2) ∧
    ({ run with faults := { fatal := some (1, 2), dump := { writing := true } } } : State).faults.dump.writing = true := by
  decide +kernel

/-- DUMP_READ of the last byte of a dump of 256. -/
theorem witness_dumpRead :
    let s := { dumpRun true with hbm := cellsAt (fetchAddr 0) (zeros 256), faults := { dump := { (dumpRun true).faults.dump with size := 256 } } }
    let p := leBytes 8 255 ++ leBytes 8 1
    Ready s (reqAt 1) 0x93 none none ∧ p.length = 16 ∧ allZero (slice p 10 6) = true ∧ 1 ≤ u16 p 8 ∧ u16 p 8 ≤ 8192 ∧
    s.faults.dump.valid = true ∧ s.faults.dump.writing = false ∧ u64 p 0 + u16 p 8 ≤ s.faults.dump.size ∧
    (readDump (unqueue s (reqAt 1) 0x93) (u64 p 0) (u16 p 8)).1.isSome = true := by unfold Ready; decide +kernel

/-- The tile has not failed, or failed once; RETRY_MAX is 2. -/
theorem witness_retry : ∀ k ∈ [0, 1],
    let b := prog192 0 0 1 false
    let q := progAt b none
    let s := { tileRun b none with cores := [(0, { failed := [(.tile (reqAt 9) q.cur q.tile, k)] })] }
    watched s 0 = true ∧ findProg s (reqAt 9) = some q ∧ q.r = reqAt 9 ∧ q.drained = none ∧
    tilePhys s (curStep q).coreMask q.tile = 0 ∧ failedAttempts s (.tile (reqAt 9) q.cur q.tile) ≤ retryMax s ∧
    ((coreState s 0).times.filter (fun x => !ended s x 1000)).length + 1 < fenceThreshold s := by decide +kernel

theorem witness_retriesOver :
    let b := prog192 0 0 1 false
    let q := progAt b none
    let s := { tileRun b none with cores := [(0, { failed := [(.tile (reqAt 9) q.cur q.tile, 2)] })] }
    watched s 0 = true ∧ findProg s (reqAt 9) = some q ∧ tilePhys s (curStep q).coreMask q.tile = 0 ∧
    retryMax s < failedAttempts s (.tile (reqAt 9) q.cur q.tile) ∧ s.faults.fatal = none ∧
    s.faults.due = [] ∧ exhausts s.map 0 = false := by decide +kernel

theorem witness_window : ∀ fails ∈ [0, 1],
    let s := { run with cores := [(17, { windowFails := fails })], map := [0, 1, 2, 3, 4, 5, 6, 7, 8, 9, 10, 11, 12, 13, 14, 0xFE, 0xFE, 15] }
    watched s 17 = true ∧ regBit s 0x84 0 = true ∧ s.faults.fatal = none ∧ s.faults.due = [] ∧ exhausts s.map 17 = false ∧
    ((coreState s 17).times.filter (fun x => !ended s x 1000)).length + 1 < fenceThreshold s ∧ (coreState s 17).windowFails = fails := by
  decide +kernel

/-- A fence with two reserves, and with none. -/
theorem witness_fenceSequence : ∀ map ∈ [run.map, [0, 1, 2, 3, 4, 5, 6, 7, 8, 9, 10, 11, 12, 13, 14, 15, 0xFF, 0xFF]],
    let s := { run with faults := { due := [(3, 0)] }, map := map }
    s.faults.due = [(3, 0)] ∧ s.faults.fatal = none ∧ s.power.phase = .running ∧ mapByte s.map 3 < 16 ∧ exhausts s.map 3 = false ∧
    (∀ q ∈ reservesOf s.map, q ∈ [16, 17]) ∧ mapByte s.map 3 ≠ 15 ∧ physOfMap s.map 15 = some 15 ∧ gensUsed s.sec.otp < 4 := by
  decide +kernel

theorem witness_otpWrite :
    let s := { run with faults := { otpPending := some 3 } }
    s.faults.due = [] ∧ s.faults.otpPending = some 3 ∧ gensUsed s.sec.otp < 4 := by decide +kernel

/-- FAULT_MAP: read; fence core 17; fence too many. -/
def mapOp (action mask : Nat) : List Byte := leBytes 4 action ++ leBytes 4 mask

theorem witness_faultMap : run.faults.due = [] ∧ Ready run (reqAt 1) 0x94 none none ∧ run.models = [] ∧
    (∀ p ∈ [mapOp 0 0, mapOp 1 0x20000, mapOp 1 0x3FFFF], p.length = 8 ∧ allZero (slice p 1 3) = true) ∧
    u8 (mapOp 0 0) 0 = 0 ∧ u32 (mapOp 0 0) 4 = 0 ∧ u8 (mapOp 1 0x20000) 0 = 1 ∧ u32 (mapOp 1 0x3FFFF) 4 < 2 ^ 18 ∧
    (maskedMap run.map (u32 (mapOp 1 0x20000) 4)).isSome = true ∧ maskedMap run.map (u32 (mapOp 1 0x3FFFF) 4) = none := by
  unfold Ready; decide +kernel

theorem witness_groomer : walking run 0 = true ∧
    (∀ m ∈ [WordClass.correctable, .uncorrectable],
      let s := { run with marks := [(7 * stackSize + 56, m)] }
      markedIn s (.hbm 7) (7 * stackSize + lookupD s.walkers 7 0) 64 = [7 * stackSize + 56] ∧
      lookup s.marks (7 * stackSize + 56) = some m) ∧ markedIn run (.hbm 7) (7 * stackSize) 64 = [] ∧
    mapByte run.map 15 < 16 ∧ walking run 1 = true ∧
    ([⟨64, .correctable, false⟩] : List Upset).all (fun e => !e.decoder) = true := by decide +kernel

theorem witness_memWriteBack :
    (∀ st ∈ [PState.run, .doze],
      let s := { run with marks := [(8, .correctable)], writeBacks := [(.hbm 0, 8)], power := { phase := .running, st := st } }
      (MemUnit.hbm 0, 8) ∈ s.writeBacks ∧ (s.power.st = .run ∨ s.power.st = .doze)) ∧
    (let s := { run with writeBacks := [(.spad 3, 16)] }
     (MemUnit.spad 3, 16) ∈ s.writeBacks ∧ (s.power.st = .run ∨ s.power.st = .doze)) := by decide +kernel

/-! ### Leash and joining -/

/-- JOIN_CONFIG: action, topology, count, self. -/
def joinOp (action topology count self : Nat) : List Byte :=
  leBytes 1 action ++ leBytes 1 topology ++ zeros 2 ++ leBytes 4 7 ++ leBytes 4 count ++ leBytes 4 self

theorem witness_joinConfig : Ready run (reqAt 1) 0xA0 none none ∧ allZero (zeros 16) = true ∧ joinBusy run = false ∧
    (∀ t ∈ [(1, 2, 0), (2, 4, 0), (3, 8, 0), (4, 2, 1), (4, 262144, 262143)],
      let p := joinOp 1 t.1 t.2.1 t.2.2
      p.length = 16 ∧ u8 p 0 = 1 ∧ u8 p 1 ≠ 0 ∧ allZero (slice p 2 2) = true ∧ joinRange run (u8 p 1) (u32 p 8) (u32 p 12) = true) ∧
    (let p := joinOp 1 0 1 0
     p.length = 16 ∧ u8 p 0 = 1 ∧ u8 p 1 = 0 ∧ allZero (slice p 2 2) = true ∧ joinRange run 0 (u32 p 8) (u32 p 12) = true) ∧
    (let p := (2 : Byte) :: zeros 15
     p.length = 16 ∧ u8 p 0 = 2 ∧ allZero (p.drop 1) = true ∧ Ready pairRun (reqAt 1) 0xA0 none none ∧ joinBusy pairRun = false ∧
     joinedPorts pairRun = [0] ∧ (port pairRun 0).st = .active) := by unfold Ready; decide +kernel

/-- A member of a pair that joins, with its partner there or not, and in the self-test or not. -/
def joiningRun (there test : Bool) : State :=
  { pairRun with
    ports := if there then pairRun.ports else []
    join := { st := .joining, topology := 1, systemId := 7, count := 2, setReq := some (reqAt 9), selfTest := test } }

theorem witness_joining : (∀ b : Bool, (joiningRun b false).join.st = .joining ∧ (joiningRun b false).join.selfTest = false) ∧
    joinReady (joiningRun false false) = false ∧ joinReady (joiningRun false true) = false ∧
    (joiningRun true true).join.st = .joining ∧ (joiningRun true true).join.selfTest = true := by decide +kernel

/-- Every required port has its partner, and no self-test round has come; a join of one member needs none. -/
theorem witness_joinReady :
    let s := { joiningRun true false with
      ports := (List.range 3).map (fun n => (n, { st := .active, partnerJoined := true, partner := some ⟨7, 1, 1, n⟩ })) }
    s.join.st = .joining ∧ s.join.selfTest = false ∧ joinReady s = true ∧ 1 < s.join.count ∧
    (∀ k < 16, heldRounds s (selfBarrierId k) 0 = []) ∧
    joinReady { s with ports := [], join := { s.join with topology := 0, count := 1 } } = true := by decide +kernel

/-- The self-test's traffic is there, and its barriers are over, or not. -/
theorem witness_selfTestEnds : ∀ done : Bool,
    let s := { joiningRun true true with join := { (joiningRun true true).join with
      selfBytes := 2 ^ 20, barriers := if done then [] else [⟨selfBarrierId 15, 0, none, 0, []⟩] } }
    s.join.st = .joining ∧ s.join.selfTest = true ∧ selfTestDone s = done := by decide +kernel

/-- A message of a kind on port 0, in sequence. -/
def msg (kind vl : Nat) (addr : Nat) (data : List Byte) (segment : Nat := 0) : LeashMsg :=
  ⟨0, 0, vl, kind, segment, data.length, 1, 0, 5, addr, data, 0⟩

theorem witness_selftest : Arrives pairRun 9 (msg 9 0 0 (zeros 4096)) := by unfold Arrives; decide +kernel

/-- BARRIER: id, scope. -/
def barrierOp (id scope : Nat) : List Byte := leBytes 4 id ++ leBytes 4 scope ++ zeros 8

/-- A barrier in progress. -/
def barrier1 : Barrier := ⟨5, 0, some (reqAt 9), 0, []⟩

theorem witness_barrier : ∀ scope ∈ [0, 1],
    let p := barrierOp 5 scope
    let s := { pairRun with join := { pairRun.join with barriers := (List.range 15).map (fun k => ⟨BitVec.ofNat 32 (k + 100), 0, some (reqAt 9), 0, []⟩) } }
    Ready s (reqAt 1) 0xA1 none none ∧ p.length = 16 ∧ allZero (slice p 12 4) = true ∧ u32 p 4 ≤ 18 ∧
    s.join.barriers.any (fun b => b.id == w32 p 0) = false ∧ joined s = true ∧ 2 ^ u32 p 4 ≤ s.join.count ∧
    s.join.st ≠ .incomplete ∧ s.join.barriers.length < 16 ∧ heldRounds s (w32 p 0) (u32 p 4) = [] ∧ 0 < roundsOf s (u32 p 4) := by
  unfold Ready; decide +kernel

/-- Member 0 of four: port 0 leads to member 1, port 1 to member 2, port 2 to member 3. -/
def quadRun (bs : List Barrier) : State :=
  { run with
    ports := (List.range 3).map (fun n => (n, { st := .active, partnerJoined := true, partner := some ⟨7, n + 1, 2, n⟩ }))
    join := { st := .complete, topology := 2, systemId := 7, count := 4, barriers := bs } }

/-- The arrival of a round from its sender: before the barrier is entered, in its first round of two, and in its last. -/
theorem witness_barrierMessage :
    let m := fun (round : Nat) => { msg 6 3 0 (leBytes 4 0 ++ leBytes 1 round) with port := round, srcMember := 1 + round }
    (Arrives (quadRun []) 6 (m 0) ∧ (quadRun []).join.barriers.find? (fun b => b.id == (m 0).tag) = none ∧
     (port (quadRun []) 0).barrierMsgs.length < 64) ∧
    (∀ round ∈ [0, 1],
      let b : Barrier := { barrier1 with round := round, seen := (List.range round) }
      let s := quadRun [b]
      Arrives s 6 (m round) ∧ s.join.barriers.find? (fun x => x.id == (m round).tag) = some b ∧ b.r = some (reqAt 9) ∧
      noticeFor s b.id b.scope (m round) = true ∧ u8 (m round).data 4 = b.round ∧ roundsOf s b.scope = 2 ∧ b.round + 1 ∉ b.seen) := by
  unfold Arrives; decide +kernel

theorem witness_barrierTimeout :
    let s := { pairRun with join := { pairRun.join with barriers := [barrier1] } }
    s.join.barriers.find? (fun x => x.id == barrier1.id) = some barrier1 ∧ barrier1.r = some (reqAt 9) := by decide +kernel

/-- A member with a grandmaster; member 1 and member 0's time, from itself or passed on by a nearer member; member 0. -/
theorem witness_time :
    let m := msg 7 3 0 (leBytes 8 9)
    (let s := { pairRun with eth := [(0, { link := true, gptp := 1 })] }
     Arrives s 7 m ∧ hasGrandmaster s = true) ∧
    (Arrives pairRun 7 m ∧ hasGrandmaster pairRun = false ∧ pairRun.join.self = 0) ∧
    (let s := { pairRun with join := { pairRun.join with self := 1 } }
     let m := { m with srcMember := 0, destMember := 1 }
     Arrives s 7 m ∧ hasGrandmaster s = false ∧ s.join.self ≠ 0 ∧ m.srcMember = 0) ∧
    (let s := { quadRun [] with join := { (quadRun []).join with self := 1, topology := 3, count := 8 } }
     let m := { m with srcMember := 3, destMember := 1 }
     Arrives s 7 m ∧ hasGrandmaster s = false ∧ s.join.self ≠ 0 ∧ m.srcMember ≠ 0 ∧ m.port ∈ routesTo s 0) := by
  unfold Arrives; decide +kernel

theorem witness_timeSend : joinedPorts pairRun = [0] ∧ (port pairRun 0).st = .active ∧ serdesOn pairRun = true ∧
    (port pairRun 0).waiting = [] ∧ (port pairRun 0).replay = [] ∧ outstanding (port pairRun 0) 3 = 0 := by decide +kernel

/-- The pair with the link of port 0 in a state. -/
def linkRun (p : Port) : State := { pairRun with ports := [(0, { p with partnerJoined := true, partner := some ⟨7, 1, 1, 0⟩ })] }

theorem witness_loss : pairRun.join.st ≠ .single ∧ 1 ∉ pairRun.join.lost ∧ Arrives pairRun 8 (msg 8 3 0 (leBytes 4 1)) ∧
    u32 (msg 8 3 0 (leBytes 4 1)).data 0 = 1 ∧ 1 < pairRun.join.count ∧
    (∀ st ∈ [LinkState.training, .down], let s := linkRun { st := st }
      memberAt s 0 = some 1 ∧ (port s 0).st = st ∧ (port s 0).sleepNotice = false ∧ 1 ∉ s.join.lost) ∧
    (let s := linkRun { st := .asleep, whistling := true }
     memberAt s 0 = some 1 ∧ (port s 0).st = .asleep ∧ (port s 0).whistling = true ∧ 1 ∉ s.join.lost) ∧
    (let s := { pairRun with join := { pairRun.join with st := .incomplete, lost := [1] } }
     Arrives s 8 (msg 8 3 0 (leBytes 4 1)) ∧ u32 (msg 8 3 0 (leBytes 4 1)).data 0 ∈ s.join.lost) := by
  unfold Arrives; decide +kernel

theorem witness_whistle :
    (let s := linkRun { st := .asleep, waiting := [⟨msg 1 0 0 [1], 0, none, 0⟩] }
     serdesOn s = true ∧ (port s 0).st = .asleep ∧ hasTraffic (port s 0) = true ∧ regBit s (portReg 0 0) 3 = true) ∧
    (let s := { run with ports := [(3, { st := .asleep, whistling := true })] }
     (port s 3).st = .asleep ∧ (port s 3).whistling = true ∧ memberAt s 3 = none) := by decide +kernel

/-- A CTRL flit, correct or not, with a notice. -/
def ctrl (ok : Bool) (notice : Nat) : CtrlFlit := ⟨ok, false, 0, false, 0, [1, 0, 0, 4095], notice, true⟩

theorem witness_ctrl : linkActive pairRun 0 = true ∧ (ctrl false 0).ok = false ∧
    ({ ctrl true 0 with reservedZero := false } : CtrlFlit).ok = true ∧ ({ ctrl true 0 with reservedZero := false } : CtrlFlit).reservedZero = false ∧
    ∀ n ∈ [0, 1], (ctrl true n).ok = true ∧ (ctrl true n).reservedZero = true ∧ (ctrl true n).nak = false ∧ (ctrl true n).notice < 2 := by
  decide +kernel

theorem witness_replayTimeout :
    let s := linkRun { st := .active, replay := [⟨0, 0, msg 1 0 0 [1]⟩] }
    linkActive s 0 = true ∧ (port s 0).replay ≠ [] := by decide +kernel

theorem witness_startsTraining : linkActive pairRun 0 = true ∧ (port pairRun 0).lanes.getLsbD 7 = true ∧
    (port pairRun 0).everActive = true ∧ pairRun.heldRegs = [] ∧
    let s := linkRun { st := .training, everActive := true }
    serdesOn s = true ∧ (port s 0).st = .training := by decide +kernel

theorem witness_trainingDone : ∀ lanes ∈ [(0xFF, 3, 0xFF), (0x0F, 2, 0x0F), (0x01, 0, 0x01)],
    let s := linkRun { st := .training }
    serdesOn s = true ∧ (port s 0).st = .training ∧ regBit s (portReg 0 0) 0 = true ∧
    chooseWidth lanes.1 (regField s (portReg 0 0) 1 2) = some (lanes.2.1, lanes.2.2) := by decide +kernel

theorem witness_crcError : linkActive pairRun 0 = true ∧ (port pairRun 0).nakSent = false ∧
    (let s := linkRun { st := .active, nakSent := true }
     linkActive s 0 = true ∧ (port s 0).nakSent = true) ∧
    (FlitError.crc ∈ [.crc, .fec, .unexpectedSeq, .seqWindow] ∧ FlitError.type3 ∉ [.crc, .fec, .unexpectedSeq, .seqWindow]) := by decide +kernel

theorem witness_frameBoundary : ∀ n ∈ [0, 3],
    (regBit (frameBoundary run n) (portReg n 0) 0 = true ∧ (port run n).st = .down ∧ serdesOn run = true ∧ run.power.phase ≠ .starting) ∧
    (let s := { run with ports := [(n, { st := .active })] }
     regBit (frameBoundary s n) (portReg n 0) 0 = true ∧ (port s n).st ≠ .down) ∧
    (let s := { run with heldRegs := [(portReg n 0, 0)] }
     regBit (frameBoundary s n) (portReg n 0) 0 = false) := by decide +kernel

theorem witness_write : ∀ a ∈ [0, hbmEnd - 0x10000003],
    let m := msg 1 0 a [1, 2, 3]
    Arrives pairRun 1 m ∧ m.destMember = pairRun.join.self ∧ inMap m.addr m.data.length = true ∧
    writeProtected pairRun m.addr m.data.length = false := by unfold Arrives; decide +kernel

theorem witness_writeRefused : ∀ a ∈ [hbmEnd - 2, spillBase],
    let m := msg 1 0 a [1, 2, 3]
    Arrives pairRun 1 m ∧ m.destMember = pairRun.join.self ∧
    (inMap m.addr m.data.length = false ∨ writeProtected pairRun m.addr m.data.length = true) := by unfold Arrives; decide +kernel

/-- A WRITE from member 1 of four to member 3 goes on by port 2. -/
theorem witness_writeForwarded :
    let m := { msg 1 0 64 [1, 2, 3] with destMember := 3 }
    Arrives (quadRun []) 1 m ∧ m.destMember ≠ (quadRun []).join.self ∧ routesTo (quadRun []) m.destMember = [2] ∧
    m.destMember ∉ (quadRun []).join.lost := by unfold Arrives; decide +kernel

/-- A MOVE over Leash with its last message outstanding. -/
def lastPiece (kind : Nat) : Move := ⟨reqAt 9, kind, 1, 0, 64, 4099, [], 4096, false, [(5, 4096, 3)]⟩

theorem witness_writeAck : ∀ bad ∈ [0, 4],
    let m := msg 2 2 0 [bad]
    let s := { pairRun with moves := [lastPiece 3] }
    Arrives s 2 m ∧ m.destMember = s.join.self ∧ u8 m.data 0 = bad.toNat ∧ moveOf s m.tag false = some (lastPiece 3, 4096, 3) ∧
    (lastPiece 3).tags = [(m.tag, 4096, 3)] ∧ (lastPiece 3).bad = false := by unfold Arrives; decide +kernel

theorem witness_readReq : Arrives pairRun 3 (msg 3 1 0 []) := by unfold Arrives; decide +kernel

theorem witness_readData :
    let m := msg 4 1 0 [1, 2, 3]
    let s := { pairRun with moves := [lastPiece 5] }
    Arrives s 4 m ∧ moveOf s m.tag true = some (lastPiece 5, 4096, 3) ∧ (lastPiece 5).tags = [(m.tag, 4096, 3)] ∧
    (lastPiece 5).bad = false ∧ m.data.length = 3 := by unfold Arrives; decide +kernel

theorem witness_valaz :
    (let m := msg 5 2 0 [1] 0x80
     Arrives pairRun 5 m ∧ joinSegment (port pairRun 0).partial? m = .whole [1]) ∧
    (let m := msg 5 2 0 (zeros 4096)
     Arrives pairRun 5 m ∧ (match joinSegment (port pairRun 0).partial? m with | .more v => v.2.1 == 1 | _ => false) = true) ∧
    (let m := msg 5 2 0 [1] 0x81
     Arrives pairRun 5 m ∧ joinSegment (port pairRun 0).partial? m = .broken) := by unfold Arrives; decide +kernel

/-! ### The front end -/

/-- A packet of session 0: opcode, SEQ, FLAGS, payload, with its tag. -/
def packet (op seq flags : Nat) (p : List Byte) : List Byte :=
  let d := [1, 0, 0, BitVec.ofNat 8 op] ++ leBytes 4 seq ++ leBytes 2 p.length ++ leBytes 2 flags ++ zeros 4 ++ p
  d ++ hmac384 (zeros 48) d

/-- A raw frame to port 0. -/
def frame (data : List Byte) : Frame := ⟨0, true, macOf run 0, [2, 0, 0, 0, 0, 1], 0, 0, [], 84, .raw 0x88B5 data, false⟩

theorem witness_frame : FrameFits run (frame (packet 1 0 1 [7])) (packet 1 0 1 [7]) ∧ PacketFits run (packet 1 0 1 [7]) 0 1 0 false ∧
    (session run 0).nextSeq = 0 ∧ (session run 0).reorder = [] ∧ run.faults.fatal = none ∧ assigned 1 = true ∧
    (session run 0).queue.length < 1024 ∧ queuedService (session run 0).queue + serviceOf 1 ≤ budget run := by
  unfold FrameFits PacketFits; decide +kernel

/-- A reply of SEQ 4 is cached, and SEQ 5 is next. -/
def cachedRun : State :=
  { run with sessions := [(0, { isOpen := true, kH := zeros 48, kM := zeros 48, nextSeq := 5, cache := [{ (default : Reply) with seq := 4 }] })] }

theorem witness_resend : FrameFits cachedRun (frame (packet 1 4 3 [])) (packet 1 4 3 []) ∧
    PacketFits cachedRun (packet 1 4 3 []) 0 1 4 true ∧ -1024 ≤ ((4 : Word) - (session cachedRun 0).nextSeq).toInt ∧
    ((4 : Word) - (session cachedRun 0).nextSeq).toInt ≤ -1 ∧ (4 : Word) ∉ (session cachedRun 0).lost ∧
    (session cachedRun 0).cache.find? (fun x => x.seq == 4) = some { (default : Reply) with seq := 4 } ∧
    regBit cachedRun 0x6050 5 = false := by unfold FrameFits PacketFits; decide +kernel

theorem witness_reorderWait :
    let p : Packet := ⟨some 0, 1, 1, [], (reqAt 1).src, modesNow run⟩
    let s := { run with sessions := [(0, { (session run 0) with reorder := [p] })] }
    (session s 0).isOpen = true ∧ (session s 0).reorder = [p] ∧ p.seq = (session s 0).nextSeq + 1 ∧ s.faults.fatal = none ∧
    assigned p.opcode = true ∧ s.power.st = .run ∧ s.power.entering = none ∧ (session s 0).queue.length < 1024 ∧
    queuedService (session s 0).queue + serviceOf p.opcode ≤ budget s := by decide +kernel

theorem witness_whistleFrame :
    let f := { frame [1, 2, 0xFF] with dest := broadcast }
    isWhistle f = true ∧ frontEndOn run = true ∧ (ethPort run f.port).link = true ∧ f.fcsOk = true ∧ frameOk run f = true ∧
    policed run f = some run ∧ f.rTags = [] ∧ frameWakes run f = false := by decide +kernel

theorem witness_address :
    let s := { run with regs := [(0x6030, 0x0100000A), (0x6040, 0x000080FE)] }
    frontEndOn s = true ∧ (ethPort s 0).link = true ∧ allZero (ip4Of s) = false ∧ allZero (ip6Of s) = false ∧
    regBit s 0x6050 7 = true := by decide +kernel

theorem witness_links : frontEndOn run = true ∧ regBit run 0x6000 0 = true ∧ regBit run 0x6010 0 = true ∧ run.unsent = [] ∧
    ({ run with heldRegs := [(0x6059, 3)] } : State).heldRegs = [(0x6055 + 4 * 1, 3)] := by decide +kernel

/-! ### Security and sideband -/

/-- 392 zero bytes: a token with an empty LMS signature. -/
def tokenRun : State := { run with hbm := cellsAt 0 (zeros 512) }

theorem witness_token : (readToken tokenRun 0).1 = some (zeros 392) ∧ RegionOk tokenRun 0 392 64 false ∧
    (readHbm (readToken tokenRun 0).2 448 4).1 = some (zeros 4) ∧ RegionOk tokenRun 448 4 64 false ∧
    (∀ op ∈ [0xE0, 0xE1, 0xE2, 0xE3], Ready tokenRun (reqAt 1) op none none) := by unfold Ready RegionOk; decide +kernel

theorem witness_privileged : (zeros 24).length = 24 ∧ u64 (zeros 24) 16 ≤ maxImage ∧
    (∀ b ∈ [0, 1], let p := zeros 8 ++ leBytes 8 b
      p.length = 16 ∧ allZero (slice p 9 7) = true ∧ u8 p 8 ≤ 1 ∧ (u8 p 8 = 1 → workInProgress tokenRun = false)) ∧
    (∀ f ∈ [(1, 96), (4, 96), (0x10, 96), (0x11, 4), (0x20, 4)], fieldLength f.1 = some f.2 ∧
      fieldValueOk f.1 (leBytes 4 1 ++ zeros (f.2 - 4)) = true) ∧
    tokenRun.faults.otpPending = none ∧ gensUsed tokenRun.sec.otp < 4 ∧ tokenRun.sec.otp.debugDisable = false ∧
    tokenRun.sec.otp.debugUnlocks < 32 ∧ (let p := zeros 8 ++ leBytes 8 15
      p.length = 16 ∧ allZero (slice p 12 4) = true ∧ u32 p 8 ≤ 15) ∧
    Ready entRun (reqAt 1) 0xE4 none none ∧ (zeros 52).length = 52 ∧ allZero (slice (zeros 52) 48 4) = true ∧ entRun.ent.st ≠ .failed := by
  unfold Ready; decide +kernel

/-- The sideband target as an I3C target. -/
def i3cRun : State := { run with side := { dynamic := some 0x50, ibi := true } }

theorem witness_sideband : targetOn run = true ∧ (leBytes 4 0x28).length = 4 ∧ Reaches run 8 (u32 (leBytes 4 0x28) 0) ∧
    plainRead (u32 (leBytes 4 0x28) 0) = true ∧ targetOn i3cRun = true ∧ i3cRun.side.dynamic.isSome = true ∧
    run.side.dynamic = none := by unfold Reaches; decide +kernel

theorem witness_sidebandWrite : ∃ i, regInfo 0x110 = some i ∧ Reaches run 8 0x110 ∧ plainWrite 0x110 = true ∧ i.guarded = false ∧
    i.masked = false ∧ i.bound = .now ∧ i.w1c = 0 ∧ (leBytes 4 0x110 ++ zeros 4).length = 8 ∧ u32 (leBytes 4 0x110 ++ zeros 4) 0 = 0x110 :=
  ⟨(regInfo 0x110).get (by decide +kernel), by unfold Reaches; decide +kernel⟩

theorem witness_sidebandInd : (∃ w u, indRead (loadInd run 8 0 true) (path (loadInd run 8 0 true) 8).indAddr = .ok (w, u)) ∧
    indGuarded (path (loadInd run 8 0 true) 8).indAddr = false ∧
    ∃ w u, indWrite (loadInd run 8 0 true) (path (loadInd run 8 0 true) 8).indAddr 5 = .ok (w, u) :=
  ⟨⟨_, _, rfl⟩, by decide +kernel, ⟨_, _, rfl⟩⟩

theorem witness_alertResponse :
    let s := { run with faults := { fatal := some (1, 2) } }
    targetOn s = true ∧ s.side.dynamic = none ∧ alertN s = true := by decide +kernel

theorem witness_tap : ∀ b : Bool, ({ run with power := { phase := .running, rstN := b } } : State).power.phase ≠ .off ∧
    ({ run with power := { phase := .running, rstN := b } } : State).power.rstN = b := by decide +kernel

/-! ### Ill-formed commands: one for each check of Sys2Proof/WellFormed.lean, and a well-formed neighbour -/

theorem test_wf_session : Instr.wf (.ping { reqAt 1 with session := some 15 } []) = true ∧
    Instr.wf (.ping { reqAt 1 with session := some 16 } []) = false := by decide +kernel

theorem test_wf_payload : Instr.wf (.move (reqAt 1) (zeros 8192)) = true ∧ Instr.wf (.move (reqAt 1) (zeros 8193)) = false := by
  decide +kernel

theorem test_wf_source : Source.wf ⟨.raw, 2, zeros 6, 0, 0, none, []⟩ = false ∧ Source.wf ⟨.raw, 0, zeros 5, 0, 0, none, []⟩ = false ∧
    Source.wf ⟨.udp4, 1, zeros 6, 0, 0, none, zeros 6⟩ = false ∧ Source.wf ⟨.udp6, 1, zeros 4, 0, 0, none, zeros 6⟩ = false ∧
    Source.wf ⟨.udp4, 1, zeros 4, 65536, 0, none, zeros 6⟩ = false ∧ Source.wf ⟨.leash, 4, [], 0, 0, none, []⟩ = false ∧
    Source.wf ⟨.leash, 3, [0], 0, 0, none, []⟩ = false ∧ Source.wf ⟨.leash, 3, [], 0, 2 ^ 32, none, []⟩ = false ∧
    Source.wf ⟨.leash, 3, [], 0, 5, none, []⟩ = true := by decide +kernel

/-- A raw frame that the checks accept. -/
def goodFrame : Frame := ⟨0, true, zeros 6, zeros 6, 0, 0, [], 64, .raw 0x88B5 [], false⟩

theorem test_wf_frame : Instr.wf (.frameReceived goodFrame) = true ∧
    Instr.wf (.frameReceived { goodFrame with port := 2 }) = false ∧ Instr.wf (.frameReceived { goodFrame with dest := zeros 5 }) = false ∧
    Instr.wf (.frameReceived { goodFrame with src := zeros 7 }) = false ∧ Instr.wf (.frameReceived { goodFrame with vid := 4096 }) = false ∧
    Instr.wf (.frameReceived { goodFrame with rTags := [65536] }) = false ∧
    Instr.wf (.ethernetWhistleFrame { goodFrame with body := .raw 65536 [] }) = false ∧
    Instr.wf (.frameReceived { goodFrame with body := .udp true false false true false (zeros 4) (zeros 4) 1 1 8 [] }) = false ∧
    Instr.wf (.frameReceived { goodFrame with body := .udp false false false true false (zeros 4) (zeros 4) 1 65536 8 [] }) = false ∧
    Instr.wf (.frameReceived { goodFrame with body := .udp false false false true false (zeros 4) (zeros 4) 1 1 8 [] }) = true := by
  decide +kernel

/-- A Leash message that the checks accept. -/
def goodMsg : LeashMsg := ⟨3, 4095, 1, 1, 0, 8, 1, 2, 0, 64, zeros 8, 0⟩

theorem test_wf_leash : Instr.wf (.write goodMsg) = true ∧ Instr.wf (.write { goodMsg with port := 4 }) = false ∧
    Instr.wf (.writeAck { goodMsg with seq := 4096 }) = false ∧ Instr.wf (.readReq { goodMsg with vl := 4 }) = false ∧
    Instr.wf (.readData { goodMsg with segment := 256 }) = false ∧ Instr.wf (.valaz { goodMsg with length := 65536 }) = false ∧
    Instr.wf (.lost { goodMsg with srcMember := 2 ^ 32 }) = false ∧ Instr.wf (.time { goodMsg with addr := 2 ^ 64 }) = false ∧
    Instr.wf (.selftest { goodMsg with data := zeros 9 }) = false := by decide +kernel

theorem test_wf_flits : Instr.wf (.leashCtrlFlit 0 ⟨true, true, 4095, false, 0, [0, 0, 0, 0], 0, true⟩) = true ∧
    Instr.wf (.leashCtrlFlit 0 ⟨true, true, 4096, false, 0, [0, 0, 0, 0], 0, true⟩) = false ∧
    Instr.wf (.leashCtrlFlit 0 ⟨true, true, 0, false, 0, [0, 0, 0], 0, true⟩) = false ∧
    Instr.wf (.flitCrcError 0 0 4 .crc) = false ∧
    Instr.wf (.leashTrainingDone 0 0xFF (some ⟨0, 0, 0, 4⟩) []) = false := by decide +kernel

theorem test_wf_units : Instr.wf (.memWriteBack (.hbm 8) 0) = false ∧ Instr.wf (.memWriteBack (.spad 18) 0) = false ∧
    Instr.wf (.memWriteBack (.other 19 0) 0) = false ∧ Instr.wf (.memWriteBack (.hbm 7) 4) = false ∧
    Instr.wf (.memWriteBack (.hbm 7) 8) = true ∧ Instr.wf (.groomerRead (.spad 17) [⟨4, .correctable, false⟩]) = false ∧
    Instr.wf (.groomerRead (.spad 17) [⟨8, .correctable, true⟩]) = true := by decide +kernel

theorem test_wf_detections : Instr.wf (.faultRetry (.generator 18)) = false ∧ Instr.wf (.faultRetry (.colour 0 3 0 false)) = false ∧
    Instr.wf (.faultRetry (.meshCrc 49 0 1 none)) = false ∧ Instr.wf (.faultRetry (.meshCrc 48 1 1 none)) = true ∧
    Instr.wf (.faultRetry (.energyCheck 0 0 64)) = false := by decide +kernel

theorem test_wf_bounds : Instr.wf (.flipWalk 16 0) = false ∧ Instr.wf (.remoteCommitArrival 3 3 0) = false ∧
    Instr.wf (.sampleBatch 0 0 []) = false ∧ Instr.wf (.sweepBoundary (2 ^ 18)) = false ∧ Instr.wf (.seating 4096 0) = false ∧
    Instr.wf (.muzzle 9 0) = false ∧ Instr.wf (.thermtrip 24 0) = false ∧ Instr.wf (.fatalError 65536 0) = false ∧
    Instr.wf (.startDone [18]) = false ∧ Instr.wf (.telemetry (zeros 9) true) = false := by decide +kernel

/-! ### Worked examples of the spec -/

/-- A named state with values written over it. -/
def after (s : State) (cs : List Instr) : State :=
  cs.foldl (fun s c => match exec c s with
    | .next t => t
    | _ => s) s

/-- 17 R514, worked example: on path 2 MUZZLE takes the key, the write of 0x100C is accepted and ends the arm, and the write of
0x1014 fails: ERR_ADDR of the path's error is that write. -/
theorem test_guard_example :
    let s := { run with sessions := [(2, { isOpen := true, kH := zeros 48, kM := zeros 48 })] }
    let t := after s [.muzzle 2 0x2B0ED06F, .registerWrite 2 0x100C 0x322 0, .registerWrite 2 0x1014 0 0]
    (path t 2).armed = false ∧ (path (after s [.muzzle 2 0x2B0ED06F]) 2).armed = true ∧ regVal t 0x2C = 0x14001014 := by decide +kernel

/-- 17 R509, worked example: reading the low word of a counter at 0x1_FFFFFFFF latches the high word, which a later read
returns. -/
theorem test_shadow_example :
    let s := setReg (setReg run 0x110 0xFFFFFFFF) 0x114 1
    let t := after s [.loWordRead 8 0x110]
    ((path t 8).shadows = [(0x114, 1)]) ∧
    (match (readReg (setReg t 0x114 2) 8 0x114).1 with | .ok (v, _) => v | .error _ => 0) = 1 := by decide +kernel

/-- 02 R71, worked example: three weights as 4-bit codes with scale 124, and as 8-bit codes with scale 120. -/
theorem test_coupling_codes :
    let ws := [0x3F547AE1, 0xBE9EB852, 0x3D4CCCCD].map (fun n => fpVal (BitVec.ofNat 32 n))
    codeAll 7 ws = [⟨7, 124⟩, ⟨-2, 124⟩, ⟨0, 124⟩] ∧ codeAll 127 ws = [⟨106, 120⟩, ⟨-40, 120⟩, ⟨6, 120⟩] := by decide +kernel

/-- 11, worked example: two energies in FP64. -/
theorem test_energy_fp64 : energyFp64 (-(689 * 2 ^ 132)) = 0xC045880000000000 ∧ energyFp64 (-(89 * 2 ^ 135)) = 0xC046400000000000 := by
  decide +kernel

/-- 06 R199: a column in a tile of 128 columns takes runs of 64 partial products. -/
theorem test_run_length : runLength 128 = 64 := by decide +kernel

/-- 12 R376: from member 2 to member 5 of a CUBE8 the lowest differing bit comes first. -/
theorem test_cube_route : lowestDiff 2 5 = some 0 := by decide +kernel

/-- 18 R537: an SMBus target with JOIN_ID 3 answers the alert response address with 0xA6. -/
theorem test_alert_response :
    let s := { run with power := { run.power with joinId := 3 }, faults := { fatal := some (1, 2) } }
    (after s [.alertResponse]).side.reply = [0xA6] := by decide +kernel

/-- 00 R14, worked example: 0x00050001 written to a masked register that holds 6 leaves 3. -/
theorem test_masked_example :
    regVal (after (setReg run 0x28 6) [.registerWrite 8 0x28 0x00050001 0, .commandBoundary]) 0x28 = 3 := by decide +kernel

/-- 13 R426, worked example: a sealed read at 0x0A_0000_0000 leaves 0x0000_200A in MEM_LAST_HI. -/
theorem test_sealed_example : regVal (readHbm run 0x0A00000000 8).2 0x4800C = 0x200A := by decide +kernel

/-- 18 R538, worked example: TEMP_STATUS with sensors at 87, 85, 76 and 45 degrees. -/
theorem test_temp_status :
    let at_ := fun (n t : Nat) => (n, ({ temp := 16 * (t : Int), valid := true } : Sensor))
    let s := { run with power := { run.power with sensors := [at_ 0 87, at_ 12 85, at_ 24 76, at_ 32 45] } }
    viewReg s false 0x1018 = some 0x2D4C5557 := by decide +kernel

/-- 14, worked example: with reserves 7 and 12, fences of the physical cores 4, 15 and 9. -/
theorem test_fence_example :
    let m0 := (List.range 18).map (fun p => if p = 7 ∨ p = 12 then (0xFE : Byte)
      else BitVec.ofNat 8 (((List.range p).filter (fun q => q != 7 && q != 12)).length))
    let m := [4, 15, 9].foldl (fun m p => (fencePlan m p).1) m0
    physOfMap m 4 = some 7 ∧ physOfMap m 8 = some 17 ∧ physOfMap m 13 = some 12 ∧ physOfMap m 15 = none ∧ activeOf m = 15 := by
  decide +kernel

/-- 04, worked example: BETA0 0.5 and RATIO 1.25 give 0.5, then 0.625. -/
theorem test_geometric_example :
    let p := zeros 8 ++ leBytes 4 0x3F000000 ++ leBytes 4 0x3FA00000
    pBeta0 p = 0x3F000000 ∧ fpMul (pBeta0 p) 0x3FA00000 = 0x3F200000 := by decide +kernel

/-- 08, worked example: USED of 20,736 bytes is class 3. -/
theorem test_size_class : classOf 20736 = (3, 0) ∧ 256 + 768 + 64 + roundUp 12292 64 + 832 + 768 + 512 + 5184 = 20736 := by decide +kernel

end Sys2Proof.Tests
end

section
/-!
PROOFS. Register writes (17 R504 to R517): what a write on a path does at once, what it holds for the command boundary, and what
that boundary applies.
-/

namespace Sys2Proof.Machine

/-! ### Bits and status registers -/

/-- Bit `b` of a number is 1 exactly when `Nat.testBit` says so. -/
theorem bitOf_beq_one (v b : Nat) : (bitOf v b == 1) = v.testBit b := by
  rw [Nat.testBit_eq_decide_div_mod_eq]; rfl

/-- A bit of a status register that hardware sets reads as 1. -/
theorem regBit_orReg_same (s : State) (m : Nat) {b : Nat} (hb : b < 32) : regBit (orReg s m (2 ^ b)) m b = true := by
  rw [regBit, bitOf_beq_one, orReg, regVal_setReg_same, Nat.testBit_mod_two_pow]
  simp [hb]

theorem regVal_orReg_other (s : State) {m c : Nat} (bits : Nat) (h : c ≠ m) : regVal (orReg s m bits) c = regVal s c :=
  regVal_setReg_other s _ h

/-! ### The register map -/

/-- Every register lies at a word address (17 R501). -/
theorem regInfo_aligned {a : Nat} {i : RegInfo} (h : regInfo a = some i) : a % 4 = 0 := by
  by_contra ha; simp [regInfo, ha] at h

/-- LK_CTRL waits for the end of a frame, so a register that waits for the command boundary is none (12 R400). -/
theorem isLkCtrl_of_command {a : Nat} {i : RegInfo} (h : regInfo a = some i) (hc : i.bound = .command) : isLkCtrl a = false := by
  by_contra hl
  simp only [isLkCtrl, Bool.not_eq_false, Bool.and_eq_true, decide_eq_true_eq, beq_iff_eq] at hl
  obtain ⟨⟨hlo, hhi⟩, ho⟩ := hl
  have hoff : (a - 0x8000) % 0x400 = 0 := by omega
  have : regInfo a = rwReg 0x310F 0xFF0F .frame := by
    unfold regInfo
    rw [if_neg (by omega), if_neg (by omega), if_neg (by omega), if_neg (by omega), if_neg (by omega), if_neg (by omega),
      if_neg (by omega), if_neg (by omega), if_pos hhi, hoff]
    rfl
  rw [this] at h
  cases h
  cases hc

/-- The two registers whose boundary turns the clocks are guarded (15 R478). -/
theorem not_clockReg_of_unguarded {a : Nat} {i : RegInfo} (h : regInfo a = some i) (hg : i.guarded = false) :
    a ≠ 0x100C ∧ a ≠ 0x1014 := by
  constructor <;>
  · rintro rfl
    cases h
    cases hg

/-! ### A write on a path -/

theorem exec_registerWrite (s : State) (p a : Nat) (v hw : Word) :
    exec (.registerWrite p a v hw) s = .next (accessWrite s p a v hw) := rfl

theorem exec_commandBoundary (s : State) : exec .commandBoundary s = .next (commandBoundary s) := rfl

section
variable {s : State} {p a : Nat} {i : RegInfo} (v hw : Word)

/-- A write that reaches an unguarded register without an effect of its own comes down to the register's boundary. -/
theorem accessWrite_plain (hr : Reaches s p a) (hi : regInfo a = some i) (hp : plainWrite a = true) (hg : i.guarded = false) :
    accessWrite s p a v hw =
      if i.bound = .now ∨ i.rw = 0 then writeNow s a i v.toNat hw.toNat
      else if i.bound = .sweep ∧ spinStatus s ((a - 0x10000) / 0x1000) % 2 = 0 then writeNow (heldFree s a) a i v.toNat hw.toNat
      else holdReg s a v.toNat := by
  obtain ⟨hopen, -, hpower⟩ := hr
  have hon : ¬ (p = 8 ∧ deepSleep s = true ∧ switchedReg a = true) := by
    rintro ⟨h8, hsleep, hsw⟩
    exact absurd (hpower h8 hsleep) (by simp [hsw])
  simp only [plainWrite, Bool.and_eq_true, bne_iff_ne, ne_eq] at hp
  obtain ⟨⟨⟨⟨⟨hmuzzle, hrecover⟩, hkept⟩, hindAddr⟩, hindData⟩, hindCtrl⟩ := hp
  rw [accessWrite, if_pos hopen]
  simp only [writeReg, hi, hon, hindData, hindAddr, hindCtrl, hmuzzle, hrecover, hkept, hg, if_false, Bool.false_and,
    Bool.false_eq_true]
  split
  · rfl
  · split <;> rfl

theorem accessWrite_now (hr : Reaches s p a) (hi : regInfo a = some i) (hp : plainWrite a = true) (hg : i.guarded = false)
    (hb : i.bound = .now) : accessWrite s p a v hw = writeNow s a i v.toNat hw.toNat := by
  rw [accessWrite_plain v hw hr hi hp hg, if_pos (.inl hb)]

theorem accessWrite_command (hr : Reaches s p a) (hi : regInfo a = some i) (hp : plainWrite a = true) (hg : i.guarded = false)
    (hb : i.bound = .command) (hrw : i.rw ≠ 0) : accessWrite s p a v hw = holdReg s a v.toNat := by
  rw [accessWrite_plain v hw hr hi hp hg, if_neg (by simp [hb, hrw]), if_neg (by simp [hb])]

end

/-! ### A write at once -/

/-- What a register without access code M holds after a write at once: written RW bits, W1C bits cleared by a 1 unless hardware
sets them in that cycle, every other bit as it was (17 R505, R508, R517). -/
def writtenValue (i : RegInfo) (old v hw : Nat) : Nat :=
  (old &&& (0xFFFFFFFF ^^^ (i.rw ||| i.w1c))) ||| (v &&& i.rw) ||| (old &&& i.w1c &&& (0xFFFFFFFF ^^^ v)) ||| (hw &&& i.w1c)

section
variable (s : State) (a : Nat) {i : RegInfo} (v hw : Nat)

theorem writeNow_masked (hm : i.masked = true) : writeNow s a i v hw = setReg s a (maskedValue (regVal s a) v) := by
  simp [writeNow, hm]

theorem writeNow_plain (hm : i.masked = false) (hc : i.miss = none) :
    writeNow s a i v hw = setReg s a (writtenValue i (regVal s a) v hw) := by
  simp [writeNow, hm, hc, writtenValue]

/-- A write of a counter in a cycle in which it counts sets its miss flag (17 R517). -/
theorem writeNow_counter {m b : Nat} (hm : i.masked = false) (hc : i.miss = some (m, b)) (hw0 : hw ≠ 0) :
    writeNow s a i v hw = orReg (setReg s a (writtenValue i (regVal s a) v hw)) m (2 ^ b) := by
  simp [writeNow, hm, hc, hw0, writtenValue]

end

/-! ### A write that waits for the command boundary -/

/-- With nothing pending, a held write of a register that is no LK_CTRL is the one pending value. -/
theorem holdReg_alone {s : State} {a : Nat} (v : Word) (hs : s.heldRegs = []) (hl : isLkCtrl a = false) :
    holdReg s a v.toNat = { s with heldRegs := [(a, v)] } := by
  simp [holdReg, heldFree, hs, hl, put]

/-- At the command boundary the one pending value takes effect on its RW bits, and nothing is pending any more. -/
theorem commandBoundary_alone {s : State} {a : Nat} {i : RegInfo} {v : Word} (hs : s.heldRegs = [(a, v)])
    (hi : regInfo a = some i) (hb : i.bound = .command) (hclk : a ≠ 0x100C ∧ a ≠ 0x1014) :
    commandBoundary s = applyBits { s with heldRegs := [] } a v.toNat i.rw := by
  have ha := regInfo_aligned hi
  have hdue : waitsFor .command a = true := by simp [waitsFor, ha, hi, hb]
  have hword : a / 4 * 4 = a := by omega
  have happly : applyHeld s (waitsFor .command) (fun k => ((regInfo k).map (·.rw)).getD 0) =
      applyBits { s with heldRegs := [] } a v.toNat i.rw := by
    simp [applyHeld, each, hs, hdue, hword, hi]
  have hnone : (applyBits { s with heldRegs := [] } a v.toNat i.rw).heldRegs = [] := by simp [applyBits]
  simp [commandBoundary, happly, hnone, each, hs, lookup, hclk]

end Sys2Proof.Machine

open Sys2Proof Sys2Proof.Machine

/-- Settles O12: an access comes down to a write at once or a held one (`accessWrite_now`, `accessWrite_command`), and each of
these to one `setReg`, with the miss flag beside it for a counter. -/
theorem writesTakeEffectAtTheirBoundary : Obligations.WritesTakeEffectAtTheirBoundary := by
  refine ⟨?now, ?counter, ?masked, ?held⟩
  case now =>
    intro s p a i v hw hr hi hp hg hm hb hc
    refine ⟨_, exec_registerWrite .., ?_⟩
    rw [accessWrite_now v hw hr hi hp hg hb, writeNow_plain s a _ _ hm hc]
    refine ⟨regVal_setReg_same .., fun b h => regVal_setReg_other s _ h, ?_⟩
    obtain ⟨x, hx⟩ := setReg_only s a (writtenValue i (regVal s a) v.toNat hw.toNat)
    rw [hx]
  case counter =>
    intro s p a m b i v hw hr hi hp hg hm hb hc hma hb32 hw0
    refine ⟨_, exec_registerWrite .., ?_⟩
    rw [accessWrite_now v hw hr hi hp hg hb, writeNow_counter s a _ _ hm hc hw0]
    refine ⟨regBit_orReg_same _ _ hb32, ?_, fun c hca hcm => ?_⟩
    · rw [regVal_orReg_other _ _ hma.symm]
      exact regVal_setReg_same ..
    · rw [regVal_orReg_other _ _ hcm, regVal_setReg_other _ _ hca]
  case masked =>
    intro s p a i v hw hr hi hp hg hm hb
    refine ⟨_, exec_registerWrite .., ?_⟩
    rw [accessWrite_now v hw hr hi hp hg hb, writeNow_masked s a _ _ hm]
    exact ⟨fun b h => regVal_setReg_other s _ h, regVal_setReg_same ..⟩
  case held =>
    intro s p a i v hw hr hi hp hg hb hrw hs
    have hhold : accessWrite s p a v hw = { s with heldRegs := [(a, v)] } := by
      rw [accessWrite_command v hw hr hi hp hg hb hrw, holdReg_alone v hs (isLkCtrl_of_command hi hb)]
    have happly : commandBoundary { s with heldRegs := [(a, v)] } = applyBits s a v.toNat i.rw := by
      rw [commandBoundary_alone rfl hi hb (not_clockReg_of_unguarded hi hg), ← hs]
    refine ⟨_, _, exec_registerWrite .., ?_, ?_, exec_commandBoundary _, ?_⟩ <;> rw [hhold]
    · exact fun _ => rfl
    · rw [happly]
      exact ⟨by simp [applyBits, hs], regVal_setReg_same .., fun b h => regVal_setReg_other s _ h⟩
end

section
/-!
PROOFS. Commits of a sweep (03 R99, R100, 01 R36): what a micro-step of a share reads, and what the sweep that it puts back shows.
-/

namespace Sys2Proof.Machine

/-- What every step of a run of steps keeps, the run keeps. -/
theorem each_keeps {α σ β : Type} (v : σ → β) {f : σ → α → σ} (h : ∀ s a, v (f s a) = v s) (l : List α) (s : σ) :
    v (each l s f) = v s := by
  induction l generalizing s with
  | nil => rfl
  | cons a l ih => exact (ih (f s a)).trans (h s a)

/-! ### A micro-step of a share -/

/-- A sweep that a micro-step can belong to is that of a seated context. -/
theorem seat_of_sweepOf {s : State} {i : Nat} {c : Ctx} {seat : Seat} {w : Sweep} (h : sweepOf s i c = some (seat, w)) :
    c.seat = some seat := by
  unfold sweepOf at h
  split at h
  case h_1 seat' _ hseat _ =>
    have hsame : seat' = seat := by grind
    rw [hseat, hsame]
  case h_2 => cases h

/-- A micro-step of a share that the core works on is the step's own function of the context, its seat, sweep and share. -/
theorem shareStep_at {s : State} {core i : Nat} {c : Ctx} {seat : Seat} {w : Sweep} {h : Share} (hs : ShareAt s core i c seat w h)
    (f : Ctx → Model → Seat → Sweep → Share → State) : shareStep s core i f = .next (f c (ctxModel s c) seat w h) := by
  obtain ⟨hctx, hsweep, hshare⟩ := hs
  simp [shareStep, sweepStep, hctx, hsweep, hshare]

/-! ### The sweep put back -/

@[simp] theorem seamEvent_ctxs (s : State) : (seamEvent s).ctxs = s.ctxs := by
  unfold seamEvent workEvent
  split
  · exact orReg_ctxs ..
  · rfl

theorem lookup_putSweep (s : State) (i : Nat) (seat : Seat) (w : Sweep) :
    lookup (putSweep s i seat w).ctxs i = (lookup s.ctxs i).map (fun c => { c with seat := some { seat with sweep := some w } }) := by
  have hctxs : (putSweep s i seat w).ctxs =
      adjust s.ctxs i (fun c => { c with seat := some { seat with sweep := some w } }) := by
    unfold putSweep
    dsimp only
    split
    · exact seamEvent_ctxs _
    · rfl
  rw [hctxs, lookup_adjust_same]

section
variable {s t : State} {core i : Nat} {c : Ctx} {seat : Seat} {w : Sweep} {h : Share}

/-- The sweep put back is the sweep in progress. -/
theorem sweepNow_putSweep (hs : ShareAt s core i c seat w h) (ht : t.ctxs = s.ctxs) (w' : Sweep) :
    sweepNow (putSweep t i seat w') i = some w' := by
  simp [sweepNow, lookup_putSweep, ht, hs.1]

/-- Readers outside the seat still see the last boundary (04 R128). -/
theorem contentOf_putSweep (hs : ShareAt s core i c seat w h) (ht : t.ctxs = s.ctxs) (w' : Sweep) :
    contentOf (putSweep t i seat w') i = contentOf s i := by
  simp [contentOf, lookup_putSweep, ht, hs.1, ctxNow, seat_of_sweepOf hs.2.1]

/-- A share put back in place of a core's share, with its core and block, is the core's share. -/
theorem find_setShare (hh : w.shares.find? (fun x => x.core == core) = some h) {w₀ : Sweep} (h₀ : w₀.shares = w.shares)
    {h' : Share} (hb : h'.block = h.block) (hc : h'.core = h.core) :
    (setShare w₀ h').shares.find? (fun x => x.core == core) = some h' := by
  have hcore : (h.core == core) = true := List.find?_some (p := fun x : Share => x.core == core) hh
  unfold setShare
  rw [h₀]
  generalize w.shares = l at hh
  induction l with
  | nil => cases hh
  | cons x l ih =>
    rw [List.find?_cons] at hh
    by_cases hx : x.block = h'.block
    · simp [hx, hc, hcore]
    · split at hh
      · cases hh
        exact absurd hb.symm hx
      · rename_i hne
        simpa [hx, hne] using ih hh

end

/-! ### The colour commit -/

@[simp] theorem reportSaturated_ctxs (s : State) (core handle : Nat) (us : List Upd) :
    (reportSaturated s core handle us).ctxs = s.ctxs := each_keeps State.ctxs (fun _ _ => event_ctxs ..) us s

@[simp] theorem countMacs_ctxs (s : State) (m : Model) (cores : List Nat) (us : List Upd) :
    (countMacs s m cores us).ctxs = s.ctxs := by
  refine each_keeps State.ctxs (fun s u => each_keeps State.ctxs (fun s d => ?_) _ s) us s
  dsimp only
  split
  · rfl
  · exact bump64_ctxs ..

/-- The samples that a commit of a share's oldest colour publishes. -/
def commitUpds (m : Model) (h : Share) : List Upd := h.pend.filter (fun u => colourOf m u.var == h.colour)

/-- A share after the commit of its oldest colour. -/
def committedShare (m : Model) (h : Share) : Share :=
  { h with
    colour := nextColour m h.block (h.colour + 1)
    plane := writePlane h.plane (commitUpds m h)
    pend := h.pend.filter (fun u => colourOf m u.var != h.colour)
    vecs := h.vecs.filter (fun v => colourOf m v.var != h.colour)
    unwalked := keepUnwalked m h h.colour }

/-- A sweep after the commit of a share's oldest colour. -/
def committedSweep (m : Model) (w : Sweep) (h : Share) : Sweep :=
  { setShare w (committedShare m h) with
    work := commitData m w h (commitUpds m h)
    sat := w.sat + (saturatedUpds h (commitUpds m h)).length
    remote := w.remote ++ (importers m w h.block h.colour).map (fun o => ⟨h.block, o, h.colour, commitUpds m h⟩) }

/-- The state in which a commit of a share's oldest colour has been counted and reported (03 R112, 06 R185). -/
def countedCommit (s : State) (i : Nat) (c : Ctx) (seat : Seat) (core : Nat) (h : Share) : State :=
  let m := ctxModel s c
  let us := commitUpds m h
  let s := reportSaturated s core (ctxHandle i c) (saturatedUpds h us)
  let s := bump64 s (coreReg ((physOf s core).getD 0) 0x418) us.length
  countMacs s m (runCores s m seat.placement (pSubset seat.data.params)) us

theorem countedCommit_ctxs (s : State) (i : Nat) (c : Ctx) (seat : Seat) (core : Nat) (h : Share) :
    (countedCommit s i c seat core h).ctxs = s.ctxs := by
  simp [countedCommit]

/-- A commit whose samples and remote commits are all there is counted, and puts the committed sweep back. -/
theorem exec_colourCommit {s : State} {core i : Nat} {c : Ctx} {seat : Seat} {w : Sweep} {h : Share} (hs : ShareAt s core i c seat w h)
    (hcolour : h.colour < (ctxModel s c).colours)
    (hall : (commitUpds (ctxModel s c) h).length = (slotsOf (ctxModel s c) h.block h.colour c.replicas).length)
    (hremote : remoteDoneBelow (ctxModel s c) w h h.colour h.colour = true) :
    exec (.colourCommit core i) s =
      .next (putSweep (countedCommit s i c seat core h) i seat (committedSweep (ctxModel s c) w h)) := by
  have hgo : ¬(decide ((ctxModel s c).colours ≤ h.colour) ||
      (commitUpds (ctxModel s c) h).length != (slotsOf (ctxModel s c) h.block h.colour c.replicas).length ||
      !remoteDoneBelow (ctxModel s c) w h h.colour h.colour) = true := by
    simp [hall, hremote, hcolour]
  show execColourCommit core i s = _
  exact (shareStep_at hs _).trans (congrArg _ (if_neg hgo))

/-! ### A remote commit -/

/-- A share in which a remote commit has arrived. -/
def arrivedShare (h : Share) (r : Remote) : Share :=
  let changed := r.upds.filterMap (fun u =>
    let old := (h.plane.getD u.rep []).getD u.var 0
    if u.val = old then none else some (u, old))
  { h with
    plane := writePlane h.plane r.upds
    arrived := h.arrived ++ [(r.fromBlock, r.colour)]
    unwalked := if h.base.isSome then h.unwalked ++ changed else h.unwalked }

/-- The first remote commit from one core's block to another's arrives, unless it waits for the core's own. -/
theorem exec_remoteCommitArrival {s : State} {core fromCore i : Nat} {c : Ctx} {seat : Seat} {w : Sweep} {h o : Share} {r : Remote}
    (hs : ShareAt s core i c seat w h) (ho : w.shares.find? (fun x => x.core == fromCore) = some o)
    (hr : w.remote.find? (fun x => x.fromBlock == o.block && x.toBlock == h.block) = some r)
    (hwait : arrivalWaits (ctxModel s c) h r = false) :
    exec (.remoteCommitArrival core fromCore i) s =
      .next (putSweep s i seat (setShare { w with remote := eraseFirst (fun x => x == r) w.remote } (arrivedShare h r))) := by
  show execRemoteCommitArrival core fromCore i s = _
  rw [execRemoteCommitArrival, shareStep_at hs]
  simp only [ho, hr, hwait]
  rfl

end Sys2Proof.Machine

open Sys2Proof Sys2Proof.Machine

/-- Settles O29: both rows put back a sweep in which the core's share is the one written (`exec_colourCommit`,
`exec_remoteCommitArrival`, `find_setShare`), and the seat keeps the last boundary (`contentOf_putSweep`). -/
theorem colourCommitsPublish : Obligations.ColourCommitsPublish := by
  refine ⟨?commit, ?arrival⟩
  case commit =>
    intro s core i c seat w h hs m us hcolour hall hremote
    have ht := countedCommit_ctxs s i c seat core h
    refine ⟨_, _, committedShare m h, exec_colourCommit hs hcolour hall hremote, sweepNow_putSweep hs ht _, ?_, rfl, rfl, rfl, rfl, rfl,
      contentOf_putSweep hs ht _⟩
    rw [shareNow, sweepNow_putSweep hs ht]
    exact find_setShare hs.2.2 rfl rfl rfl
  case arrival =>
    intro s core fromCore i c seat w h o r hs ho hr hwait
    refine ⟨_, _, arrivedShare h r, exec_remoteCommitArrival hs ho hr hwait, sweepNow_putSweep hs rfl _, ?_, rfl, rfl, rfl, rfl,
      contentOf_putSweep hs rfl _⟩
    rw [shareNow, sweepNow_putSweep hs rfl]
    exact find_setShare hs.2.2 rfl rfl rfl
end

section
/-!
PROOFS. Fences (14 R432 to R438): what a fence makes of the map, what the carrying of its work leaves alone, and the map that
FAULT_MAP fences.
-/

namespace Sys2Proof.Machine

/-! ### The map (14 R433) -/

/-- A core with a number has a byte in the map. -/
theorem lt_length_of_mapByte {m : List Byte} {p : Nat} (h : mapByte m p ≠ 0xFF) : p < m.length := by
  by_contra hp
  exact h (by rw [mapByte, List.getD_eq_default _ _ (Nat.le_of_not_lt hp)]; rfl)

theorem mapByte_set_same {m : List Byte} {p : Nat} (h : p < m.length) (b : Byte) : mapByte (m.set p b) p = b.toNat := by
  simp [mapByte, h]

theorem mapByte_set_other (m : List Byte) {p q : Nat} (h : q ≠ p) (b : Byte) : mapByte (m.set p b) q = mapByte m q := by
  simp [mapByte, List.getD_eq_getElem?_getD, List.getElem?_set_ne (Ne.symm h)]

/-- Logical number `l` of a fenced core `p` moves to core `q`. -/
theorem mapByte_moved {m : List Byte} {p q l : Nat} (hq : mapByte m q ≠ 0xFF) (hp : mapByte m p ≠ 0xFF) (hpq : q ≠ p) (hl : l < 16) :
    mapByte ((m.set p 0xFF).set q (BitVec.ofNat 8 l)) p = 0xFF ∧ mapByte ((m.set p 0xFF).set q (BitVec.ofNat 8 l)) q = l := by
  have hqlen : q < (m.set p 0xFF).length := by simpa using lt_length_of_mapByte hq
  constructor
  · rw [mapByte_set_other _ hpq.symm, mapByte_set_same (lt_length_of_mapByte hp)]
    rfl
  · rw [mapByte_set_same hqlen, BitVec.toNat_ofNat]
    omega

section
variable {m : List Byte} {p : Nat} (hp : mapByte m p < 16)
include hp

/-- The lowest unused reserve takes the number of a fenced core, which holds none any more. -/
theorem fencePlan_reserve {q : Nat} {rest : List Nat} (hr : reservesOf m = q :: rest) :
    mapByte (fencePlan m p).1 p = 0xFF ∧ mapByte (fencePlan m p).1 q = mapByte m p := by
  have hq : mapByte m q = 0xFE := by
    have hmem : q ∈ reservesOf m := by simp [hr]
    simpa using (List.mem_filter.mp hmem).2
  have hplan : (fencePlan m p).1 = (m.set p 0xFF).set q (BitVec.ofNat 8 (mapByte m p)) := by
    simp [fencePlan, hr, Nat.not_le_of_lt hp]
  rw [hplan]
  exact mapByte_moved (by omega) (by omega) (by rintro rfl; omega) hp

/-- With no reserve left, the core of logical 15 takes the number of a fenced core. -/
theorem fencePlan_fifteen {h : Nat} (hr : reservesOf m = []) (hne : mapByte m p ≠ 15) (hh : physOfMap m 15 = some h) :
    mapByte (fencePlan m p).1 p = 0xFF ∧ mapByte (fencePlan m p).1 h = mapByte m p := by
  have h15 : mapByte m h = 15 := by
    simpa using List.find?_some (p := fun p => mapByte m p == 15) hh
  have hplan : (fencePlan m p).1 = (m.set p 0xFF).set h (BitVec.ofNat 8 (mapByte m p)) := by
    simp [fencePlan, hr, hh, hne, Nat.not_le_of_lt hp]
  rw [hplan]
  exact mapByte_moved (by omega) (by omega) (by rintro rfl; omega) hp

/-- A fenced core holds no number. -/
theorem fencePlan_fenced : mapByte (fencePlan m p).1 p = 0xFF := by
  have gone : mapByte (m.set p 0xFF) p = 0xFF := mapByte_set_same (lt_length_of_mapByte (by omega)) _
  cases hr : reservesOf m with
  | cons q rest => exact (fencePlan_reserve hp hr).1
  | nil =>
    by_cases h15 : mapByte m p = 15
    · simpa [fencePlan, hr, h15] using gone
    · cases hh : physOfMap m 15 with
      | some h => exact (fencePlan_fifteen hp hr h15 hh).1
      | none => simpa [fencePlan, hr, hh, h15, Nat.not_le_of_lt hp] using gone

end

/-! ### What the carrying of work leaves alone -/

/-- What a fence decides by: the map, the fences due and settled, and the settings in OTP. -/
def fenceView (s : State) : List Byte × Faults × Security := (s.map, s.faults, s.sec)

theorem fenceView_abandonSweep (s : State) (i : Nat) : fenceView (abandonSweep s i) = fenceView s := by
  unfold abandonSweep
  split
  · rfl
  · split
    · rfl
    · refine each_keeps fenceView (fun s h => ?_) _ s
      split
      · rfl
      · simp [fenceView]

theorem fenceView_relistModel (s : State) (i : Nat) : fenceView (relistModel s i) = fenceView s := by
  unfold relistModel
  split
  · rfl
  · refine (each_keeps fenceView (fun s i => ?_) _ _).trans rfl
    unfold relist
    split <;> rfl

theorem fenceView_giveWork (s : State) (o : Owner) (cores : List Nat) (transfers : List (Node × Node)) :
    fenceView (giveWork s o cores transfers) = fenceView s :=
  (each_keeps fenceView (f := loadSchedule o builtSchedule) (fun _ _ => rfl) cores _).trans rfl

theorem fenceView_rebuildWork (s : State) (os : List Owner) : fenceView (rebuildWork s os) = fenceView s := by
  refine (each_keeps fenceView (fun s o => ?_) os _).trans (each_keeps fenceView (f := dropWork) (fun _ _ => rfl) os s)
  cases o with
  | model i => cases h : lookup s.models i <;> simp [h, giveModelWork, fenceView_giveWork]
  | prog r => cases h : findProg s r <;> simp [h, giveProgWork, fenceView_giveWork]
  | join => rfl

theorem fenceView_corrected (s : State) (u : MemUnit) (a : Nat) (first : Bool) : fenceView (corrected s u a first) = fenceView s := by
  obtain ⟨_, _, _, h⟩ := corrected_only s u a first
  rw [h]
  rfl

theorem fenceView_badRead (s : State) (u : MemUnit) (a : Nat) (m : Option WordClass) : fenceView (badRead s u a m) = fenceView s := by
  obtain ⟨_, _, h⟩ := badRead_only s u a m
  rw [h]
  rfl

theorem fenceView_lastBurst (s : State) (es : List (Nat × WordClass)) : fenceView (lastBurst s es) = fenceView s := by
  unfold lastBurst
  split
  · rfl
  · cases burstKeeps _ with
    | none => rfl
    | some e => simp [fenceView, recordLast]

theorem fenceView_restartTiles (s t : State) : fenceView (restartTiles s t).1 = fenceView t := rfl

theorem fenceView_sealCore (s : State) (p : Nat) : fenceView (sealCore s p) = fenceView s := rfl

theorem fenceView_event (s : State) (c v u x : Nat) (d : List Byte) : fenceView (event s c v u x d) = fenceView s := by
  simp [fenceView]

theorem fenceView_scrubRange (s : State) (a n : Nat) : fenceView (scrubRange s a n).2.2 = fenceView s := by
  refine (fenceView_lastBurst ..).trans (each_keeps (fun acc : Nat × Bool × State => fenceView acc.2.2) (fun acc e => ?_) _ (0, true, s))
  split
  · exact fenceView_corrected ..
  · exact fenceView_badRead ..

theorem fenceView_readShares (s : State) (mi : Nat) (m : Model) (bs : List Nat) : fenceView (readShares s mi m bs) = fenceView s := by
  refine each_keeps fenceView (fun s b => ?_) bs s
  dsimp only
  split
  · exact fenceView_scrubRange ..
  · exact fenceView_scrubRange ..

theorem fenceView_keptClean (s : State) (m : Model) (b p : Nat) : fenceView (keptClean s m b p).2 = fenceView s := by
  unfold keptClean
  split
  · rfl
  · rename_i k _
    obtain ⟨_, _, _, h⟩ := readSpad_only s p k.addr k.size
    dsimp only
    rw [h]
    rfl

theorem fenceView_writeSpad (s : State) (p a : Nat) (bs : List Byte) : fenceView (writeSpad s p a bs) = fenceView s := by
  obtain ⟨_, _, _, h⟩ := writeSpad_only s p a bs
  rw [h]
  rfl

theorem fenceView_addShare (s : State) (i b p : Nat) : fenceView (addShare s i b p) = fenceView s := by
  unfold addShare
  split
  · rfl
  · dsimp only
    split
    · exact fenceView_keptClean ..
    · exact (fenceView_writeSpad ..).trans (fenceView_keptClean ..)

theorem fenceView_moveShare (q : Nat) (s : State) (h : ResShare) : fenceView (moveShare q s h) = fenceView s := by
  unfold moveShare
  split
  · rfl
  · split
    · rfl
    · rw [fenceView_addShare, fenceView_readShares]

/-- The map of a plan, with the placements that it gives the models (14 R433). -/
def planned (s : State) (plan : List Byte × Nat × Nat) : State :=
  if activeOf plan.1 != activeOf s.map then derivePlacements { s with map := plan.1 } else { s with map := plan.1 }

theorem planned_map (s : State) (plan : List Byte × Nat × Nat) : (planned s plan).map = plan.1 := by
  unfold planned
  split <;> rfl

/-- The contexts that a plan displaces stand in their lists again, under its map. -/
def displacedBack (s : State) (plan : List Byte × Nat × Nat) : State :=
  let new := planned s plan
  let back := displaced s new
  let t := each back s abandonSweep
  let t := each back { t with map := new.map, models := new.models.map (fun e => (e.1, toHeads back e.2)) } sendBack
  each (t.models.map (·.1)) t relistModel

theorem fenceView_displacedBack (s : State) (plan : List Byte × Nat × Nat) :
    fenceView (displacedBack s plan) = (plan.1, s.faults, s.sec) := by
  have hback : fenceView (each (displaced s (planned s plan)) s abandonSweep) = fenceView s :=
    each_keeps fenceView fenceView_abandonSweep _ s
  simp only [fenceView, Prod.mk.injEq] at hback
  obtain ⟨-, hfaults, hsec⟩ := hback
  unfold displacedBack
  rw [each_keeps fenceView fenceView_relistModel, each_keeps fenceView (f := sendBack) (fun _ _ => rfl)]
  simp [fenceView, planned_map, hfaults, hsec]

/-- Interrupted tiles start again, the memories of the cores concerned are sealed, and slots and schedules are built anew (14 R432,
steps 5 and 7). -/
def rebuilt (s : State) (p : Nat) (plan : List Byte × Nat × Nat) : State :=
  let t := sealCore (restartTiles s (displacedBack s plan)).1 p
  rebuildWork (if plan.2.2 < 18 then sealCore t plan.2.2 else t) (ownersOn s p (activeOf plan.1 != activeOf s.map))

theorem fenceView_rebuilt (s : State) (p : Nat) (plan : List Byte × Nat × Nat) :
    fenceView (rebuilt s p plan) = (plan.1, s.faults, s.sec) := by
  have ht : fenceView (sealCore (restartTiles s (displacedBack s plan)).1 p) = (plan.1, s.faults, s.sec) := by
    rw [fenceView_sealCore, fenceView_restartTiles, fenceView_displacedBack]
  unfold rebuilt
  rw [fenceView_rebuildWork]
  split
  · rw [fenceView_sealCore, ht]
  · exact ht

/-- The shares of the fenced core are loaded into the core that takes its number (14 R432, step 6). -/
def reshared (s : State) (p : Nat) (plan : List Byte × Nat × Nat) : State :=
  match physOf (rebuilt s p plan) plan.2.1 with
  | none => rebuilt s p plan
  | some q => each (coreState s p).shares (rebuilt s p plan) (moveShare q)

theorem fenceView_reshared (s : State) (p : Nat) (plan : List Byte × Nat × Nat) :
    fenceView (reshared s p plan) = (plan.1, s.faults, s.sec) := by
  unfold reshared
  split
  · exact fenceView_rebuilt ..
  · exact (each_keeps fenceView (fenceView_moveShare _) _ _).trans (fenceView_rebuilt ..)

/-- The carrying of a fence's work, layer by layer: at its end an event names what started again. -/
theorem carryWork_eq (s : State) (p : Nat) (plan : List Byte × Nat × Nat) :
    carryWork s p plan =
      let back := displaced s (planned s plan)
      let tiles := (restartTiles s (displacedBack s plan)).2
      if back.isEmpty && tiles == 0 then reshared s p plan
      else event (reshared s p plan) 0x0122 1 p 0 (leBytes 4 back.length ++ leBytes 4 tiles) := by
  rfl

/-- The map of a fence's plan is in force once its work is carried, with the fences due, those settled and OTP as they were. -/
theorem fenceView_carryWork (s : State) (p : Nat) (plan : List Byte × Nat × Nat) :
    fenceView (carryWork s p plan) = (plan.1, s.faults, s.sec) := by
  rw [carryWork_eq]
  dsimp only
  split
  · exact fenceView_reshared ..
  · rw [fenceView_event, fenceView_reshared]

theorem carryWork_map (s : State) (p : Nat) (plan : List Byte × Nat × Nat) : (carryWork s p plan).map = plan.1 :=
  congrArg Prod.fst (fenceView_carryWork s p plan)

theorem carryWork_faults (s : State) (p : Nat) (plan : List Byte × Nat × Nat) : (carryWork s p plan).faults = s.faults :=
  congrArg (fun v => v.2.1) (fenceView_carryWork s p plan)

theorem carryWork_sec (s : State) (p : Nat) (plan : List Byte × Nat × Nat) : (carryWork s p plan).sec = s.sec :=
  congrArg (fun v => v.2.2) (fenceView_carryWork s p plan)

/-! ### The fence sequence (14 R432, R436, R437) -/

theorem settleFence_pending {s : State} (p : Nat) (h : gensUsed s.sec.otp < 4) :
    settleFence s p = { s with faults := { s.faults with otpPending := some (s.faults.otpPending.getD p) } } := by
  simp [settleFence, fenceGeneration, h]

theorem settleFence_volatile {s : State} (p : Nat) (h : 4 ≤ gensUsed s.sec.otp) :
    settleFence s p = modCore s p (fun c => { c with volatile := true }) := by
  simp [settleFence, fenceGeneration, Nat.not_lt_of_le h]

@[simp] theorem settleFence_map (s : State) (p : Nat) : (settleFence s p).map = s.map := by
  unfold settleFence
  split <;> rfl

@[simp] theorem settleFence_sec (s : State) (p : Nat) : (settleFence s p).sec = s.sec := by
  unfold settleFence
  split <;> rfl

@[simp] theorem settleFence_due (s : State) (p : Nat) : (settleFence s p).faults.due = s.faults.due := by
  unfold settleFence
  split <;> rfl

/-- A fence of a core is carried out and settled, and no longer due. -/
def fenceCarried (s : State) (p : Nat) : State :=
  let t := settleFence (carryWork s p (fencePlan s.map p)) p
  { t with faults := { t.faults with due := t.faults.due.drop 1 } }

theorem fenceCarried_due (s : State) (p : Nat) : (fenceCarried s p).faults.due = s.faults.due.drop 1 := by
  show (settleFence _ p).faults.due.drop 1 = _
  rw [settleFence_due, carryWork_faults]

theorem beginFence_none {s : State} (h : s.faults.due = []) : beginFence s = s := by
  simp [beginFence, h]

/-- The only fence due is carried out when every reserve passes its checks and enough cores stay active. -/
theorem runFence_last {s : State} {ok : List Nat} {p reason : Nat} (hdue : s.faults.due = [(p, reason)])
    (hmap : exhausts s.map p = false) (hok : ∀ q ∈ reservesOf s.map, q ∈ ok) : runFence s ok p = fenceCarried s p := by
  have hpass : (reservesOf s.map).takeWhile (fun q => !ok.contains q) = [] := by
    cases hr : reservesOf s.map with
    | nil => rfl
    | cons q rest => simp [hok q (by simp [hr])]
  have hrest : (fenceCarried s p).faults.due = [] := by rw [fenceCarried_due, hdue]; rfl
  rw [runFence, hpass]
  exact (if_neg (Bool.eq_false_iff.mp hmap)).trans (beginFence_none hrest)

theorem exec_fenceSequence {s : State} (ok : List Nat) {p reason : Nat} {rest : List (Nat × Nat)} (hdue : s.faults.due = (p, reason) :: rest)
    (hfatal : s.faults.fatal = none) (hphase : s.power.phase = .running) :
    exec (.fenceSequence ok) s = .next (runFence s ok p) := by
  show execFenceSequence ok s = _
  simp [execFenceSequence, hdue, hfatal, hphase]

@[simp] theorem fenceCarried_map (s : State) (p : Nat) : (fenceCarried s p).map = (fencePlan s.map p).1 := by
  simp [fenceCarried, carryWork_map]

@[simp] theorem fenceCarried_sec (s : State) (p : Nat) : (fenceCarried s p).sec = s.sec := by
  simp [fenceCarried, carryWork_sec]

/-- A free generation is due for the first of the fences that it records. -/
theorem fenceCarried_pending {s : State} (p : Nat) (h : gensUsed s.sec.otp < 4) :
    (fenceCarried s p).faults.otpPending = some (s.faults.otpPending.getD p) := by
  have hc : gensUsed (carryWork s p (fencePlan s.map p)).sec.otp < 4 := by rwa [carryWork_sec]
  simp [fenceCarried, settleFence_pending p hc, carryWork_faults]

/-- With no generation left a fence is volatile. -/
theorem fenceCarried_volatile {s : State} (p : Nat) (h : 4 ≤ gensUsed s.sec.otp) : (coreState (fenceCarried s p) p).volatile = true := by
  have hc : 4 ≤ gensUsed (carryWork s p (fencePlan s.map p)).sec.otp := by rwa [carryWork_sec]
  simp [fenceCarried, settleFence_volatile p hc, coreState, lookupD, modCore]

/-! ### The write of a generation (14 R436) -/

theorem lookup_map {α β : Type} (m : Map α) (f : α → β) (k : Nat) : lookup (m.map (fun e => (e.1, f e.2))) k = (lookup m k).map f := by
  induction m with
  | nil => rfl
  | cons e m ih =>
    simp only [List.map_cons, lookup, ih]
    split <;> rfl

/-- A core without the volatile form of a fence. -/
def unfenced (c : Core) : Core := { c with volatile := false }

theorem exec_fenceOtpWrite {s : State} (cut : Bool) (hdue : s.faults.due = []) (hfree : gensUsed s.sec.otp < 4) :
    exec (.fenceOtpWrite cut) s = .next (fenceOtpWritten s cut) := by
  show execFenceOtpWrite cut s = _
  simp [execFenceOtpWrite, hdue, hfree]

section
variable {s : State} {p : Nat} (hp : s.faults.otpPending = some p)
include hp

/-- A generation's write, interrupted or not, ends the pending one and carries the map in force. -/
theorem fenceOtpWritten_written (cut : Bool) :
    (fenceOtpWritten s cut).faults.otpPending = none ∧
    (fenceOtpWritten s cut).sec.otp = writeGeneration s.sec.otp cut (fun g => { g with map := s.map }) ∧
    (fenceOtpWritten s cut).map = s.map := by
  cases cut <;> simp [fenceOtpWritten, hp]

/-- A whole write ends the volatile form of every fence. -/
theorem fenceOtpWritten_volatile (q : Nat) : (coreState (fenceOtpWritten s false) q).volatile = false := by
  have hcores : (fenceOtpWritten s false).cores = s.cores.map (fun e => (e.1, unfenced e.2)) := by
    simp [fenceOtpWritten, hp, unfenced]
  rw [coreState, lookupD, hcores, lookup_map]
  cases lookup s.cores q <;> rfl

theorem fenceOtpWritten_cut_cores : (fenceOtpWritten s true).cores = s.cores := by
  simp [fenceOtpWritten, hp]

end

/-! ### The map that FAULT_MAP fences (11 R365, R366) -/

/-- One core of a mask in the map that `maskedMap` makes. -/
def maskStep (mask : Nat) (acc : Option (List Byte)) (p : Nat) : Option (List Byte) :=
  acc.bind (fun m =>
    if bitOf mask p = 0 ∨ mapByte m p = 0xFF then some m
    else if exhausts m p then none
    else some (fencePlan m p).1)

theorem maskedMap_eq (m : List Byte) (mask : Nat) : maskedMap m mask = (List.range 18).foldl (maskStep mask) (some m) := rfl

theorem foldl_maskStep_none (mask : Nat) (l : List Nat) : l.foldl (maskStep mask) none = none := by
  induction l with
  | nil => rfl
  | cons p l ih => exact ih

theorem applyFence_map (s : State) (p : Nat) :
    (applyFence s p).map = if mapByte s.map p = 0xFF then s.map else (fencePlan s.map p).1 := by
  unfold applyFence
  split
  · rfl
  · simp [carryWork_map]

@[simp] theorem recordFence_sec (s : State) (p gen reason : Nat) (plan : List Byte × Nat × Nat) :
    (recordFence s p gen reason plan).sec = s.sec := by
  unfold recordFence
  dsimp only
  split <;> simp

theorem applyFence_sec (s : State) (p : Nat) : (applyFence s p).sec = s.sec := by
  unfold applyFence
  split
  · rfl
  · simp [carryWork_sec]

/-- The fences of a mask that the map allows leave the map that was foreseen. -/
theorem each_applyFence_map {mask : Nat} {m : List Byte} (l : List Nat) (s : State) (h : l.foldl (maskStep mask) (some s.map) = some m) :
    (each (l.filter (fun q => bitOf mask q == 1)) s applyFence).map = m := by
  induction l generalizing s with
  | nil => exact Option.some.inj h
  | cons p l ih =>
    have hbit : bitOf mask p = 0 ∨ bitOf mask p = 1 := by unfold bitOf; omega
    rw [List.foldl_cons] at h
    rcases hbit with h0 | h1
    · rw [List.filter_cons_of_neg (by simp [h0])]
      exact ih s (by simpa [maskStep, h0] using h)
    · rw [List.filter_cons_of_pos (by simp [h1])]
      refine ih (applyFence s p) ?_
      rw [applyFence_map]
      by_cases hgone : mapByte s.map p = 0xFF
      · simpa [maskStep, h1, hgone] using h
      · cases hex : exhausts s.map p with
        | true => simp [maskStep, h1, hgone, hex, foldl_maskStep_none] at h
        | false => simpa [maskStep, h1, hgone, hex] using h

/-- FAULT_MAP fences the cores of its mask, one after the other in ascending order. -/
def fenceMask (s : State) (mask : Nat) : State := each ((List.range 18).filter (fun q => bitOf mask q == 1)) s applyFence

theorem fenceMask_map {s : State} {mask : Nat} {m : List Byte} (h : maskedMap s.map mask = some m) : (fenceMask s mask).map = m :=
  each_applyFence_map _ s h

theorem fenceMask_sec (s : State) (mask : Nat) : (fenceMask s mask).sec = s.sec := each_keeps State.sec applyFence_sec _ s

/-- The checks of FAULT_MAP, in their order. -/
def faultMapChecks (s : State) (p : List Byte) : List (Bool × Status × Nat) :=
  [(p.length != 8, badLength), (!allZero (slice p 1 3) || (u8 p 0 == 0 && u32 p 4 != 0), badReserved),
   (decide (1 < u8 p 0) || decide (2 ^ 18 ≤ u32 p 4), badRange),
   (u8 p 0 == 1 && (maskedMap s.map (u32 p 4)).isNone, .badParam, 0x0373),
   (u8 p 0 == 1 && !s.models.isEmpty, .contextBusy, 0x0374)]

/-- The fences of a FAULT_MAP that passes its checks. -/
def faultMapDone (s : State) (p : List Byte) : State := if u8 p 0 == 1 then fenceMask s (u32 p 4) else s

theorem exec_faultMap {s : State} {r : Req} (p : List Byte) (hdue : s.faults.due = []) (hready : Ready s r 0x94 none none) :
    exec (.faultMap r p) s = .next (checked (unqueue s r 0x94) r 0x94 (faultMapChecks (unqueue s r 0x94) p)
      (fun t => reply (faultMapDone t p) r 0x94 .ok 0 (faultMapBytes (faultMapDone t p)))) := by
  show execFaultMap r p s = _
  rw [execFaultMap, if_neg (by simp [hdue]), serve_ready hready]
  rfl

theorem faultMapBytes_unqueue (s : State) (r : Req) (op : Nat) : faultMapBytes (unqueue s r op) = faultMapBytes s := by
  simp [faultMapBytes, fenceOtp, fenceVol, coreState, active, coreMapBytes, physOf]

section
variable {s : State} {p : List Byte} (hlen : p.length = 8) (hzero : allZero (slice p 1 3) = true)
include hlen hzero

theorem faultMapChecks_read (haction : u8 p 0 = 0) (hmask : u32 p 4 = 0) : firstErr (faultMapChecks s p) = none := by
  simp [faultMapChecks, firstErr, hlen, hzero, haction, hmask]

theorem faultMapChecks_fence {m : List Byte} (haction : u8 p 0 = 1) (hmask : u32 p 4 < 2 ^ 18)
    (hm : maskedMap s.map (u32 p 4) = some m) (hmodels : s.models = []) : firstErr (faultMapChecks s p) = none := by
  simp [faultMapChecks, firstErr, hlen, hzero, haction, hm, hmodels, show ¬262144 ≤ u32 p 4 by omega]

theorem faultMapChecks_exhausted (haction : u8 p 0 = 1) (hmask : u32 p 4 < 2 ^ 18) (hm : maskedMap s.map (u32 p 4) = none) :
    firstErr (faultMapChecks s p) = some (.badParam, 0x0373) := by
  simp [faultMapChecks, firstErr, hlen, hzero, haction, hm, show ¬262144 ≤ u32 p 4 by omega]

end

end Sys2Proof.Machine

open Sys2Proof Sys2Proof.Machine

/-- Settles O50: the map of a fence is that of its plan (`fencePlan_fenced`, `fencePlan_reserve`, `fencePlan_fifteen`), the carrying of
its work leaves the rest that it decides by alone (`fenceView_carryWork`), and a mask is fenced core by core (`fenceMask_map`). -/
theorem fencesChangeTheMap : Obligations.FencesChangeTheMap := by
  refine ⟨?sequence, ?write, ?command⟩
  case sequence =>
    intro s ok p reason hdue hfatal hphase hp hmap hok
    have hexec := (exec_fenceSequence ok hdue hfatal hphase).trans (congrArg _ (runFence_last hdue hmap hok))
    refine ⟨_, hexec, by rw [fenceCarried_due, hdue]; rfl, ?_, fun q rest hr => ?_, fun h hr hne hh => ?_,
      fenceCarried_pending p, fenceCarried_volatile p, ?_⟩
    · rw [fenceCarried_map]
      exact fencePlan_fenced hp
    · rw [fenceCarried_map]
      exact (fencePlan_reserve hp hr).2
    · rw [fenceCarried_map]
      exact (fencePlan_fifteen hp hr hne hh).2
    · rw [fenceCarried_sec]
  case write =>
    intro s cut p hdue hpending hfree
    obtain ⟨hdone, hotp, hmap⟩ := fenceOtpWritten_written hpending cut
    refine ⟨_, exec_fenceOtpWrite cut hdue hfree, hdone, hotp, ?_, ?_, hmap⟩
    · rintro rfl
      exact fenceOtpWritten_volatile hpending
    · rintro rfl
      exact fenceOtpWritten_cut_cores hpending
  case command =>
    intro s r p hdue hready hlen hzero
    rw [exec_faultMap p hdue hready]
    refine ⟨fun haction hmask => ?_, fun m haction hmask hm hmodels => ?_, fun haction hmask hm => ?_⟩
    · rw [checked_pass (faultMapChecks_read hlen hzero haction hmask)]
      simp [faultMapDone, haction, faultMapBytes_unqueue]
    · rw [checked_pass (faultMapChecks_fence hlen hzero haction hmask (by simpa using hm) (by simpa using hmodels))]
      refine ⟨fenceMask (unqueue s r 0x94) (u32 p 4), by simp [faultMapDone, haction], fenceMask_map (by simpa using hm), ?_⟩
      simp [fenceMask_sec]
    · rw [checked, faultMapChecks_exhausted hlen hzero haction hmask (by simpa using hm)]
end

section
/-!
PROOFS. The Groomer while its walkers stand (13 R422).
-/

namespace Sys2Proof.Machine

/-- While the walkers of the stacks stand, a row of a stack leaves the state, the errors that it carries included. -/
theorem exec_groomerRead_standing (n : Nat) (es : List Upset) {s : State} (h : walking s 0 = false) :
    exec (.groomerRead (.hbm n) es) s = .next s := by
  show execGroomerRead (.hbm n) es s = .next s
  simp [execGroomerRead, h]

/-- The module in Doze, in which no walker runs. -/
def dozing : State := { State.reset with power := { phase := .running, st := .doze } }

/-- Errors strike the first word of stack 0. -/
def firstWordStruck : Upset := ⟨0, .uncorrectable, false⟩

end Sys2Proof.Machine

open Sys2Proof Sys2Proof.Machine

/-- Refutes O51: its third clause asks no walker to run. In Doze the row leaves the state, and with it the word that its errors
strike; the state in which they have struck the word has a mark there. -/
theorem not_groomerReadsAndMends : ¬ Obligations.GroomerReadsAndMends := by
  rintro ⟨-, -, struckFirst, -, -⟩
  have h := struckFirst dozing (.hbm 0) [firstWordStruck] rfl
  rw [exec_groomerRead_standing 0 _ (by decide), exec_groomerRead_standing 0 _ (by decide)] at h
  have hmarks : dozing.marks = (strike (.hbm 0) dozing firstWordStruck).marks := congrArg State.marks (Host.Outcome.next.inj h)
  exact absurd hmarks (by decide)
end

section
/-!
PROOFS. MODEL_LOAD (02 R80 to R83, 11 R344): what an image that passes its checks shows of the models loaded, and what the reading of
an image and the installation of a model leave alone.
-/

namespace Sys2Proof.Machine

/-! ### Free indices -/

/-- A key that has a value is one of the map's keys. -/
theorem mem_keys_of_isSome {α : Type} {m : Map α} {k : Nat} (h : (lookup m k).isSome) : k ∈ m.map Prod.fst := by
  by_contra hk
  have habsent : lookup m k = none := lookup_none (fun e he hek => hk (List.mem_map.mpr ⟨e, he, hek⟩))
  simp [habsent] at h

/-- Where no number of a range is free, each is a key. -/
theorem isSome_of_lowestFree_none {α : Type} {m : Map α} (fuel n : Nat) (h : lowestFree m fuel n = none) :
    ∀ k, n ≤ k → k < n + fuel → (lookup m k).isSome := by
  induction fuel generalizing n with
  | zero => omega
  | succ fuel ih =>
    intro k hnk hk
    rw [lowestFree] at h
    split at h
    case isFalse => cases h
    case isTrue hn =>
      rcases Nat.eq_or_lt_of_le hnk with rfl | hlt
      · exact hn
      · exact ih (n + 1) h k hlt (by omega)

/-- Fewer entries than numbers leave a number free. -/
theorem exists_lowestFree {α : Type} {m : Map α} {n : Nat} (h : m.length < n) : ∃ i, lowestFree m n 0 = some i := by
  rw [← Option.ne_none_iff_exists']
  intro hnone
  have hkeys : List.range n ⊆ m.map Prod.fst := fun k hk =>
    mem_keys_of_isSome (isSome_of_lowestFree_none n 0 hnone k (Nat.zero_le k) (by simpa using hk))
  have hlen := (List.subperm_of_subset List.nodup_range hkeys).length_le
  simp only [List.length_range, List.length_map] at hlen
  omega

/-! ### The checks of an image (02 R83) -/

theorem failIf_ok {c : Bool} {e : LoadErr} (h : failIf c e = .ok ()) : c = false := by
  cases c with
  | false => rfl
  | true => cases h

/-- Check 4: fewer than 4,096 models are loaded. -/
theorem loaded_lt_of_checkCounts {img : List Byte} {loaded : Nat} (h : checkCounts img loaded = .ok ()) : loaded < 4096 := by
  have hc := failIf_ok h
  simp only [Bool.or_eq_false_iff, decide_eq_false_iff_not] at hc
  omega

/-- A check that is followed by others passes where they all do. -/
theorem check_ok_of_bind {α : Type} {c : Check} {f : Unit → Except LoadErr α} {a : α} (h : c >>= f = .ok a) :
    c = .ok () ∧ f () = .ok a := by
  cases c with
  | error e => cases h
  | ok u => exact ⟨rfl, h⟩

theorem loaded_lt_of_checkImage {img : List Byte} {region loaded : Nat} {m : Model} (h : checkImage img region loaded = .ok m) :
    loaded < 4096 := by
  obtain ⟨-, hdigest⟩ := check_ok_of_bind h
  obtain ⟨-, hdirectory⟩ := check_ok_of_bind hdigest
  obtain ⟨-, hcounts⟩ := check_ok_of_bind hdirectory
  exact loaded_lt_of_checkCounts (check_ok_of_bind hcounts).1

/-- A model that was built has an index left. -/
theorem lowestFree_of_buildModel {s : State} {img : Option (List Byte)} {region : Nat} {m : Model}
    (h : buildModel s img region = .ok m) : ∃ i, lowestFree s.models 4096 0 = some i := by
  refine exists_lowestFree ?_
  cases img with
  | none => cases h
  | some img =>
    rw [buildModel] at h
    cases hcheck : checkImage img region s.models.length with
    | error e => simp [hcheck] at h
    | ok _ => exact loaded_lt_of_checkImage hcheck

/-! ### What a load leaves alone -/

/-- A state without what a load writes beside the tables of models and loads: the queues and the list of commands taken; HBM, the
scratchpads, their marks and write-backs; cores and slots; the registers and the Trail, which record what is read. -/
def loadRest (s : State) : State :=
  { s with
    sessions := [], openQueue := [], turn := 0, taken := [], regs := [], trail := {}, hbm := [], marks := [], writeBacks := [],
    spad := [], spadMarks := [], cores := [], slots := [], free := 0 }

theorem loadRest_unqueue (s : State) (r : Req) (op : Nat) : loadRest (unqueue s r op) = loadRest s := by
  obtain ⟨_, _, _, h⟩ := unqueue_only s r op
  rw [h]
  rfl

theorem loadRest_hold (s : State) (r : Req) (op : Nat) (c m : Option Nat) (md : Modes) :
    loadRest (hold s r op c m md) = loadRest s := by
  obtain ⟨_, h⟩ := hold_only s r op c m md
  rw [h]
  rfl

theorem loadRest_readHbm (s : State) (a n : Nat) : loadRest (readHbm s a n).2 = loadRest s := by
  obtain ⟨_, _, _, h⟩ := readHbm_only s a n
  rw [h]
  rfl

theorem loadRest_writeHbm (s : State) (a : Nat) (bs : List Byte) : loadRest (writeHbm s a bs) = loadRest s := by
  obtain ⟨_, _, _, _, _, h⟩ := writeHbm_only s a bs
  rw [h]
  rfl

theorem loadRest_writeSpad (s : State) (p a : Nat) (bs : List Byte) : loadRest (writeSpad s p a bs) = loadRest s := by
  obtain ⟨_, _, _, h⟩ := writeSpad_only s p a bs
  rw [h]
  rfl

theorem loadRest_loadFailed (s : State) (e : LoadErr) : loadRest (loadFailed s e) = loadRest s := by
  obtain ⟨_, _, h⟩ := event_only s 0x0300 2 unitHandler 0
    (leBytes 1 e.st.code ++ leBytes 2 e.detail ++ leBytes 2 e.section_ ++ leBytes 8 e.record)
  rw [loadFailed, h]
  rfl

theorem loadRest_readImage (s : State) (a len : Nat) : loadRest (readImage s a len).2 = loadRest s := by
  unfold readImage
  dsimp only
  split
  · rw [loadRest_readHbm]
  · split
    · rw [loadRest_readHbm, loadRest_readHbm]
    · rw [loadRest_readHbm]

theorem loadRest_keptClean (s : State) (m : Model) (b p : Nat) : loadRest (keptClean s m b p).2 = loadRest s := by
  unfold keptClean
  split
  · rfl
  · rename_i k _
    obtain ⟨_, _, _, h⟩ := readSpad_only s p k.addr k.size
    dsimp only
    rw [h]
    rfl

theorem loadRest_addShare (s : State) (i b p : Nat) : loadRest (addShare s i b p) = loadRest s := by
  unfold addShare
  split
  · rfl
  · dsimp only
    split
    · exact loadRest_keptClean ..
    · exact (loadRest_writeSpad ..).trans (loadRest_keptClean ..)

theorem loadRest_placeResident (s : State) (i : Nat) (m : Model) : loadRest (placeResident s i m) = loadRest s := by
  unfold placeResident
  dsimp only
  split
  · exact each_keeps loadRest (fun _ _ => loadRest_addShare ..) _ s
  · rfl

theorem loadRest_giveModelWork (s : State) (i : Nat) (m : Model) : loadRest (giveModelWork s i m) = loadRest s :=
  (each_keeps loadRest (f := loadSchedule (.model i) builtSchedule) (fun _ _ => rfl) _ _).trans rfl

theorem loadRest_writeShares (s : State) (m : Model) : loadRest (writeShares s m) = loadRest s := by
  unfold writeShares
  rw [each_keeps loadRest (fun _ _ => loadRest_writeHbm ..)]
  rfl

/-- A model stands in the table at an index, with the next generation of that index. -/
def tableWith (s : State) (i : Nat) (m : Model) : State :=
  { s with models := put s.models i { m with gen := nextModelGen s i }, modelGens := put s.modelGens i (nextModelGen s i) }

/-- Beside the tables, the installation of a model writes memories, cores and slots alone. -/
theorem loadRest_installModel (s : State) (i : Nat) (m : Model) : loadRest (installModel s i m) = loadRest (tableWith s i m) := by
  unfold installModel
  rw [loadRest_placeResident, loadRest_giveModelWork, loadRest_writeShares]
  rfl

/-- A load's reply is kept for MODEL_LOAD_COMPLETE. -/
def keepLoad (s : State) (l : Load) : State := { s with loads := s.loads ++ [l] }

section
variable {s t : State} (h : loadRest s = loadRest t)
include h

theorem nextModelGen_congr (i : Nat) : nextModelGen s i = nextModelGen t i :=
  show nextModelGen (loadRest s) i = nextModelGen (loadRest t) i by rw [h]

theorem tableWith_congr (i : Nat) (m : Model) : loadRest (tableWith s i m) = loadRest (tableWith t i m) :=
  show tableWith (loadRest s) i m = tableWith (loadRest t) i m by rw [h]

theorem models_congr : s.models = t.models :=
  show (loadRest s).models = (loadRest t).models by rw [h]

theorem ctxs_congr : s.ctxs = t.ctxs :=
  show (loadRest s).ctxs = (loadRest t).ctxs by rw [h]

theorem loads_congr : s.loads = t.loads :=
  show (loadRest s).loads = (loadRest t).loads by rw [h]

theorem out_congr : s.out = t.out :=
  show (loadRest s).out = (loadRest t).out by rw [h]

theorem keepLoad_congr (l : Load) : loadRest (keepLoad s l) = loadRest (keepLoad t l) :=
  show keepLoad (loadRest s) l = keepLoad (loadRest t) l by rw [h]

/-- An image is checked and placed by the models loaded and the map in force. -/
theorem buildModel_congr (img : Option (List Byte)) (region : Nat) : buildModel s img region = buildModel t img region :=
  show buildModel (loadRest s) img region = buildModel (loadRest t) img region by rw [h]

end

/-! ### The reply of a load (11 R344) -/

theorem u32_loadReply (handle conflicts record sec places : Nat) (report : List Byte) (coded : Nat) :
    u32 (loadReply handle conflicts record sec places report coded) 0 = handle % 2 ^ 32 := by
  simp only [u32, slice, loadReply, leBytes, leNat, List.cons_append, List.drop_zero, List.take_succ_cons, List.take_zero,
    BitVec.toNat_ofNat]
  omega

/-! ### The two rows -/

theorem loadChecked_pass {s : State} {r : Req} {cs : List (Bool × Status × Nat)} {ok : State → State} (h : firstErr cs = none) :
    loadChecked s r cs ok = ok s := by
  simp [loadChecked, h]

/-- The reply of a load that failed. -/
def failedLoad (r : Req) (e : LoadErr) : Load := ⟨r, e.st, e.detail, loadReply 0 0 e.record e.section_ 0 [] 0⟩

/-- The reply of a load into an index and its generation. -/
def doneLoad (r : Req) (img : Option (List Byte)) (i gen : Nat) (m : Model) : Load :=
  ⟨r, .ok, 0, loadReply (i + 2 ^ 12 * gen) (conflicts m) 0xFFFFFFFFFFFFFFFF 0xFFFF m.placements.length (scaleReport (img.getD []))
    m.codedSize⟩

/-- A load ends with the first check that fails, or with the model at the lowest free index. -/
def loadEnds (s : State) (r : Req) (img : Option (List Byte)) : Except LoadErr Model → State
  | .error e => keepLoad (loadFailed s e) (failedLoad r e)
  | .ok m =>
    let i := (lowestFree s.models 4096 0).getD 0
    keepLoad (installModel s i m) (doneLoad r img i (nextModelGen s i) m)

section
variable {s t : State} (h : loadRest s = loadRest t) (r : Req) (img : Option (List Byte))
include h

/-- A load that fails keeps its reply, and changes no model. -/
theorem loadEnds_error (e : LoadErr) : loadRest (loadEnds s r img (.error e)) = loadRest (keepLoad t (failedLoad r e)) :=
  keepLoad_congr ((loadRest_loadFailed ..).trans h) _

/-- A load that passes puts its model at the lowest free index. -/
theorem loadEnds_ok {i : Nat} (m : Model) (hi : lowestFree t.models 4096 0 = some i) :
    loadRest (loadEnds s r img (.ok m)) = loadRest (keepLoad (tableWith t i m) (doneLoad r img i (nextModelGen t i) m)) := by
  have hinstalled : loadRest (installModel s i m) = loadRest (tableWith t i m) :=
    (loadRest_installModel ..).trans (tableWith_congr h i m)
  simp only [loadEnds, models_congr h, hi, Option.getD_some, nextModelGen_congr h]
  exact keepLoad_congr hinstalled _

end

/-- What an accepted MODEL_LOAD reads of its image. -/
def imageRead (s : State) (r : Req) (p : List Byte) : Option (List Byte) × State := readImage (unqueue s r 0x20) (u64 p 0) (u64 p 8)

/-- The image is read, and the load is taken until its reply. -/
def loadTaken (s : State) (r : Req) (p : List Byte) : State := hold (imageRead s r p).2 r 0x20 none none

theorem loadRest_loadTaken (s : State) (r : Req) (p : List Byte) : loadRest (loadTaken s r p) = loadRest s :=
  (loadRest_hold ..).trans ((loadRest_readImage ..).trans (loadRest_unqueue ..))

theorem exec_modelLoad {s : State} {r : Req} {p : List Byte} (hready : Ready s r 0x20 none none) (hlen : p.length = 16)
    (hregion : RegionOk s (u64 p 0) (u64 p 8) 64 false) :
    exec (.modelLoad r p) s =
      .next (loadEnds (loadTaken s r p) r (imageRead s r p).1 (buildModel (unqueue s r 0x20) (imageRead s r p).1 (u64 p 8))) := by
  have hchecks : firstErr ((p.length != 16, badLength) :: regionChecks (unqueue s r 0x20) (u64 p 0) (u64 p 8) 64 false) = none := by
    rw [regionChecks_unqueue, hlen]
    exact (firstErr_none (region_pass hregion) :)
  have hbuild : buildModel (loadTaken s r p) (imageRead s r p).1 (u64 p 8) =
      buildModel (unqueue s r 0x20) (imageRead s r p).1 (u64 p 8) :=
    buildModel_congr ((loadRest_loadTaken ..).trans (loadRest_unqueue ..).symm) ..
  have hgen : nextModelGen (imageRead s r p).2 = nextModelGen (loadTaken s r p) :=
    funext (nextModelGen_congr (loadRest_hold ..).symm)
  show execModelLoad r p s = _
  rw [execModelLoad, serve_ready hready, loadChecked_pass hchecks, ← hbuild, loadEnds.eq_def, ← hgen]
  rfl

theorem exec_modelLoadComplete {s : State} {l : Load} (h : s.loads.find? (fun x => x.r == l.r) = some l) :
    exec (.modelLoadComplete l.r) s =
      .next (reply { s with loads := s.loads.filter (fun x => !(x.r == l.r)) } l.r 0x20 l.status l.detail l.payload) := by
  show execModelLoadComplete l.r s = _
  rw [execModelLoadComplete, h]

end Sys2Proof.Machine

open Sys2Proof Sys2Proof.Machine

/-- Settles O16: a load ends as its image's checks do (`exec_modelLoad`), an index is left for a model that passes them
(`lowestFree_of_buildModel`), and its installation leaves the rest of the state alone (`loadEnds_ok`, `loadRest_installModel`). -/
theorem modelLoadInstallsACheckedImage : Obligations.ModelLoadInstallsACheckedImage := by
  refine ⟨fun s r p hready hlen hregion => ?load, fun s l hfind => exec_modelLoadComplete hfind⟩
  case load =>
    refine ⟨_, exec_modelLoad hready hlen hregion, ?_⟩
    show _ ∧ _ ∧ (∀ e, buildModel (unqueue s r 0x20) (imageRead s r p).1 (u64 p 8) = .error e → _) ∧
      (∀ m, buildModel (unqueue s r 0x20) (imageRead s r p).1 (u64 p 8) = .ok m → _)
    cases hbuild : buildModel (unqueue s r 0x20) (imageRead s r p).1 (u64 p 8) with
    | error e =>
      have hends := loadEnds_error (loadRest_loadTaken s r p) r (imageRead s r p).1 e
      rw [ctxs_congr hends, out_congr hends, models_congr hends, loads_congr hends]
      refine ⟨rfl, rfl, ?_, fun _ hok => nomatch hok⟩
      rintro _ ⟨⟩
      exact ⟨rfl, rfl⟩
    | ok m =>
      obtain ⟨i, hi⟩ : ∃ i, lowestFree s.models 4096 0 = some i := by simpa using lowestFree_of_buildModel hbuild
      have hends := loadEnds_ok (loadRest_loadTaken s r p) r (imageRead s r p).1 m hi
      rw [ctxs_congr hends, out_congr hends, models_congr hends, loads_congr hends]
      refine ⟨rfl, rfl, (fun _ herror => nomatch herror), ?_⟩
      rintro _ ⟨⟩
      exact ⟨i, hi, lookup_put_same .., fun j hj => lookup_put_other _ _ hj, _, rfl, rfl, rfl, u32_loadReply ..⟩
end

section
/-!
PROOFS. STATS_READ (11 R355): what a read that passes its checks replies, and the most probable state that it reports (03 R115).
-/

namespace Sys2Proof.Machine

/-! ### The most probable state (R115) -/

/-- A walk over the numbers below `n + 1` that moves on only to a greater value ends at the lowest number with the greatest value. -/
theorem foldl_range_argmax {α : Type} [LinearOrder α] (f : Nat → α) (n : Nat) :
    let b := (List.range (n + 1)).foldl (fun b k => if f b < f k then k else b) 0
    b < n + 1 ∧ (∀ k, k < n + 1 → f k ≤ f b) ∧ (∀ k, k < b → f k < f b) := by
  induction n with
  | zero => simp
  | succ n ih =>
    obtain ⟨hlt, hmax, hlow⟩ := ih
    rw [List.range_succ, List.foldl_append]
    generalize (List.range (n + 1)).foldl (fun b k => if f b < f k then k else b) 0 = b at hlt hmax hlow
    simp only [List.foldl_cons, List.foldl_nil]
    split
    case isTrue hmore =>
      have below : ∀ k, k < n + 1 → f k < f (n + 1) := fun k hk => (hmax k hk).trans_lt hmore
      refine ⟨by omega, fun k hk => ?_, below⟩
      rcases Nat.lt_succ_iff_lt_or_eq.mp hk with hk | rfl
      · exact (below k hk).le
      · exact le_rfl
    case isFalse hless =>
      refine ⟨by omega, fun k hk => ?_, hlow⟩
      rcases Nat.lt_succ_iff_lt_or_eq.mp hk with hk | rfl
      · exact hmax k hk
      · exact not_lt.mp hless

/-- R115: the smallest state with the largest count. -/
theorem mostProbable_spec {row : List Nat} (h : row ≠ []) :
    mostProbable row < row.length ∧ (∀ k, k < row.length → row.getD k 0 ≤ row.getD (mostProbable row) 0) ∧
    (∀ k, k < mostProbable row → row.getD k 0 < row.getD (mostProbable row) 0) := by
  obtain ⟨n, hn⟩ := Nat.exists_eq_succ_of_ne_zero (mt List.length_eq_zero_iff.mp h)
  rw [mostProbable, hn]
  exact foldl_range_argmax (fun k => row.getD k 0) n

/-! ### The row -/

/-- The data that a STATS_READ of a context selects. -/
def statsOut (s : State) (c : Ctx) (p : List Byte) : List Byte :=
  statsData (ctxModel s c) c (ctxNow c) (u8 p 4) (u8 p 5) (u32 p 8) (u32 p 12)

/-- What a STATS_READ reads: of an unseated context, the bytes of its HBM copy that hold the data. -/
def statsGot (s : State) (c : Ctx) (p : List Byte) : Bool × State :=
  if c.seat.isSome then (true, s) else readSpans s c.addr (statsSpans (ctxModel s c) c (u8 p 4) (u8 p 5) (u32 p 8) (u32 p 12))

/-- The operands of a STATS_READ of a context are in range, their reserved fields are zero (R355). -/
def StatsFit (s : State) (c : Ctx) (p : List Byte) : Prop :=
  p.length = 24 ∧ u16 p 6 = 0 ∧ u8 p 4 ≤ 5 ∧ (u8 p 4 ≠ 4 → u8 p 5 = 0) ∧ (u8 p 4 = 4 → u8 p 5 < c.replicas) ∧
  (u8 p 4 = 0 ∨ u8 p 4 = 5 → u32 p 8 = 0 ∧ u32 p 12 = 0) ∧ u32 p 8 + u32 p 12 ≤ (ctxModel s c).vars.length

/-- The checks of STATS_READ on the selection, in their order. -/
def statsChecks (s : State) (p : List Byte) : List (Bool × Status × Nat) :=
  [(p.length != 24, badLength),
   (u16 p 6 != 0 || (u8 p 4 != 4 && decide (u8 p 4 < 6) && u8 p 5 != 0) ||
     ((u8 p 4 == 0 || u8 p 4 == 5) && (u32 p 8 != 0 || u32 p 12 != 0)), badReserved),
   ((ctxOf s (u32 p 0)).isNone, noContext), (decide (5 < u8 p 4), badRange)]

/-- The checks of STATS_READ on the range and the region, in their order. -/
def statsRanges (s : State) (c : Ctx) (p : List Byte) : List (Bool × Status × Nat) :=
  [(decide ((ctxModel s c).vars.length < u32 p 8 + u32 p 12) || (u8 p 4 == 4 && decide (c.replicas ≤ u8 p 5)) ||
     (u64 p 16 == 0 && decide (8192 < (statsOut s c p).length)), badRange)] ++
  (if u64 p 16 = 0 then [] else regionChecks s (u64 p 16) (statsOut s c p).length 64 true)

section
variable {s : State} {p : List Byte} {c : Ctx} (hfit : StatsFit s c p)
include hfit

theorem statsChecks_pass (hctx : ctxOf s (u32 p 0) = some c) : firstErr (statsChecks s p) = none := by
  obtain ⟨hlen, hzero, hsel, hrep, -, hwhole, -⟩ := hfit
  have hrep_zero : (u8 p 4 != 4 && decide (u8 p 4 < 6) && u8 p 5 != 0) = false := by
    by_cases h4 : u8 p 4 = 4 <;> simp [h4, hrep]
  have hrange_zero : ((u8 p 4 == 0 || u8 p 4 == 5) && (u32 p 8 != 0 || u32 p 12 != 0)) = false := by
    by_cases hw : u8 p 4 = 0 ∨ u8 p 4 = 5
    · simp [hwhole hw]
    · simpa using fun h => absurd h hw
  simp [statsChecks, firstErr, hlen, hzero, hrep_zero, hrange_zero, hctx, Nat.not_lt_of_le hsel]

theorem statsRanges_pass (hinline : u64 p 16 = 0 → (statsOut s c p).length ≤ 8192)
    (hregion : u64 p 16 ≠ 0 → RegionOk s (u64 p 16) (statsOut s c p).length 64 true) : firstErr (statsRanges s c p) = none := by
  obtain ⟨-, -, -, -, hreplica, -, hrange⟩ := hfit
  refine firstErr_none (fun e he => ?_)
  rcases List.mem_append.mp he with he | he
  · rw [List.mem_singleton.mp he]
    simpa [hrange] using ⟨hreplica, hinline⟩
  · split at he
    · cases he
    · exact region_pass (hregion ‹_›) e he

end

theorem regionOk_unqueue (s : State) (r : Req) (op a n align : Nat) (write : Bool) :
    RegionOk (unqueue s r op) a n align write ↔ RegionOk s a n align write := by
  obtain ⟨_, _, _, h⟩ := unqueue_only s r op
  rw [h]
  rfl

/-- A STATS_READ that passes its checks over words that can be read replies its data inline, or writes it to its region. -/
theorem exec_statsRead {s : State} {r : Req} {p : List Byte} {c : Ctx} (hready : Ready s r 0x46 (some (ctxIndex (u32 p 0))) none)
    (hctx : ctxOf s (u32 p 0) = some c) (hfit : StatsFit s c p) (hinline : u64 p 16 = 0 → (statsOut s c p).length ≤ 8192)
    (hregion : u64 p 16 ≠ 0 → RegionOk s (u64 p 16) (statsOut s c p).length 64 true)
    (hgot : (statsGot (unqueue s r 0x46) c p).1 = true) :
    exec (.statsRead r p) s = .next (
      if u64 p 16 = 0 then reply (statsGot (unqueue s r 0x46) c p).2 r 0x46 .ok 0 (statsOut s c p)
      else reply (writeHbm (statsGot (unqueue s r 0x46) c p).2 (u64 p 16) (statsOut s c p)) r 0x46 .ok 0
        (leBytes 8 (statsOut s c p).length)) := by
  show execStatsRead r p s = _
  have hmodel : ctxModel s c = ctxModel (unqueue s r 0x46) c := (ctxModel_unqueue ..).symm
  have hout : statsOut s c p = statsOut (unqueue s r 0x46) c p := by simp only [statsOut, hmodel]
  rw [StatsFit, hmodel] at hfit
  rw [hout] at hinline hregion ⊢
  rw [← regionOk_unqueue s r 0x46] at hregion
  rw [← ctxOf_unqueue s r 0x46] at hctx
  rw [execStatsRead, serve_ready hready]
  refine congrArg _ ((checked_pass (statsChecks_pass hfit hctx)).trans ?_)
  simp only [hctx]
  refine (checked_pass (statsRanges_pass hfit hinline hregion)).trans ?_
  exact if_neg (by rw [← statsGot, hgot]; decide)

end Sys2Proof.Machine

open Sys2Proof Sys2Proof.Machine

/-- Settles O23: a read that passes its checks replies its selection (`exec_statsRead`), and a walk that moves on only to a greater
count ends at the smallest state with the largest one (`mostProbable_spec`). -/
theorem statsReadReturnsTheSelection : Obligations.StatsReadReturnsTheSelection := by
  refine ⟨?read, fun _ _ _ _ _ _ => rfl, fun _ => mostProbable_spec⟩
  case read =>
    intro s r p c hready hlen hzero hsel hrep hreplica hwhole hctx hrange u m out got hgot
    have hmodel : ctxModel u c = m := ctxModel_unqueue ..
    have hgot_eq : got = statsGot u c p := by simp only [got, statsGot, hmodel]
    rw [hgot_eq] at hgot ⊢
    have hfit : StatsFit s c p := ⟨hlen, hzero, hsel, hrep, hreplica, hwhole, hrange⟩
    constructor
    · intro hdest hfits
      rw [exec_statsRead hready hctx hfit (fun _ => hfits) (absurd hdest) hgot, if_pos hdest]
      rfl
    · intro hdest hregion
      rw [exec_statsRead hready hctx hfit (fun h => absurd h hdest) (fun _ => hregion) hgot, if_neg hdest]
      rfl
end

section
/-!
PROOFS. RUN_RESUME, RUN_PAUSE and RUN_ABORT (04 R128, R129, 08 R271, R274, 11 R353): what the end of a run leaves alone, the run lists,
and what each command answers by the state of its context.
-/

namespace Sys2Proof.Machine

/-! ### The tables of contexts and models, and what leaves them alone -/

/-- The tables of contexts and models. -/
def tables (s : State) : Map Ctx × Map Model := (s.ctxs, s.models)

theorem tables_unqueue (s : State) (r : Req) (op : Nat) : tables (unqueue s r op) = tables s := by
  simp [tables]

theorem tables_hold (s : State) (r : Req) (op : Nat) (c m : Option Nat) (md : Modes) : tables (hold s r op c m md) = tables s := by
  simp [tables]

theorem tables_reply (s : State) (r : Req) (op : Nat) (st : Status) (d : Nat) (p : List Byte) (o : Nat) :
    tables (reply s r op st d p o) = tables s := by
  simp [tables]

theorem tables_readHbm (s : State) (a n : Nat) : tables (readHbm s a n).2 = tables s := by
  simp [tables]

theorem tables_writeHbm (s : State) (a : Nat) (bs : List Byte) : tables (writeHbm s a bs) = tables s := by
  simp [tables]

theorem tables_writeDiff (s : State) (a : Nat) (old new : List Byte) : tables (writeDiff s a old new) = tables s :=
  each_keeps tables (fun _ _ => tables_writeHbm ..) _ s

theorem tables_takeSave (c : Ctx) (st : RunState) (repaired : Bool) (s : State) (v : Save) :
    tables (takeSave c st repaired s v) = tables s := by
  have hread : tables (if c.seat.isSome then (some [], s) else readHbm s c.addr c.used).2 = tables s := by
    split
    · rfl
    · exact tables_readHbm ..
  unfold takeSave
  dsimp only
  split
  · exact (tables_reply ..).trans hread
  · exact hread

theorem tables_takeSaves (s : State) (i : Nat) (st : RunState) (repaired : Bool) : tables (takeSaves s i st repaired) = tables s := by
  unfold takeSaves
  split
  · rfl
  · exact each_keeps tables (tables_takeSave _ _ _) _ s

theorem tables_failPauses (s : State) (v : Run) : tables (failPauses s v) = tables s :=
  each_keeps tables (fun _ _ => tables_reply ..) _ s

theorem tables_runReply (s : State) (v : Run) (reason : Nat) (d : CtxData) : tables (runReply s v reason d) = tables s := by
  unfold runReply
  split
  · exact tables_reply ..
  · exact tables_reply ..

theorem ctxs_of_tables {s t : State} (h : tables t = tables s) : t.ctxs = s.ctxs := congrArg Prod.fst h

theorem models_of_tables {s t : State} (h : tables t = tables s) : t.models = s.models := congrArg Prod.snd h

/-- A context that is rewritten takes its new content in the table. -/
theorem tables_rewriteCtx (s : State) (i : Nat) (old new : Ctx) : tables (rewriteCtx s i old new) = (put s.ctxs i new, s.models) :=
  tables_writeDiff ..

theorem tables_writeBack (s : State) (i : Nat) (old new : Ctx) : tables (writeBack s i old new) = (put s.ctxs i new, s.models) :=
  tables_writeHbm ..

/-! ### Run lists (08 R271, R274) -/

theorem runList_congr {s t : State} (h : t.models = s.models) (mi place : Nat) : runList t mi place = runList s mi place := by
  rw [runList, h, runList]

/-- A context that left the lists of a model stands in none of them. -/
theorem not_mem_runList_leaveLists (s : State) (mi i place : Nat) : i ∉ runList (leaveLists s mi i) mi place := by
  simp only [runList, leaveLists, lookup_adjust_same]
  cases lookup s.models mi with
  | none => simp
  | some m => cases h : m.lists[place]? <;> simp [h]

/-- A context that joins a list stands at its tail. -/
theorem runList_joinList {s : State} {mi place : Nat} {m : Model} (hm : lookup s.models mi = some m) (hplace : place < m.lists.length)
    (i : Nat) : runList (joinList s mi place i) mi place = runList s mi place ++ [i] := by
  simp [runList, joinList, hm, modAt, hplace]

/-- A model has given a run its number. -/
def numberTaken (s : State) (mi : Nat) : State :=
  { s with models := adjust s.models mi (fun m => { m with nextRun := m.nextRun + 1 }) }

theorem lookup_numberTaken {s : State} {mi : Nat} {m : Model} (hm : lookup s.models mi = some m) :
    lookup (numberTaken s mi).models mi = some { m with nextRun := m.nextRun + 1 } := by
  simp [numberTaken, hm]

section
variable (s : State) (i : Nat) (c : Ctx) (r : Req) (op : Nat) (md : Modes) (seeded : Bool) (before : Option CtxData)

/-- A run that is admitted takes its model's next number, and its context is Running. -/
theorem admitRun_ctx : ∃ x, (admitRun s i c r op md seeded before).1 = { c with st := .running, run := some x, sat := 0 } ∧
    x.number = (ctxModel s c).nextRun := ⟨_, rfl, rfl⟩

theorem admitRun_ctxs : (admitRun s i c r op md seeded before).2.ctxs = s.ctxs := rfl

/-- A run that is admitted goes to the tail of the list of placement number mod P. -/
theorem admitRun_runList {m : Model} (hm : lookup s.models c.model = some m) (hfit : ListsFit m) :
    runList (admitRun s i c r op md seeded before).2 c.model (m.nextRun % m.placements.length) =
      runList s c.model (m.nextRun % m.placements.length) ++ [i] := by
  obtain ⟨hlists, hsome⟩ := hfit
  have hpos : 0 < m.placements.length := List.length_pos_of_ne_nil hsome
  have hmodel : ctxModel s c = m := by simp [ctxModel, lookupD, hm]
  have hlist : ∀ place, runList (numberTaken s c.model) c.model place = runList s c.model place := by
    simp [runList, lookup_numberTaken hm, hm]
  have hjoin : (admitRun s i c r op md seeded before).2 = joinList (numberTaken s c.model) c.model
      ((ctxModel s c).nextRun % max 1 (ctxModel s c).placements.length) i := rfl
  rw [hjoin, hmodel, Nat.max_eq_right hpos, runList_joinList (lookup_numberTaken hm) (by rw [hlists]; exact Nat.mod_lt _ hpos), hlist]

end

/-! ### A context out of its seat -/

/-- A context that has left its seat and its run, in a new state, its content as at the last boundary. -/
def unseated (c : Ctx) (st : RunState) : Ctx :=
  { c with data := ctxNow c, seat := none, run := none, st := st
           sat := if st = .paused then c.run.elim 0 (fun v => (runNow c v).satVars) else 0 }

/-- Of the tables, the end of a run changes the context's entry and its model's lists. -/
theorem tables_unseat (s : State) (i : Nat) (c : Ctx) (st : RunState) :
    tables (unseat s i c st) = (put s.ctxs i (unseated c st), (leaveLists s c.model i).models) := by
  have heq : unseat s i c st =
      let left := forgetItems (leaveLists s c.model i) (itemOfCtx i)
      if c.seat.isSome then writeBack left i c (unseated c st) else rewriteCtx left i c (unseated c st) := rfl
  rw [heq]
  dsimp only
  split
  · exact tables_writeBack ..
  · exact tables_rewriteCtx ..

/-- A context whose sweep in progress is abandoned. -/
def withoutSweep (c : Ctx) : Ctx := { c with seat := c.seat.map (fun t => { t with sweep := none }) }

theorem ctxNow_withoutSweep (c : Ctx) : ctxNow (withoutSweep c) = ctxNow c := by
  cases h : c.seat <;> simp [ctxNow, withoutSweep, h]

theorem tables_countAbandoned (s : State) (w : Sweep) : tables (countAbandoned s w) = tables s := by
  refine each_keeps tables (fun s h => ?_) _ s
  split
  · rfl
  · simp [tables]

/-- Of the tables, an abandoned sweep changes the seat of its context. -/
theorem abandonSweep_tables {s : State} {i : Nat} {c : Ctx} (hc : lookup s.ctxs i = some c) :
    lookup (abandonSweep s i).ctxs i = some (withoutSweep c) ∧ (abandonSweep s i).models = s.models ∧
    ∀ j, j ≠ i → lookup (abandonSweep s i).ctxs j = lookup s.ctxs j := by
  have standing (h : withoutSweep c = c) : lookup s.ctxs i = some (withoutSweep c) ∧ s.models = s.models ∧
      ∀ j, j ≠ i → lookup s.ctxs j = lookup s.ctxs j := ⟨by rw [h, hc], rfl, fun _ _ => rfl⟩
  unfold abandonSweep
  rw [hc]
  cases hseat : c.seat with
  | none => simpa [hseat] using standing (by rw [withoutSweep, hseat, Option.map_none, ← hseat])
  | some seat =>
    cases hsweep : seat.sweep with
    | none => simpa [hseat, hsweep] using standing (by rw [withoutSweep, hseat, Option.map_some, ← hsweep, ← hseat])
    | some w =>
      have ht := tables_countAbandoned s w
      simp only [Option.bind_some, hseat, hsweep, modCtx_ctxs, modCtx_models, ctxs_of_tables ht, models_of_tables ht]
      refine ⟨?_, trivial, fun j hj => lookup_adjust_other _ _ hj⟩
      simp [hc, withoutSweep, hseat]

/-- Of the tables, RUN_ABORT returns its context, Idle and out of its model's lists, to its content at the last boundary. -/
theorem abortRun_tables {s : State} {i : Nat} {c : Ctx} (r : Req) (hc : lookup s.ctxs i = some c) :
    lookup (abortRun s r i).ctxs i = some (unseated (withoutSweep c) .idle) ∧
    (∀ j, j ≠ i → lookup (abortRun s r i).ctxs j = lookup s.ctxs j) ∧
    (∀ place, i ∉ runList (abortRun s r i) c.model place) := by
  obtain ⟨hnow, -, hothers⟩ := abandonSweep_tables hc
  have hmodel : (withoutSweep c).model = c.model := rfl
  generalize withoutSweep c = d at hnow hmodel
  have ht : tables (abortRun s r i) =
      (put (abandonSweep s i).ctxs i (unseated d .idle), (leaveLists (abandonSweep s i) d.model i).models) := by
    unfold abortRun
    dsimp only
    rw [hnow]
    dsimp only
    rw [tables_reply]
    split
    · rw [tables_takeSaves, tables_unseat]
    · rw [tables_failPauses, tables_runReply, tables_takeSaves, tables_unseat]
  simp only [tables, Prod.mk.injEq] at ht
  obtain ⟨hctxs, hmodels⟩ := ht
  refine ⟨by rw [hctxs, lookup_put_same], fun j hj => ?_, fun place => ?_⟩
  · rw [hctxs, lookup_put_other _ _ hj, hothers j hj]
  · rw [runList_congr hmodels, hmodel]
    exact not_mem_runList_leaveLists _ _ _ _

/-! ### The commands -/

/-- A resumed run is admitted, with its context's content but for energies computed in full (04 R127). -/
def resumed (s : State) (r : Req) (p : List Byte) (c : Ctx) (md : Modes) : Ctx × State :=
  let d := { c.data with energy := fullEnergies (ctxModel s c) c.data }
  let i := ctxIndex (u32 p 0)
  admitRun (hold s r 0x44 (some i) none md) i { c with data := d } r 0x44 md true (some c.data)

theorem resumed_ctx {s : State} (r : Req) (p : List Byte) {c : Ctx} (md : Modes) {m : Model} (hm : lookup s.models c.model = some m) :
    ∃ x, (resumed s r p c md).1 =
        { c with data := { c.data with energy := fullEnergies m c.data }, st := .running, run := some x, sat := 0 } ∧
      x.number = m.nextRun := by
  have hmodel : ctxModel s c = m := by rw [ctxModel, lookupD, hm, Option.getD_some]
  have hnumber : (ctxModel (hold s r 0x44 (some (ctxIndex (u32 p 0))) none md) c).nextRun = m.nextRun := by
    rw [ctxModel, hold_models, ← ctxModel, hmodel]
  rw [resumed, hmodel, ← hnumber]
  exact admitRun_ctx ..

theorem resumed_ctxs (s : State) (r : Req) (p : List Byte) (c : Ctx) (md : Modes) : (resumed s r p c md).2.ctxs = s.ctxs :=
  (admitRun_ctxs ..).trans (hold_ctxs ..)

theorem resumed_runList {s : State} (r : Req) (p : List Byte) {c : Ctx} (md : Modes) {m : Model}
    (hm : lookup s.models c.model = some m) (hfit : ListsFit m) :
    runList (resumed s r p c md).2 c.model (m.nextRun % m.placements.length) =
      runList s c.model (m.nextRun % m.placements.length) ++ [ctxIndex (u32 p 0)] := by
  rw [← runList_congr (hold_models s r 0x44 (some (ctxIndex (u32 p 0))) none md)]
  exact admitRun_runList _ _ { c with data := _ } _ _ _ _ _ (by rw [hold_models, hm]) hfit

/-- The operands of a command of a context alone pass its checks (11 R353). -/
theorem handleChecks_pass {s : State} {p : List Byte} {c : Ctx} (hlen : p.length = 8) (hzero : allZero (slice p 4 4) = true)
    (hctx : ctxOf s (u32 p 0) = some c) : firstErr (handleChecks s p) = none := by
  simp [handleChecks, firstErr, hlen, hzero, hctx]

/-- The context that a handle names stands at its index. -/
theorem lookup_of_ctxOf {s : State} {h : Nat} {c : Ctx} (hctx : ctxOf s h = some c) : lookup s.ctxs (ctxIndex h) = some c := by
  unfold ctxOf at hctx
  split at hctx
  case h_1 d hd =>
    split at hctx
    case isTrue => rw [hd, hctx]
    case isFalse => cases hctx
  case h_2 => cases hctx

/-- RUN_PAUSE answers by the state of its context: it waits for the boundary of a run that goes on (04 R128, R129). -/
def pauseAnswer (s : State) (r : Req) (i : Nat) (c : Ctx) : State :=
  match c.st with
  | .idle => reply s r 0x43 .notReady 0x0361
  | .paused => reply s r 0x43 .ok
  | .running =>
    if runOver c then reply s r 0x43 .notReady 0x0361
    else modCtx (hold s r 0x43 (some i) none) i (fun c => { c with run := c.run.map (fun v => { v with pauses := v.pauses ++ [r] }) })

section
variable {s : State} {r : Req} {p : List Byte} {c : Ctx} (hlen : p.length = 8) (hzero : allZero (slice p 4 4) = true)
  (hctx : ctxOf s (u32 p 0) = some c)
include hlen hzero hctx

theorem exec_runPause (hready : Ready s r 0x43 (some (ctxIndex (u32 p 0))) none) :
    exec (.runPause r p) s = .next (pauseAnswer (unqueue s r 0x43) r (ctxIndex (u32 p 0)) c) := by
  rw [← ctxOf_unqueue s r 0x43] at hctx
  show execRunPause r p s = _
  rw [execRunPause, serve_ready hready, checked_pass (handleChecks_pass hlen hzero hctx), hctx]
  rfl

theorem exec_runAbort (hready : Ready s r 0x45 (some (ctxIndex (u32 p 0))) none) :
    exec (.runAbort r p) s = .next (
      if c.st = .idle ∨ runOver c then reply (unqueue s r 0x45) r 0x45 .notReady 0x0361
      else abortRun (unqueue s r 0x45) r (ctxIndex (u32 p 0))) := by
  rw [← ctxOf_unqueue s r 0x45] at hctx
  show execRunAbort r p s = _
  rw [execRunAbort, serve_ready hready, checked_pass (handleChecks_pass hlen hzero hctx), hctx]

theorem exec_runResume (hready : Ready s r 0x44 (some (ctxIndex (u32 p 0))) none) :
    exec (.runResume r p) s = .next (
      let a := resumed (unqueue s r 0x44) r p c (modesOf s r 0x44)
      if c.st = .paused then rewriteCtx a.2 (ctxIndex (u32 p 0)) c a.1
      else reply (unqueue s r 0x44) r 0x44 .notReady 0x0361) := by
  rw [← ctxOf_unqueue s r 0x44] at hctx
  show execRunResume r p s = _
  rw [execRunResume, serve_ready hready, checked_pass (handleChecks_pass hlen hzero hctx), hctx]
  rfl

end

end Sys2Proof.Machine

open Sys2Proof Sys2Proof.Machine

/-- Settles O25: each command answers by the state of its context (`exec_runResume`, `exec_runPause`, `exec_runAbort`); a resumed run
stands at the tail of its list (`admitRun_runList`), and an aborted one leaves the tables but for its context (`abortRun_tables`). -/
theorem runsPauseResumeAndAbort : Obligations.RunsPauseResumeAndAbort := by
  refine ⟨?resume, fun s r p c hlen hzero hctx => ⟨fun hready => ?pause, fun hready => ?abort⟩⟩
  case resume =>
    intro s r p c m hready hlen hzero hctx hm hfit i place
    rw [exec_runResume hlen hzero hctx hready]
    refine ⟨fun hpaused => ?_, fun hother => congrArg _ (if_neg hother)⟩
    rw [← unqueue_models s r 0x44] at hm
    obtain ⟨x, hx, hnumber⟩ := resumed_ctx r p (modesOf s r 0x44) hm
    have ht := tables_rewriteCtx (resumed (unqueue s r 0x44) r p c (modesOf s r 0x44)).2 i c
      (resumed (unqueue s r 0x44) r p c (modesOf s r 0x44)).1
    rw [resumed_ctxs, unqueue_ctxs, tables, Prod.mk.injEq] at ht
    obtain ⟨hctxs, hmodels⟩ := ht
    refine ⟨_, _, x, congrArg _ (if_pos hpaused), by rw [hctxs, lookup_put_same], ?_, ?_, ?_, hnumber, ?_, fun j hj => ?_⟩
    · rw [hx]
    · rw [hx]
    · rw [hx]
    · rw [runList_congr hmodels, resumed_runList _ _ _ hm hfit, runList_congr (unqueue_models ..)]
    · rw [hctxs, lookup_put_other _ _ hj]
  case pause =>
    rw [exec_runPause hlen hzero hctx hready]
    have hc := lookup_of_ctxOf hctx
    refine ⟨fun hrunning hover => ?_, fun hpaused => by rw [pauseAnswer, hpaused], ?_⟩
    · rw [pauseAnswer, hrunning, hover]
      refine ⟨_, rfl, ?_, ?_, fun j hj => ?_⟩
      · simp
      · simp [hc, hrunning]
      · simp [lookup_adjust_other _ _ hj]
    · rintro (hidle | ⟨hrunning, hover⟩)
      · rw [pauseAnswer, hidle]
      · rw [pauseAnswer, hrunning, hover]
        rfl
  case abort =>
    rw [exec_runAbort hlen hzero hctx hready]
    refine ⟨fun hst hover => ?_, fun hdone => congrArg _ (if_pos hdone)⟩
    have hc : lookup (unqueue s r 0x45).ctxs (ctxIndex (u32 p 0)) = some c := by rw [unqueue_ctxs, lookup_of_ctxOf hctx]
    obtain ⟨hnow, hothers, hlists⟩ := abortRun_tables r hc
    refine ⟨_, unseated (withoutSweep c) .idle, congrArg _ (if_neg (by simp [hst, hover])), hnow, rfl, rfl, rfl,
      ctxNow_withoutSweep c, hlists, fun j hj => ?_⟩
    rw [hothers j hj, unqueue_ctxs]
end

section
/-!
PROOFS. Micro-steps of a sweep (03 R84 to R106, 07 R222): what the sweep that a step puts back shows, of any context that lives.
-/

namespace Sys2Proof.Machine

/-! ### The sweep put back -/

section
variable {s t : State} {core i : Nat} {c : Ctx} {seat : Seat} {w : Sweep}

/-- A micro-step of a context with a sweep is the step's own function of the context, its seat and its sweep. -/
theorem sweepStep_at (hc : lookup s.ctxs i = some c) (hw : sweepOf s i c = some (seat, w))
    (f : Ctx → Model → Seat → Sweep → State) : sweepStep s i f = .next (f c (ctxModel s c) seat w) := by
  simp [sweepStep, hc, hw]

/-- Readers outside the seat see what the seat holds of the last boundary (04 R128). -/
theorem contentOf_of_sweepOf (hc : lookup s.ctxs i = some c) (hw : sweepOf s i c = some (seat, w)) :
    contentOf s i = some seat.data := by
  simp [contentOf, hc, ctxNow, seat_of_sweepOf hw]

section
variable (hi : (lookup t.ctxs i).isSome)
include hi

theorem lookup_putSweep_live (w' : Sweep) :
    ∃ d : Ctx, lookup (putSweep t i seat w').ctxs i = some d ∧ d.seat = some { seat with sweep := some w' } := by
  obtain ⟨d, hd⟩ := Option.isSome_iff_exists.mp hi
  exact ⟨_, by rw [lookup_putSweep, hd, Option.map_some], rfl⟩

theorem sweepNow_putSweep_live (w' : Sweep) : sweepNow (putSweep t i seat w') i = some w' := by
  obtain ⟨d, hd, hseat⟩ := lookup_putSweep_live (seat := seat) hi w'
  simp [sweepNow, hd, hseat]

theorem contentOf_putSweep_live (w' : Sweep) : contentOf (putSweep t i seat w') i = some seat.data := by
  obtain ⟨d, hd, hseat⟩ := lookup_putSweep_live (seat := seat) hi w'
  simp [contentOf, hd, ctxNow, hseat]

theorem shareNow_putSweep_live {w' : Sweep} {h' : Share} (hh : w'.shares.find? (fun x => x.core == core) = some h') :
    shareNow (putSweep t i seat w') core i = some h' := by
  rw [shareNow, sweepNow_putSweep_live hi, Option.bind_some, hh]

end

theorem sweepNow_congr (h : t.ctxs = s.ctxs) (i : Nat) : sweepNow t i = sweepNow s i := by rw [sweepNow, h, sweepNow]

theorem contentOf_congr (h : t.ctxs = s.ctxs) (i : Nat) : contentOf t i = contentOf s i := by rw [contentOf, h, contentOf]

end

end Sys2Proof.Machine
end

section
/-!
PROOFS. Pass keys (07 R227, R229, R230).
-/

namespace Sys2Proof.Machine

/-- A sweep in which the key of a stream and replica has been drawn for a colour, and its generator has advanced by one pass. -/
def drawnSweep (w : Sweep) (t r k : Nat) : Sweep :=
  let g := genIndex w.work t r
  let out := (w.work.gens.getD g default).pass
  { w with
    work := { w.work with gens := w.work.gens.set g out.2 }
    keys := w.keys ++ [⟨t, r, k, out.1.1, out.1.2⟩]
    drawn := w.drawn ++ [(t, r, k)] }

/-- The cores that hold a copy of a generator have stepped it, each on hardware of its own (07 R222, R223). -/
def steppedCopies (s : State) (i t r : Nat) (cores : List Nat) : State :=
  each cores s (fun s p => bindGen (bump64 s (coreReg p 0x510) 1) p (i, t, r))

theorem steppedCopies_ctxs (s : State) (i t r : Nat) (cores : List Nat) : (steppedCopies s i t r cores).ctxs = s.ctxs :=
  each_keeps State.ctxs (f := fun s p => bindGen (bump64 s (coreReg p 0x510) 1) p (i, t, r)) (fun _ _ => bump64_ctxs ..) cores s

theorem exec_passKeyDraw {s : State} {i t r k : Nat} {c : Ctx} {seat : Seat} {w : Sweep} (hc : lookup s.ctxs i = some c)
    (hw : sweepOf s i c = some (seat, w)) (ht : (sweepStreams (ctxModel s c) (w.shares.map (·.block))).contains t = true)
    (hr : r < c.replicas) (hk : nextKey (ctxModel s c) w t r = some k) :
    exec (.passKeyDraw i t r) s = .next (steppedCopies (putSweep s i seat (drawnSweep w t r k)) i t r
      (copyCores s (ctxModel s c) (runCores s (ctxModel s c) seat.placement (pSubset seat.data.params)) t)) := by
  show execPassKeyDraw i t r s = _
  rw [execPassKeyDraw, sweepStep_at hc hw]
  simp only [ht, hk, Nat.not_le_of_lt hr]
  rfl

end Sys2Proof.Machine

open Sys2Proof Sys2Proof.Machine

/-- Settles O27: the row puts back the sweep with the key drawn (`exec_passKeyDraw`), and the stepped copies leave the contexts alone
(`steppedCopies_ctxs`). -/
theorem passKeysAreDrawnInOrder : Obligations.PassKeysAreDrawnInOrder := by
  intro s i t r k c seat w hc hw m ht hr hk g out
  have hi : (lookup s.ctxs i).isSome := by simp [hc]
  refine ⟨_, drawnSweep w t r k, exec_passKeyDraw hc hw ht hr hk, ?_, rfl, rfl, rfl, rfl, ?_⟩
  · rw [sweepNow_congr (steppedCopies_ctxs ..), sweepNow_putSweep_live hi]
  · rw [contentOf_congr (steppedCopies_ctxs ..), contentOf_putSweep_live hi, contentOf_of_sweepOf hc hw]
end

section
/-!
PROOFS. Field vectors and samples (03 R84, R89, R99, R100, R103): what the counting of a vector leaves alone, and the planes of a share
under a batch.
-/

namespace Sys2Proof.Machine

/-! ### What the counting of a vector leaves alone (06 R184, R216, R217) -/

/-- What the counts of a vector leave alone: whether the context lives, the cores' SPEC_DISCARD, and of the sweep its working content,
its shares and its keys. -/
def countView (i : Nat) (a : State × Sweep) : Bool × (Nat → Nat) × CtxData × List Share × List PassKey :=
  ((lookup a.1.ctxs i).isSome, fun p => count64 a.1 (coreReg p 0x410), a.2.work, a.2.shares, a.2.keys)

/-- The accumulation counters of a core are none of its SPEC_DISCARD. -/
theorem count64_countVector (s : State) (core replays saturated p : Nat) :
    count64 (countVector s core replays saturated) (coreReg p 0x410) = count64 s (coreReg p 0x410) := by
  unfold countVector
  split
  · rfl
  · rename_i q _
    have apart : ∀ o o', o = 0x410 ∨ o = 0x414 → o' = 0x310 ∨ o' = 0x314 → coreReg p o ≠ coreReg q o' := by
      unfold coreReg; omega
    have hhigh : coreReg p 0x410 + 4 = coreReg p 0x414 := rfl
    simp [count64, hhigh, regVal_bump_other, apart]

theorem countView_countVector (i : Nat) (s : State) (w : Sweep) (core replays saturated : Nat) :
    countView i (countVector s core replays saturated, w) = countView i (s, w) := by
  have hctxs : (countVector s core replays saturated).ctxs = s.ctxs := by
    unfold countVector
    split <;> simp
  simp [countView, hctxs, count64_countVector]

theorem countView_countPass (i : Nat) (m : Model) (cores : List Nat) (a : State × Sweep) (e : DensePass × PassTile) :
    countView i (countPass m cores a e) = countView i a := by
  unfold countPass
  split
  · rfl
  · exact countView_countVector ..

theorem countView_markReplay (i : Nat) (s : State) (w : Sweep) (replayed : Bool) :
    countView i (markReplay s i w replayed) = countView i (s, w) := by
  cases replayed with
  | false => rfl
  | true => simp [countView, markReplay, count64, regVal]

theorem countView_countField (m : Model) (cores : List Nat) (i core : Nat) (xs : List Nat) (q : Slot) (spec : Bool) (s : State)
    (w : Sweep) : countView i (countField m cores i core xs q spec s w) = countView i (s, w) := by
  have hpasses (es : List (DensePass × PassTile)) : countView i (es.foldl (countPass m cores) (s, w)) = countView i (s, w) :=
    each_keeps (countView i) (countView_countPass i m cores) es (s, w)
  unfold countField
  dsimp only
  split
  · exact hpasses _
  · rw [countView_markReplay, countView_countVector]
    exact hpasses _

/-! ### A batch of vectors -/

/-- The vectors of a batch complete on a share, over its committed plane or, of speculative work, the plane that it began from; the
counts leave the sweep alone. -/
theorem foldl_addVector (m : Model) (cores : List Nat) (i : Nat) (spec : Bool) (batch : List Slot) (a : State × Sweep × Share) :
    let b := batch.foldl (addVector m cores i spec) a
    countView i (b.1, b.2.1) = countView i (a.1, a.2.1) ∧
    b.2.2 = { a.2.2 with
      vecs := a.2.2.vecs ++ batch.map (fun q => vectorOf m a.2.1.work (planeFor a.2.2 spec q.rep) q.var q.rep spec) } := by
  induction batch generalizing a with
  | nil => simp
  | cons q batch ih =>
    obtain ⟨hview, hshare⟩ := ih (addVector m cores i spec a q)
    have hstep : countView i ((addVector m cores i spec a q).1, (addVector m cores i spec a q).2.1) = countView i (a.1, a.2.1) :=
      countView_countField ..
    have hwork : (addVector m cores i spec a q).2.1.work = a.2.1.work := congrArg (fun v => v.2.2.1) hstep
    refine ⟨hview.trans hstep, ?_⟩
    rw [List.foldl_cons, hshare, hwork]
    simp [addVector, planeFor]

/-- The engines' reads leave the contexts alone. -/
theorem readPlaces_ctxs (us : List (Nat × Nat × Nat)) (s : State) : (readPlaces us s).2.ctxs = s.ctxs := by
  induction us generalizing s with
  | nil => rfl
  | cons u us ih =>
    have hread : (readSpad s u.1 u.2.1 u.2.2).2.ctxs = s.ctxs := by
      obtain ⟨_, _, _, h⟩ := readSpad_only s u.1 u.2.1 u.2.2
      rw [h]
    unfold readPlaces
    dsimp only
    split
    · exact hread
    · exact (ih _).trans hread

/-- A share as the work of a colour begins on it: speculative work keeps the plane that it began from (03 R103). -/
def begunShare (h : Share) (spec : Bool) : Share := if spec && h.base.isNone then { h with base := some h.plane } else h

/-- The colour of a batch. -/
def batchColour (m : Model) (batch : List Slot) : Nat := colourOf m (batch.headD default).var

/-- A batch may be issued on a share: its slots and pass keys are in order, the sweep's engines meet no bad word at its first issue,
and no fence holds the colour's first products (03 R92, 06 R209, 14 R430). -/
def MayIssue (s : State) (core : Nat) (c : Ctx) (seat : Seat) (w : Sweep) (h : Share) (batch : List Slot) : Prop :=
  batchOk (ctxModel s c) w h c.replicas (batchColour (ctxModel s c) batch) batch = true ∧
  (w.issued = true ∨ (readPlaces (sweepPlaces s c seat w) s).1 = none) ∧
  (h.vecs.any (fun v => colourOf (ctxModel s c) v.var == batchColour (ctxModel s c) batch) = true ∨
    c.run.any (fun v => heldByFence s v.r core) = false)

/-- How the work of a batch is done on a share (03 R103). -/
def batchMode (s : State) (c : Ctx) (w : Sweep) (h : Share) (batch : List Slot) : Start :=
  modeOf (ctxModel s c) w h c.replicas (batchColour (ctxModel s c) batch) (specEn s h)

/-- The engines' reads of a sweep's first issue. -/
def firstReads (s : State) (c : Ctx) (seat : Seat) (w : Sweep) : Option (Nat × Bool) × State :=
  if w.issued then (none, s) else readPlaces (sweepPlaces s c seat w) s

theorem firstReads_ctxs (s : State) (c : Ctx) (seat : Seat) (w : Sweep) : (firstReads s c seat w).2.ctxs = s.ctxs := by
  unfold firstReads
  split
  · rfl
  · exact readPlaces_ctxs ..

theorem firstReads_clean {s : State} {c : Ctx} {seat : Seat} {w : Sweep}
    (h : w.issued = true ∨ (readPlaces (sweepPlaces s c seat w) s).1 = none) : (firstReads s c seat w).1 = none := by
  unfold firstReads
  split
  · rfl
  · exact h.resolve_left ‹_›

/-- The state, sweep and share after a batch of vectors. -/
def issuedBatch (s : State) (i : Nat) (c : Ctx) (seat : Seat) (w : Sweep) (h : Share) (batch : List Slot) (spec : Bool) :
    State × Sweep × Share :=
  let u := (firstReads s c seat w).2
  batch.foldl (addVector (ctxModel s c) (runCores u (ctxModel s c) seat.placement (pSubset seat.data.params)) i spec)
    (u, { w with issued := true }, begunShare h spec)

section
variable {s : State} {core i : Nat} {c : Ctx} {seat : Seat} {w : Sweep} {h : Share} {batch : List Slot}

theorem exec_fieldVectorComplete (hs : ShareAt s core i c seat w h) (hmay : MayIssue s core c seat w h batch)
    (hmode : batchMode s c w h batch ≠ .wait) :
    exec (.fieldVectorComplete core i batch) s = .next (
      let b := issuedBatch s i c seat w h batch (decide (batchMode s c w h batch = .speculative))
      putSweep b.1 i seat (setShare b.2.1 b.2.2)) := by
  obtain ⟨hok, hread, hfence⟩ := hmay
  have hclean := firstReads_clean hread
  rw [firstReads] at hclean
  have hgo : ¬(!batchOk (ctxModel s c) w h c.replicas (batchColour (ctxModel s c) batch) batch ||
      decide (batchMode s c w h batch = .wait) ||
      (!h.vecs.any (fun v => colourOf (ctxModel s c) v.var == batchColour (ctxModel s c) batch) &&
        c.run.any (fun v => heldByFence s v.r core))) = true := by
    rcases hfence with hbegun | hfree
    · simp [hok, hmode, hbegun]
    · simp [hok, hmode, hfree]
  show execFieldVectorComplete core i batch s = _
  refine (shareStep_at hs _).trans (congrArg _ ((if_neg hgo).trans ?_))
  dsimp only
  rw [hclean]
  rfl

/-- A share after a batch of vectors. -/
def batchShare (m : Model) (w : Sweep) (h : Share) (batch : List Slot) (spec : Bool) : Share :=
  { begunShare h spec with
    vecs := h.vecs ++ batch.map (fun q => vectorOf m w.work (planeFor (begunShare h spec) spec q.rep) q.var q.rep spec) }

theorem begunShare_kept (h : Share) (spec : Bool) :
    ∃ base, begunShare h spec = { h with base := base } ∧ (spec = true → base = some (h.base.getD h.plane)) := by
  cases spec with
  | false => exact ⟨h.base, rfl, nofun⟩
  | true =>
    cases hb : h.base with
    | none => exact ⟨some h.plane, by simp [begunShare, hb], fun _ => rfl⟩
    | some b => exact ⟨some b, (if_neg (by simp [hb])).trans (by rw [← hb]), fun _ => rfl⟩

theorem issuedBatch_spec (s : State) (i : Nat) (c : Ctx) (seat : Seat) (w : Sweep) (h : Share) (batch : List Slot) (spec : Bool) :
    (lookup (issuedBatch s i c seat w h batch spec).1.ctxs i).isSome = (lookup s.ctxs i).isSome ∧
    (issuedBatch s i c seat w h batch spec).2.1.shares = w.shares ∧
    (issuedBatch s i c seat w h batch spec).2.2 = batchShare (ctxModel s c) w h batch spec := by
  obtain ⟨base, hbase, -⟩ := begunShare_kept h spec
  obtain ⟨hview, hshare⟩ := foldl_addVector (ctxModel s c)
    (runCores (firstReads s c seat w).2 (ctxModel s c) seat.placement (pSubset seat.data.params)) i spec batch
    ((firstReads s c seat w).2, { w with issued := true }, begunShare h spec)
  simp only [countView, Prod.mk.injEq, firstReads_ctxs] at hview
  obtain ⟨hlive, -, -, hshares, -⟩ := hview
  refine ⟨hlive, hshares, hshare.trans ?_⟩
  rw [batchShare, hbase]

/-- A batch that may be issued shows on the core's share, and readers outside see the last boundary. -/
theorem fieldVectorComplete_shows (hs : ShareAt s core i c seat w h) (hmay : MayIssue s core c seat w h batch)
    (hmode : batchMode s c w h batch ≠ .wait) :
    ∃ t, exec (.fieldVectorComplete core i batch) s = .next t ∧
      shareNow t core i =
        some (batchShare (ctxModel s c) w h batch (decide (batchMode s c w h batch = .speculative))) ∧
      contentOf t i = contentOf s i := by
  obtain ⟨hlive, hshares, hshare⟩ := issuedBatch_spec s i c seat w h batch (decide (batchMode s c w h batch = .speculative))
  obtain ⟨base, hbase, -⟩ := begunShare_kept h (decide (batchMode s c w h batch = .speculative))
  have hi : (lookup (issuedBatch s i c seat w h batch (decide (batchMode s c w h batch = .speculative))).1.ctxs i).isSome := by
    rw [hlive, hs.1, Option.isSome_some]
  refine ⟨_, exec_fieldVectorComplete hs hmay hmode, ?_, ?_⟩
  · rw [shareNow_putSweep_live hi (find_setShare hs.2.2 hshares _ _), hshare] <;> rw [hshare, batchShare, hbase]
  · rw [contentOf_putSweep_live hi, contentOf_of_sweepOf hs.1 hs.2.1]

end

/-! ### Samples (03 R89, R100) -/

/-- What samples leave alone in a share: its place, its committed plane and its vectors. -/
def sampleView (h : Share) : Nat × Nat × List (List Nat) × List Vec := (h.core, h.block, h.plane, h.vecs)

section
variable {m : Model} {w : Sweep} {h : Share} {q : Slot} {v : Vec} {k : PassKey} (hv : vecAt h q.var q.rep = some v)
  (hk : keyOf m w q.var q.rep = some k)
include hv hk

/-- A slot with its sample receives no other. -/
theorem sampleSlot_sampled (hdone : sampled h q.var q.rep = true) : sampleSlot m w h q = h := by
  simp [sampleSlot, hv, hk, hdone]

theorem sampleSlot_plain (hnew : sampled h q.var q.rep = false) (hspec : v.spec = false) :
    sampleSlot m w h q = enterPending h (drawSample w.work v k) := by
  simp [sampleSlot, hv, hk, hnew, hspec]

theorem sampleSlot_speculative (hnew : sampled h q.var q.rep = false) (hspec : v.spec = true) :
    sampleSlot m w h q = { h with spec := h.spec ++ [drawSample w.work v k] } := by
  simp [sampleSlot, hv, hk, hnew, hspec]

end

theorem sampleView_sampleSlot (m : Model) (w : Sweep) (h : Share) (q : Slot) : sampleView (sampleSlot m w h q) = sampleView h := by
  unfold sampleSlot
  split
  · split
    · rfl
    · split <;> rfl
  · rfl

theorem exec_sampleBatch {s : State} {core i : Nat} {c : Ctx} {seat : Seat} {w : Sweep} {h : Share} {batch : List Slot}
    (hs : ShareAt s core i c seat w h) (hlen : batch.length ≤ 256) (hissued : w.issued = true) :
    exec (.sampleBatch core i batch) s =
      .next (putSweep s i seat (setShare w (batch.foldl (sampleSlot (ctxModel s c) w) h))) := by
  show execSampleBatch core i batch s = _
  exact (shareStep_at hs _).trans (congrArg _ (if_neg (by simp [hlen, hissued])))

end Sys2Proof.Machine

open Sys2Proof Sys2Proof.Machine

/-- Settles O26: a batch of vectors shows on its share alone (`fieldVectorComplete_shows`, `begunShare_kept`), and a batch of samples
slot by slot (`exec_sampleBatch`, `sampleSlot_plain`, `sampleSlot_speculative`). -/
theorem vectorsAndSamples : Obligations.VectorsAndSamples := by
  refine ⟨?vectors, ?batch, ?slot⟩
  case vectors =>
    intro s core i c seat w h batch hs m k hok hread hfence
    have hmay : MayIssue s core c seat w h batch := ⟨hok, hread, hfence⟩
    constructor
    · intro hplain
      have hmode : batchMode s c w h batch = .plain := hplain
      obtain ⟨t, hexec, hshare, hcontent⟩ := fieldVectorComplete_shows hs hmay (by simp [hmode])
      rw [hmode] at hshare
      exact ⟨t, _, hexec, hshare, rfl, rfl, rfl, rfl, hcontent⟩
    · intro hspeculative
      have hmode : batchMode s c w h batch = .speculative := hspeculative
      obtain ⟨t, hexec, hshare, hcontent⟩ := fieldVectorComplete_shows hs hmay (by simp [hmode])
      obtain ⟨base, hbegun, hbase⟩ := begunShare_kept h true
      rw [hmode, batchShare] at hshare
      simp only [decide_true, hbegun, hbase rfl] at hshare
      exact ⟨t, _, hexec, hshare, rfl, rfl, rfl, rfl, rfl, hcontent⟩
  case batch =>
    intro s core i c seat w h batch hs hlen hissued
    have hi : (lookup s.ctxs i).isSome := by simp [hs.1]
    have hview := each_keeps sampleView (sampleView_sampleSlot (ctxModel s c) w) batch h
    simp only [each, sampleView, Prod.mk.injEq] at hview
    obtain ⟨hcore, hblock, hplane, hvecs⟩ := hview
    refine ⟨_, _, exec_sampleBatch hs hlen hissued, ?_, rfl, hplane, hvecs, ?_⟩
    · exact shareNow_putSweep_live hi (find_setShare hs.2.2 rfl hblock hcore)
    · rw [contentOf_putSweep_live hi, contentOf_of_sweepOf hs.1 hs.2.1]
  case slot =>
    intro m w h q v k hv hk
    refine ⟨sampleSlot_sampled hv hk, fun hnew hspec => ?_, fun hnew hspec => ?_⟩
    · rw [sampleSlot_plain hv hk hnew hspec]
      exact ⟨rfl, rfl⟩
    · rw [sampleSlot_speculative hv hk hnew hspec]
      exact ⟨rfl, rfl⟩
end

section
/-!
PROOFS. The flip walk and validation (03 R104 to R106).
-/

namespace Sys2Proof.Machine

/-! ### The flip walk -/

/-- A share whose waiting changes have been carried into its speculative vectors. -/
def walkedShare (m : Model) (h : Share) : Share :=
  { h with vecs := h.unwalked.foldl (fun vs f => vs.map (fun v => correctVec m v f)) h.vecs, unwalked := [] }

section
variable {s : State} {core i : Nat} {c : Ctx} {seat : Seat} {w : Sweep} {h : Share} (hs : ShareAt s core i c seat w h)
include hs

/-- Without speculative work there is nothing to correct. -/
theorem exec_flipWalk_idle (hbase : h.base = none) : exec (.flipWalk core i) s = .next s := by
  show execFlipWalk core i s = _
  exact (shareStep_at hs _).trans (congrArg _ (if_pos (by simp [hbase])))

theorem exec_flipWalk (hbase : h.base.isSome = true)
    (hissued : allIssued (ctxModel s c) h ((specColour (ctxModel s c) h).getD 0) c.replicas = true) :
    exec (.flipWalk core i) s = .next (putSweep s i seat (setShare w (walkedShare (ctxModel s c) h))) := by
  have hgo : ¬(h.base.isNone || !allIssued (ctxModel s c) h ((specColour (ctxModel s c) h).getD 0) c.replicas) = true := by
    obtain ⟨b, hb⟩ := Option.isSome_iff_exists.mp hbase
    simp [hb, hissued]
  show execFlipWalk core i s = _
  exact (shareStep_at hs _).trans (congrArg _ (if_neg hgo))

end

/-- A change reaches the speculative vectors of its replica that share a factor with its variable. -/
theorem correctVec_invalid {m : Model} {v : Vec} {f : Upd × Nat} (hspec : v.spec = true) (hrep : v.rep = f.1.rep)
    (hadj : adjacent m v.var f.1.var = true) : (correctVec m v f).invalid = true := by
  simp [correctVec, hspec, hrep, hadj]

theorem correctVec_other {m : Model} {v : Vec} {f : Upd × Nat}
    (h : v.spec = false ∨ v.rep ≠ f.1.rep ∨ adjacent m v.var f.1.var = false) : correctVec m v f = v := by
  refine if_pos ?_
  rcases h with h | h | h <;> simp [h]

/-! ### SPEC_DISCARD (17 R511) -/

/-- A 64-bit counter counts modulo 2^64. -/
theorem count64_bump64_same (s : State) (lo n : Nat) : count64 (bump64 s lo n) lo = (count64 s lo + n) % 2 ^ 64 := by
  unfold count64 bump64
  dsimp only
  rw [regVal_setReg_same, regVal_setReg_other _ _ (show lo ≠ lo + 4 by omega), regVal_setReg_same]
  omega

/-- A sweep that is put back costs no register but REPRO_STATUS. -/
theorem regVal_putSweep (s : State) (i : Nat) (seat : Seat) (w : Sweep) {a : Nat} (ha : a ≠ 0x88) :
    regVal (putSweep s i seat w) a = regVal s a := by
  have hseam : ∀ t : State, regVal (seamEvent t) a = regVal t a := by
    intro t
    unfold seamEvent workEvent
    split
    · exact regVal_orReg_other _ _ ha
    · rfl
  unfold putSweep
  dsimp only
  split
  · exact hseam _
  · rfl

theorem count64_putSweep (s : State) (i : Nat) (seat : Seat) (w : Sweep) (p : Nat) :
    count64 (putSweep s i seat w) (coreReg p 0x410) = count64 s (coreReg p 0x410) := by
  rw [count64, regVal_putSweep _ _ _ _ (by unfold coreReg; omega), regVal_putSweep _ _ _ _ (by unfold coreReg; omega), count64]

/-! ### Validation -/

/-- What the validation of a vector leaves alone: what its counts do, and of the share its place, its committed and its speculative
plane. -/
def validationView (i : Nat) (a : State × Sweep × Share) :
    (Bool × (Nat → Nat) × CtxData × List Share × List PassKey) × Nat × Nat × List (List Nat) × List Upd :=
  (countView i (a.1, a.2.1), a.2.2.core, a.2.2.block, a.2.2.plane, a.2.2.spec)

theorem validationView_validateVec (m : Model) (cores : List Nat) (i : Nat) (a : State × Sweep × Share) (v : Vec) :
    validationView i (validateVec m cores i a v) = validationView i a := by
  unfold validateVec
  dsimp only
  split
  · rfl
  · simp only [validationView, enterPending, Prod.mk.eta, countView_countField]
  · rfl

/-- A vector leaves its sample in the pending plane. -/
theorem validateVec_pend (m : Model) (cores : List Nat) (i : Nat) (a : State × Sweep × Share) (v : Vec) :
    (validateVec m cores i a v).2.2.pend = a.2.2.pend ++ (validatedUpd m a.2.1 a.2.2 v).toList := by
  unfold validateVec validatedUpd
  dsimp only
  generalize keyOf m a.2.1 v.var v.rep = key
  generalize a.2.2.spec.find? (fun u => u.var == v.var && u.rep == v.rep) = old
  cases v.invalid with
  | false =>
    cases old with
    | none => cases key <;> exact (List.append_nil _).symm
    | some u => cases key <;> rfl
  | true =>
    cases key with
    | none => cases old <;> exact (List.append_nil _).symm
    | some k => cases old <;> rfl

theorem validatedUpd_congr {m : Model} {i : Nat} {a b : State × Sweep × Share} (h : validationView i b = validationView i a)
    (v : Vec) : validatedUpd m b.2.1 b.2.2 v = validatedUpd m a.2.1 a.2.2 v := by
  simp only [validationView, countView, Prod.mk.injEq] at h
  obtain ⟨⟨-, -, hwork, -, hkeys⟩, -, -, hplane, hspec⟩ := h
  simp only [validatedUpd, keyOf, hwork, hkeys, hplane, hspec]

/-- The vectors of a share leave their samples in the pending plane, in their order. -/
theorem foldl_validateVec (m : Model) (cores : List Nat) (i : Nat) (vs : List Vec) (a : State × Sweep × Share) :
    validationView i (vs.foldl (validateVec m cores i) a) = validationView i a ∧
    (vs.foldl (validateVec m cores i) a).2.2.pend = a.2.2.pend ++ vs.filterMap (validatedUpd m a.2.1 a.2.2) := by
  refine ⟨each_keeps (validationView i) (validationView_validateVec m cores i) vs a, ?_⟩
  induction vs generalizing a with
  | nil => simp
  | cons v vs ih =>
    have hcongr : validatedUpd m (validateVec m cores i a v).2.1 (validateVec m cores i a v).2.2 = validatedUpd m a.2.1 a.2.2 :=
      funext (validatedUpd_congr (validationView_validateVec m cores i a v))
    rw [List.foldl_cons, ih, validateVec_pend, hcongr, List.append_assoc, List.filterMap_cons]
    cases validatedUpd m a.2.1 a.2.2 v <;> rfl

/-- The state, sweep and share after the validation of a share's speculative vectors. -/
def validated (s : State) (i : Nat) (c : Ctx) (seat : Seat) (w : Sweep) (h : Share) : State × Sweep × Share :=
  (h.vecs.filter (·.spec)).foldl
    (validateVec (ctxModel s c) (runCores s (ctxModel s c) seat.placement (pSubset seat.data.params)) i) (s, w, h)

/-- That state with the discarded samples counted on the share's core. -/
def discardsCounted (s : State) (i : Nat) (c : Ctx) (seat : Seat) (w : Sweep) (h : Share) : State :=
  bump64 (validated s i c seat w h).1 (coreReg ((physOf s h.core).getD 0) 0x410) (h.vecs.countP (fun v => v.spec && v.invalid))

theorem exec_validation {s : State} {core i k : Nat} {c : Ctx} {seat : Seat} {w : Sweep} {h : Share} (hs : ShareAt s core i c seat w h)
    (hspec : specColour (ctxModel s c) h = some k) (hcolour : h.colour = k)
    (hremote : remoteDoneBelow (ctxModel s c) w h k k = true) (hwalked : h.unwalked = [])
    (hissued : allIssued (ctxModel s c) h k c.replicas = true) (hready : specReady (ctxModel s c) w h = true) :
    exec (.validation core i) s = .next (putSweep (discardsCounted s i c seat w h) i seat
      (setShare (validated s i c seat w h).2.1 { (validated s i c seat w h).2.2 with base := none, spec := [] })) := by
  show execValidation core i s = _
  refine (shareStep_at hs _).trans (congrArg _ ?_)
  rw [hspec]
  exact if_neg (by simp [hcolour, hremote, hwalked, hissued, hready])

end Sys2Proof.Machine

open Sys2Proof Sys2Proof.Machine

/-- Settles O28: the walk corrects the vectors that share a factor with a change (`exec_flipWalk`, `correctVec_invalid`,
`correctVec_other`); validation leaves the vectors' samples in the pending plane (`foldl_validateVec`) and counts the discarded ones
on the share's core (`count64_bump64_same`). -/
theorem flipWalkAndValidation : Obligations.FlipWalkAndValidation := by
  refine ⟨?walk, fun _ _ _ => correctVec_invalid, fun _ _ _ => correctVec_other, ?validation⟩
  case walk =>
    intro s core i c seat w h hs
    refine ⟨exec_flipWalk_idle hs, fun hbase hissued => ⟨exec_flipWalk hs hbase hissued, ?_⟩⟩
    exact shareNow_putSweep_live (by simp [hs.1]) (find_setShare hs.2.2 rfl rfl rfl)
  case validation =>
    intro s core i k c seat w h hs m hspec hcolour hremote hwalked hissued hready discards
    obtain ⟨hview, hpend⟩ := foldl_validateVec (ctxModel s c)
      (runCores s (ctxModel s c) seat.placement (pSubset seat.data.params)) i (h.vecs.filter (·.spec)) (s, w, h)
    rw [← validated] at hview hpend
    simp only [validationView, countView, Prod.mk.injEq] at hview
    obtain ⟨⟨hlive, hcount, -, hshares, -⟩, hcore, hblock, hplane, -⟩ := hview
    have hi : (lookup (discardsCounted s i c seat w h).ctxs i).isSome := by
      rw [discardsCounted, bump64_ctxs, hlive, hs.1, Option.isSome_some]
    have hphys : h.core = core := by simpa using List.find?_some hs.2.2
    refine ⟨_, exec_validation hs hspec hcolour hremote hwalked hissued hready, _,
      shareNow_putSweep_live hi (find_setShare hs.2.2 hshares hblock hcore), rfl, rfl, hplane, hpend, ?_, ?_⟩
    · rw [count64_putSweep, discardsCounted, hphys, count64_bump64_same, congrFun hcount]
    · rw [contentOf_putSweep_live hi, contentOf_of_sweepOf hs.1 hs.2.1]
end

section
/-!
PROOFS. The sweep boundary (04 R127, R137, R145): what its six steps leave alone, and what readers see afterwards.
-/

namespace Sys2Proof.Machine

/-! ### What a boundary leaves alone -/

@[simp] theorem applyBits_ctxs (s : State) (a v mask : Nat) : (applyBits s a v mask).ctxs = s.ctxs := setReg_ctxs ..

theorem applyHeld_ctxs (s : State) (due : Nat → Bool) (mask : Nat → Nat) : (applyHeld s due mask).ctxs = s.ctxs := by
  unfold applyHeld
  dsimp only
  rw [each_keeps State.ctxs (fun _ _ => applyBits_ctxs ..)]

/-- The registers that take writes at a boundary leave the contexts alone (03 R116). -/
theorem sweepRegisters_ctxs (s : State) (w : Sweep) : (sweepRegisters s w).ctxs = s.ctxs :=
  each_keeps State.ctxs (f := sweepRegBoundary) (fun _ _ => applyHeld_ctxs ..) _ s

theorem writeSpad_ctxs (s : State) (p a : Nat) (bs : List Byte) : (writeSpad s p a bs).ctxs = s.ctxs := by
  obtain ⟨_, _, _, h⟩ := writeSpad_only s p a bs
  rw [h]

theorem fillSeat_ctxs (s : State) (c : Ctx) (d : CtxData) (places : List (Nat × Nat × Nat × Nat)) :
    (fillSeat s c d places).ctxs = s.ctxs := by
  unfold fillSeat
  exact each_keeps State.ctxs (fun _ _ => writeSpad_ctxs ..) _ s

/-! ### What readers see -/

/-- From one state to another, readers see the same content of a context, and every other context stays as it was. -/
def ShowsAlike (i : Nat) (s t : State) : Prop :=
  contentOf t i = contentOf s i ∧ ∀ j, j ≠ i → lookup t.ctxs j = lookup s.ctxs j

theorem ShowsAlike.trans {i : Nat} {s t u : State} (hst : ShowsAlike i s t) (htu : ShowsAlike i t u) : ShowsAlike i s u :=
  ⟨htu.1.trans hst.1, fun j hj => (htu.2 j hj).trans (hst.2 j hj)⟩

theorem ShowsAlike.of_ctxs {s t : State} (h : t.ctxs = s.ctxs) (i : Nat) : ShowsAlike i s t :=
  ⟨contentOf_congr h i, fun j _ => by rw [h]⟩

theorem ShowsAlike.of_tables {s t : State} (h : tables t = tables s) (i : Nat) : ShowsAlike i s t := .of_ctxs (ctxs_of_tables h) i

/-- A context leaves its seat with the content of the last boundary. -/
theorem showsAlike_unseat {s : State} {i : Nat} {c : Ctx} (hc : lookup s.ctxs i = some c) (st : RunState) :
    ShowsAlike i s (unseat s i c st) := by
  have hctxs : (unseat s i c st).ctxs = put s.ctxs i (unseated c st) := congrArg Prod.fst (tables_unseat s i c st)
  constructor
  · rw [contentOf, hctxs, lookup_put_same, contentOf, hc]
    rfl
  · intro j hj
    rw [hctxs, lookup_put_other _ _ hj]

/-- A RUN_PAUSE served at a boundary (08 R274). -/
theorem showsAlike_servePause (s : State) (i : Nat) : ShowsAlike i s (servePause s i) := by
  unfold servePause
  split
  · exact .of_ctxs rfl i
  · rename_i c hc
    split
    · exact .of_ctxs rfl i
    · rename_i v _
      split
      · exact .of_ctxs rfl i
      · refine (showsAlike_unseat hc .paused).trans (.of_tables ?_ i)
        rw [each_keeps tables (fun _ _ => tables_reply ..), tables_runReply]

/-- RUN_PAUSEs that the end of a run meets (04 R129). -/
theorem showsAlike_dropPauses (s : State) (i : Nat) : ShowsAlike i s (dropPauses s i) := by
  unfold dropPauses
  split
  · exact .of_ctxs rfl i
  · refine ShowsAlike.trans ⟨?_, fun j hj => ?_⟩ (.of_tables (tables_failPauses ..) i)
    · simp only [contentOf, modCtx_ctxs, lookup_adjust_same, Option.map_map]
      rfl
    · rw [modCtx_ctxs, lookup_adjust_other _ _ hj]

/-! ### The row -/

/-- The seat holds the content of the new boundary. -/
def roundSeated (s : State) (i : Nat) (c : Ctx) (m : Model) (seat : Seat) (w : Sweep) : State :=
  let b := boundaryData m w
  modCtx (fillSeat s c b.1 seat.places) i (fun c => { c with
    seat := some { seat with data := b.1, left := seat.left - 1, sweep := none, sat := seat.sat + w.sat }
    run := c.run.map (fun v => { v with stop := b.2 }) })

/-- Saves and pauses that a boundary serves change nothing that readers see of its content. -/
theorem showsAlike_closeRound (s : State) (i : Nat) (c : Ctx) (m : Model) (seat : Seat) (w : Sweep) :
    ShowsAlike i (roundSeated s i c m seat w) (closeRound s i c m seat w) := by
  unfold closeRound
  dsimp only
  split
  · exact (ShowsAlike.of_tables (tables_takeSaves ..) i).trans (showsAlike_dropPauses ..)
  · exact (ShowsAlike.of_tables (tables_takeSaves ..) i).trans (showsAlike_servePause ..)

section
variable {s : State} {i : Nat} {c : Ctx} (m : Model) (seat : Seat) (w : Sweep)

theorem contentOf_roundSeated (hc : lookup s.ctxs i = some c) :
    contentOf (roundSeated s i c m seat w) i = some (boundaryData m w).1 := by
  simp [contentOf, roundSeated, fillSeat_ctxs, hc, ctxNow]

theorem lookup_roundSeated_other {j : Nat} (hj : j ≠ i) :
    lookup (roundSeated s i c m seat w).ctxs j = lookup s.ctxs j := by
  simp [roundSeated, fillSeat_ctxs, lookup_adjust_other _ _ hj]

end

section
variable {s : State} {i : Nat} {c : Ctx} {seat : Seat} {w : Sweep} (hc : lookup s.ctxs i = some c)
  (hw : sweepOf s i c = some (seat, w)) (hover : sweepOver (ctxModel s c) c w = true)
include hc hw hover

/-- The last sweep of a round closes it. -/
theorem exec_sweepBoundary_close (hlast : nextTurn (ctxModel s c) w = none) :
    exec (.sweepBoundary i) s = .next (closeRound (sweepRegisters s w) i c (ctxModel s c) seat w) := by
  show execSweepBoundary i s = _
  rw [execSweepBoundary, sweepStep_at hc hw]
  simp [hover, hlast]

/-- Another sweep of a rotated round begins on the working content (04 R145). -/
theorem exec_sweepBoundary_turn {q n : Nat} (hnext : nextTurn (ctxModel s c) w = some (q, n)) :
    exec (.sweepBoundary i) s = .next (putSweep (sweepRegisters s w) i seat
      (newSweep s (ctxModel s c) seat.placement q n w.work w.replayed w.sat)) := by
  show execSweepBoundary i s = _
  rw [execSweepBoundary, sweepStep_at hc hw]
  simp [hover, hnext]

end

end Sys2Proof.Machine

open Sys2Proof Sys2Proof.Machine

/-- Settles O30: the last sweep of a round leaves the content of the six steps in the seat (`contentOf_roundSeated`), and what the
boundary serves lets readers see it (`showsAlike_closeRound`); a turn of a rotated round puts its next sweep in the seat alone. -/
theorem sweepBoundaryPublishes : Obligations.SweepBoundaryPublishes := by
  intro s i c seat w hc hw hover
  have hregs := sweepRegisters_ctxs s w
  have hc' : lookup (sweepRegisters s w).ctxs i = some c := by rw [hregs, hc]
  constructor
  · intro hlast
    obtain ⟨hcontent, hothers⟩ := showsAlike_closeRound (sweepRegisters s w) i c (ctxModel s c) seat w
    refine ⟨_, exec_sweepBoundary_close hc hw hover hlast, hcontent.trans (contentOf_roundSeated _ _ _ hc'), fun j hj => ?_⟩
    rw [hothers j hj, lookup_roundSeated_other _ _ _ hj, hregs]
  · intro q n hnext
    have hi : (lookup (sweepRegisters s w).ctxs i).isSome := by simp [hc']
    refine ⟨_, _, exec_sweepBoundary_turn hc hw hover hnext, sweepNow_putSweep_live hi _, rfl, rfl, rfl, ?_⟩
    rw [contentOf_putSweep_live hi, contentOf_of_sweepOf hc hw]
end

section
/-!
PROOFS. The best record at a boundary (04 R134, R135): what the steps of the boundary leave of it, and the replica it may go to.
-/

namespace Sys2Proof.Machine

/-- What a context holds of its best record: energy, replica, sweep and state (04 R134). -/
def bestRecord (d : CtxData) : Int × Nat × Nat × List Nat := (d.bestEnergy, d.bestReplica, d.bestSweep, d.bestState)

/-! ### The steps that leave the record (R137) -/

theorem bestRecord_exchangePair (n : Nat) (d : CtxData) (k : Nat) : bestRecord (exchangePair n d k) = bestRecord d := by
  unfold exchangePair
  dsimp only
  split
  · rfl
  · rfl

theorem bestRecord_exchangeEvent (d : CtxData) : bestRecord (exchangeEvent d) = bestRecord d :=
  each_keeps bestRecord (bestRecord_exchangePair (d.exchEvents + 1)) (pairsTried (d.exchEvents + 1) d.latent.length) d

theorem bestRecord_boundaryExchange (d : CtxData) (stopped : Bool) : bestRecord (boundaryExchange d stopped) = bestRecord d := by
  unfold boundaryExchange
  dsimp only
  split
  · exact bestRecord_exchangeEvent d
  · rfl

theorem bestRecord_advanceTable (d : CtxData) : bestRecord (advanceTable d) = bestRecord d := by
  unfold advanceTable
  split
  · rfl
  · split
    · rfl
    · rfl

theorem bestRecord_runState (m : Model) (d : CtxData) : bestRecord (runState m d) = bestRecord d :=
  bestRecord_advanceTable d

/-- Of the steps of a boundary, the third alone replaces the record. -/
theorem bestRecord_boundaryData (m : Model) (w : Sweep) :
    bestRecord (boundaryData m w).1 = bestRecord (updateBest (finalEnergies m w)) :=
  (bestRecord_runState ..).trans (bestRecord_boundaryExchange ..)

/-- Steps 1 and 2 leave the record, the states and the number of sweeps. -/
theorem finalEnergies_keeps (m : Model) (w : Sweep) :
    bestRecord (finalEnergies m w) = bestRecord w.work ∧ (finalEnergies m w).latent = w.work.latent ∧
    (finalEnergies m w).sweep = w.work.sweep := by
  unfold finalEnergies
  dsimp only
  split
  · exact ⟨rfl, rfl, rfl⟩
  · exact ⟨rfl, rfl, rfl⟩

/-! ### The replica and its record (R135) -/

/-- R134: the lowest energy, and the lowest number among equals. -/
theorem lowestReplica_spec {es : List Int} (h : es ≠ []) :
    lowestReplica es < es.length ∧ (∀ k, k < es.length → es.getD (lowestReplica es) 0 ≤ es.getD k 0) ∧
    (∀ k, k < lowestReplica es → es.getD (lowestReplica es) 0 < es.getD k 0) := by
  obtain ⟨n, hn⟩ := Nat.exists_eq_succ_of_ne_zero (mt List.length_eq_zero_iff.mp h)
  rw [lowestReplica, hn]
  exact foldl_range_argmax (fun k => OrderDual.toDual (es.getD k 0)) n

theorem bestRecord_updateBest_lower {d : CtxData} (h : d.energy.getD (lowestReplica d.energy) 0 < d.bestEnergy) :
    bestRecord (updateBest d) = (d.energy.getD (lowestReplica d.energy) 0, lowestReplica d.energy, d.sweep + 1,
      d.latent.getD (lowestReplica d.energy) []) := by
  rw [updateBest, if_pos h]
  rfl

theorem bestRecord_updateBest_notLower {d : CtxData} (h : d.bestEnergy ≤ d.energy.getD (lowestReplica d.energy) 0) :
    bestRecord (updateBest d) = bestRecord d := by
  rw [updateBest, if_neg (not_lt.mpr h)]
  rfl

/-- Contexts with the same record hold the same energy, replica, sweep and state of it. -/
theorem bestRecord_eq_iff {d : CtxData} {e : Int} {r n : Nat} {x : List Nat} :
    bestRecord d = (e, r, n, x) ↔ d.bestEnergy = e ∧ d.bestReplica = r ∧ d.bestSweep = n ∧ d.bestState = x := by
  simp [bestRecord]

end Sys2Proof.Machine

open Sys2Proof Sys2Proof.Machine

/-- Settles O31: of the boundary's steps `updateBest` alone touches the record (`bestRecord_boundaryData`, `finalEnergies_keeps`), and
the replica it compares is the lowest-numbered of the lowest energy (`lowestReplica_spec`). -/
theorem bestRecordIsStrictlyBetter : Obligations.BestRecordIsStrictlyBetter := by
  intro m w hsome e b
  obtain ⟨hlt, hmin, hfirst⟩ := lowestReplica_spec hsome
  obtain ⟨hrecord, hlatent, hsweep⟩ := finalEnergies_keeps m w
  have henergy : (finalEnergies m w).bestEnergy = w.work.bestEnergy := congrArg Prod.fst hrecord
  refine ⟨lowestReplica e, hlt, hmin, hfirst, fun hlower => ?_, fun hnot => ?_⟩
  · rw [← henergy] at hlower
    rw [← bestRecord_eq_iff, bestRecord_boundaryData, bestRecord_updateBest_lower hlower, hlatent, hsweep]
  · rw [← henergy] at hnot
    rw [← bestRecord_eq_iff, bestRecord_boundaryData, bestRecord_updateBest_notLower hnot, hrecord, bestRecord]
end

section
/-!
PROOFS. RUN_SAMPLE, RUN_ANNEAL and RUN_TEMPER (04 R121 to R128, 07 R244, 08 R271, 11 R354): what a run command that passes its checks
does by its seed mode, and what the start of a run changes.
-/

namespace Sys2Proof.Machine

/-! ### A run that is admitted (08 R271) -/

section
variable (s : State) (i : Nat) (c : Ctx) (r : Req) (op : Nat) (md : Modes) (seeded : Bool) (before : Option CtxData)

/-- The run of an admitted context: the command's, under the model's next number, at placement number mod P. -/
theorem admitRun_run : ∃ x, (admitRun s i c r op md seeded before).1 = { c with st := .running, run := some x, sat := 0 } ∧
    x.r = r ∧ x.number = (ctxModel s c).nextRun ∧
    x.placement = (ctxModel s c).nextRun % max 1 (ctxModel s c).placements.length := ⟨_, rfl, rfl, rfl, rfl⟩

theorem admitRun_out : (admitRun s i c r op md seeded before).2.out = s.out := rfl

theorem admitRun_nextRun {m : Model} (hm : lookup s.models c.model = some m) :
    (lookup (admitRun s i c r op md seeded before).2.models c.model).map (·.nextRun) = some (m.nextRun + 1) := by
  simp [admitRun, joinList, hm]

end

theorem rewriteCtx_out (s : State) (i : Nat) (old new : Ctx) : (rewriteCtx s i old new).out = s.out :=
  each_keeps State.out (fun _ _ => writeHbm_out ..) _ (setCtx s i new)

/-! ### The start of a run (04 R126, R128) -/

section
variable (s : State) (r : Req) (op : Nat) (md : Modes) (i : Nat) (c : Ctx) (p tbl ladder : List Byte) (seed : Option DWord)

/-- A run that starts is admitted with the content of its start. -/
def startedRun : Ctx × State :=
  let d := startData (ctxModel s c) c.data (kindOf op) p tbl ladder seed
  admitRun (hold s r op (some i) none md) i { c with data := d, sat := 0 } r op md seed.isNone (some c.data)

theorem beginRun_eq : beginRun s r op md i c p tbl ladder seed =
    rewriteCtx (startedRun s r op md i c p tbl ladder seed).2 i c (startedRun s r op md i c p tbl ladder seed).1 := rfl

theorem beginRun_tables : tables (beginRun s r op md i c p tbl ladder seed) =
    (put s.ctxs i (startedRun s r op md i c p tbl ladder seed).1, (startedRun s r op md i c p tbl ladder seed).2.models) := by
  rw [beginRun_eq, tables_rewriteCtx, startedRun, admitRun_ctxs, hold_ctxs]

theorem beginRun_out : (beginRun s r op md i c p tbl ladder seed).out = s.out := by
  rw [beginRun_eq, rewriteCtx_out, startedRun, admitRun_out, hold_out]

section
variable {s c} {m : Model} (hm : lookup s.models c.model = some m)
include hm

theorem startedRun_ctx (hfit : ListsFit m) : ∃ x, (startedRun s r op md i c p tbl ladder seed).1 =
      { c with data := startData m c.data (kindOf op) p tbl ladder seed, st := .running, run := some x, sat := 0 } ∧
    x.r = r ∧ x.number = m.nextRun ∧ x.placement = m.nextRun % m.placements.length := by
  have hmodel : ctxModel s c = m := by rw [ctxModel, lookupD, hm, Option.getD_some]
  have hheld : ctxModel (hold s r op (some i) none md)
      { c with data := startData m c.data (kindOf op) p tbl ladder seed, sat := 0 } = m := by
    rw [← hmodel, ctxModel, hold_models, ctxModel]
  have hpos : 0 < m.placements.length := List.length_pos_of_ne_nil hfit.2
  obtain ⟨x, hctx, hr, hnumber, hplace⟩ := admitRun_run (hold s r op (some i) none md) i
    { c with data := startData m c.data (kindOf op) p tbl ladder seed, sat := 0 } r op md seed.isNone (some c.data)
  rw [hheld] at hnumber hplace
  rw [Nat.max_eq_right hpos] at hplace
  exact ⟨x, by rw [startedRun, hmodel, hctx], hr, hnumber, hplace⟩

theorem startedRun_runList (hfit : ListsFit m) :
    runList (startedRun s r op md i c p tbl ladder seed).2 c.model (m.nextRun % m.placements.length) =
      runList s c.model (m.nextRun % m.placements.length) ++ [i] := by
  rw [← runList_congr (hold_models s r op (some i) none md)]
  exact admitRun_runList _ _ { c with data := _, sat := 0 } _ _ _ _ _ (by rw [hold_models, hm]) hfit

theorem startedRun_nextRun :
    (lookup (startedRun s r op md i c p tbl ladder seed).2.models c.model).map (·.nextRun) = some (m.nextRun + 1) :=
  admitRun_nextRun _ i { c with data := _, sat := 0 } _ _ _ _ _ (by rw [hold_models, hm])

end
end

/-! ### The checks of R354 -/

/-- The opcodes of the run commands (04 R121). -/
def RunOpcode (op : Nat) : Prop := op = 0x40 ∨ op = 0x41 ∨ op = 0x42

/-- Steps 1 to 3 of R354: length, reserved fields, context. -/
def runOperandChecks (s : State) (op : Nat) (p : List Byte) : List (Bool × Status × Nat) :=
  [(decide (p.length < 136) || (op != 0x42 && p.length != 136) || decide (392 < p.length) || p.length % 4 != 0, badLength),
   (!allZero (slice p 4 4) || unusedBad (kindOf op) (slice p 8 128), badReserved), ((ctxOf s (u32 p 0)).isNone, noContext)]

/-- Steps 10 to 14 of R354 on a command that no seed has been drawn for: schedule, ladder and limits, then the DRBG. -/
def runStartChecks (s : State) (op : Nat) (c : Ctx) (p tbl : List Byte) : List (Bool × Status × Nat) :=
  let b := slice p 8 128
  [(kindOf op != 3 && scheduleBad b tbl, .badParam, 0x0320), (kindOf op == 3 && ladderBad c (p.drop 136), .badParam, 0x0321),
   (margBad c (kindOf op) b, .badParam, 0x0322), (exchBad (kindOf op) b, .badParam, 0x0323),
   (pSeedMode b == 2 && s.ent.st == .failed, .entropyFailed, 0),
   (pSeedMode b == 2 && s.ent.st != .ready, .entropyNotReady, 0)]

theorem firstErr_cons (b : Bool) (e : Status × Nat) (cs : List (Bool × Status × Nat)) :
    firstErr ((b, e) :: cs) = if b then some e else firstErr cs := by
  cases b
  · rfl
  · rfl

theorem kindOf_eq_three_iff {op : Nat} (hop : RunOpcode op) : kindOf op = 3 ↔ op = 0x42 := by
  rcases hop with rfl | rfl | rfl <;> decide

section
variable {s v : State} {op : Nat} {p tbl : List Byte} {c : Ctx} (hfits : RunFits s op p c tbl v)
include hfits

/-- The table that a run command names is read in step 9. -/
theorem runTable_fits : runTable s op (slice p 8 128) none = (some tbl, v) := by
  obtain ⟨-, -, -, -, -, -, -, -, htable, -⟩ := hfits
  exact htable

/-- Reading the table leaves contexts, models, the entropy block and what has left the module. -/
theorem runFits_reads : tables v = tables s ∧ v.ent = s.ent ∧ v.out = s.out := by
  have hread := congrArg Prod.snd (runTable_fits hfits)
  unfold runTable at hread
  dsimp only at hread
  rw [← hread]
  split
  · exact ⟨tables_readHbm .., readHbm_ent .., readHbm_out ..⟩
  · exact ⟨rfl, rfl, rfl⟩

theorem runOperandChecks_pass : firstErr (runOperandChecks s op p) = none := by
  obtain ⟨hctx, hlen, hmax, hzero, hunused, -⟩ := hfits
  split at hlen
  case isTrue htemper =>
    subst htemper
    have hfour : p.length % 4 = 0 := by omega
    have hmin : ¬ p.length < 136 := by omega
    simp [runOperandChecks, firstErr_cons, hctx, hzero, hunused, hfour, hmin, Nat.not_lt_of_le hmax, firstErr]
  case isFalse hother => simp [runOperandChecks, firstErr_cons, hctx, hzero, hunused, hlen, firstErr]

theorem runChecks_pass (hop : RunOpcode op) : firstErr (runChecks s op c p) = none := by
  obtain ⟨-, hlen, -, -, -, hranges, hidle, htable, -⟩ := hfits
  have hladder : kindOf op = 3 → p.length = 136 + 4 * c.replicas := fun h => by
    rw [if_pos ((kindOf_eq_three_iff hop).mp h)] at hlen
    exact hlen
  refine firstErr_none (fun e he => ?_)
  rw [runChecks, List.mem_append, List.mem_append] at he
  rcases he with (hfields | hregion) | hstate
  · simp only [List.mem_cons, List.not_mem_nil, or_false] at hfields
    rcases hfields with rfl | rfl | rfl
    · exact hranges
    · simpa using hladder
    · simpa using fun h3 h => (htable (by simp [h3, h])).1
  · split at hregion
    case isTrue htab => exact region_pass (htable htab).2 e hregion
    case isFalse => cases hregion
  · rw [List.mem_singleton.mp hstate]
    simp [hidle]

/-- The checks of the start come down to those of the DRBG. -/
theorem runStartChecks_fits : firstErr (runStartChecks s op c p tbl) =
    firstErr [(pSeedMode (slice p 8 128) == 2 && s.ent.st == .failed, .entropyFailed, 0),
      (pSeedMode (slice p 8 128) == 2 && s.ent.st != .ready, .entropyNotReady, 0)] := by
  obtain ⟨-, -, -, -, -, -, -, -, -, hschedule, hladder, hmarg, hexch⟩ := hfits
  have hsched : (kindOf op != 3 && scheduleBad (slice p 8 128) tbl) = false := by simpa using hschedule
  have hladd : (kindOf op == 3 && ladderBad c (p.drop 136)) = false := by simpa using hladder
  rw [runStartChecks, hsched, hladd, hmarg, hexch]
  rfl

/-! ### The row -/

/-- A run command that passes its checks meets those of its start in the state in which its table has been read. -/
theorem runCommand_fits (hop : RunOpcode op) (r : Req) (md : Modes) : runCommand s r op md p none =
    checked v r op (runStartChecks s op c p tbl) (fun u =>
      if pSeedMode (slice p 8 128) = 2 then awaitSeed u r op md (ctxIndex (u32 p 0)) p tbl
      else beginRun u r op md (ctxIndex (u32 p 0)) c (slice p 8 128) tbl (p.drop 136) (runSeedOf (slice p 8 128) none)) := by
  have hctx : ctxOf s (u32 p 0) = some c := hfits.1
  rw [runCommand]
  refine (checked_pass (runOperandChecks_pass hfits)).trans ?_
  simp only [hctx]
  refine (checked_pass (runChecks_pass hfits hop)).trans ?_
  rw [runWith, runTable_fits hfits]
  simp [runStartChecks]

/-- In SEEDED and CONTINUE mode the run starts (04 R126). -/
theorem runCommand_begins (hop : RunOpcode op) (hmode : pSeedMode (slice p 8 128) ≤ 1) (r : Req) (md : Modes) :
    runCommand s r op md p none = beginRun v r op md (ctxIndex (u32 p 0)) c (slice p 8 128) tbl (p.drop 136)
      (runSeedOf (slice p 8 128) none) := by
  have hne : pSeedMode (slice p 8 128) ≠ 2 := by omega
  have hpass : firstErr (runStartChecks s op c p tbl) = none := by
    rw [runStartChecks_fits hfits]
    simp [firstErr_cons, hne, firstErr]
  rw [runCommand_fits hfits hop, checked_pass hpass, if_neg hne]

/-- In ENTROPY mode the run waits for its seed, or fails by the state of the entropy block (07 R244; log 45). -/
theorem runCommand_entropy (hop : RunOpcode op) (hmode : pSeedMode (slice p 8 128) = 2) (r : Req) (md : Modes) :
    runCommand s r op md p none =
      if s.ent.st = .failed then reply v r op .entropyFailed
      else if s.ent.st = .ready then awaitSeed v r op md (ctxIndex (u32 p 0)) p tbl
      else reply v r op .entropyNotReady := by
  rw [runCommand_fits hfits hop, checked, runStartChecks_fits hfits]
  cases hst : s.ent.st <;> simp [firstErr_cons, hmode, firstErr]

end

/-- A run command that is ready is served under the modes of its acceptance. -/
theorem exec_runInstr {s : State} {op : Nat} {r : Req} {p : List Byte} (hop : RunOpcode op)
    (hready : Ready s r op (some (ctxIndex (u32 p 0))) none) :
    exec (runInstr op r p) s = .next (runCommand (unqueue s r op) r op (modesOf s r op) p none) := by
  rw [← serve_ready (f := fun t => runCommand t r op (modesOf s r op) p none) hready]
  rcases hop with rfl | rfl | rfl
  · rfl
  · rfl
  · rfl

theorem awaitSeed_ctxs (s : State) (r : Req) (op : Nat) (md : Modes) (i : Nat) (p tbl : List Byte) :
    (awaitSeed s r op md i p tbl).ctxs = s.ctxs := hold_ctxs ..

theorem awaitSeed_out (s : State) (r : Req) (op : Nat) (md : Modes) (i : Nat) (p tbl : List Byte) :
    (awaitSeed s r op md i p tbl).out = s.out := hold_out ..

/-- The request for the seed goes to the tail of the DRBG's queue, for 8 bytes. -/
theorem awaitSeed_queue (s : State) (r : Req) (op : Nat) (md : Modes) (i : Nat) (p tbl : List Byte) :
    (awaitSeed s r op md i p tbl).ent.queue = s.ent.queue ++ [⟨.seed r op p tbl, 8, []⟩] := by
  simp [awaitSeed]

end Sys2Proof.Machine

open Sys2Proof Sys2Proof.Machine

/-- Settles O24: a command that passes its checks starts its run (`runCommand_begins`), which changes of the tables its context, its
model's next number and one list (`beginRun_tables`, `startedRun_ctx`, `startedRun_runList`), or asks the DRBG
(`runCommand_entropy`). -/
theorem runCommandsAdmitARun : Obligations.RunCommandsAdmitARun := by
  refine ⟨?admitted, ?entropy⟩
  case admitted =>
    intro s v op r p tbl c m hop hready hfits hmode hm hfit i place
    obtain ⟨hread, -, hout⟩ := runFits_reads hfits
    rw [tables_unqueue] at hread
    rw [unqueue_out] at hout
    have hctxs : v.ctxs = s.ctxs := ctxs_of_tables hread
    have hmodels : v.models = s.models := models_of_tables hread
    rw [← hmodels] at hm
    generalize hseed : runSeedOf (slice p 8 128) none = seed
    obtain ⟨x, hctx, hr, hnumber, hplace⟩ := startedRun_ctx r op (modesOf s r op) i (slice p 8 128) tbl (p.drop 136) seed hm hfit
    have ht := beginRun_tables v r op (modesOf s r op) i c (slice p 8 128) tbl (p.drop 136) seed
    rw [hctxs, tables, Prod.mk.injEq] at ht
    obtain ⟨htctxs, htmodels⟩ := ht
    refine ⟨_, _, x, ?_, by rw [htctxs, lookup_put_same], ?_, ?_, ?_, hr, hnumber, hplace, ?_, ?_, fun j hj => ?_, ?_⟩
    · rw [exec_runInstr hop hready, runCommand_begins hfits hop hmode, hseed]
    · rw [hctx]
    · rw [hctx]
    · rw [hctx]
    · rw [runList_congr htmodels, startedRun_runList (hm := hm) (hfit := hfit) .., runList_congr hmodels]
    · rw [htmodels, startedRun_nextRun (hm := hm) ..]
    · rw [htctxs, lookup_put_other _ _ hj]
    · rw [beginRun_out, hout]
  case entropy =>
    intro s v op r p tbl c hop hready hfits hmode
    obtain ⟨hread, hent, hout⟩ := runFits_reads hfits
    rw [tables_unqueue] at hread
    rw [unqueue_ent] at hent
    rw [unqueue_out] at hout
    have hctxs : v.ctxs = s.ctxs := ctxs_of_tables hread
    rw [exec_runInstr hop hready, runCommand_entropy hfits hop hmode, unqueue_ent]
    refine ⟨_, rfl, ?_, fun hst => ?_, fun hst => if_pos hst, fun hready hfailed => ?_⟩
    · split
      · rw [reply_ctxs, hctxs]
      · split
        · rw [awaitSeed_ctxs, hctxs]
        · rw [reply_ctxs, hctxs]
    · rw [if_neg (by simp [hst]), if_pos hst, awaitSeed_queue, awaitSeed_out, hent, hout]
      exact ⟨rfl, rfl⟩
    · rw [if_neg hfailed, if_neg hready]
end

section
/-!
PROOFS. TENSOR_OP (05 R165, R170, 06 R214, 11 R356): what a program that begins leaves alone, and what the check of a program decides.
-/

namespace Sys2Proof.Machine

/-! ### What the beginning of a program leaves alone -/

/-- What the rows of a program decide by and change: the programs in progress, the map that gives their tiles a core, HBM, and what
has left the module. -/
def progView (s : State) : List Prog × List Byte × List Host.Cell × List Out := (s.progs, s.map, s.hbm, s.out)

theorem progView_giveProgWork (s : State) (p : Prog) : progView (giveProgWork s p) = progView s :=
  (each_keeps progView (f := loadSchedule (.prog p.r) builtSchedule) (fun _ _ => rfl) _ _).trans rfl

theorem progView_seamEvent (s : State) : progView (seamEvent s) = progView s := by
  unfold seamEvent workEvent
  split
  · simp [progView]
  · rfl

theorem progView_readHbm (s : State) (a n : Nat) : progView (readHbm s a n).2 = progView s := by
  simp [progView]

theorem progView_unqueue (s : State) (r : Req) (op : Nat) : progView (unqueue s r op) = progView s := by
  simp [progView]

/-- The program that begins, before its first tile. -/
def begunProg (s : State) (r : Req) (md : Modes) (b : List Byte) : Prog :=
  { r := r, tensors := progTensors b, steps := progSteps b, tree := md.tree, gn5 := md.gn5, repro := md.repro,
    sentAllow := (List.range 16).map (fun l => (physOf s l).any (fun q => regBit s (coreReg q 0x200) 0)), cur := 0, tile := 0,
    drained := none, reports := [newReport], firstTile := none, notWritten := 0, satTile := none, replayed := false,
    repaired := false }

/-- It stands behind the programs in progress. -/
theorem progView_beginProg (s : State) (r : Req) (md : Modes) (b : List Byte) :
    progView (beginProg s r md b) = (s.progs ++ [begunProg s r md b], s.map, s.hbm, s.out) := by
  refine (progView_seamEvent _).trans ((progView_giveProgWork _ (begunProg s r md b)).trans ?_)
  simp [progView, begunProg]

/-! ### The checks of the command -/

/-- A region that is only read is in order in every state or in none. -/
theorem regionOk_read {s : State} {a n align : Nat} (h : RegionOk s a n align false) (t : State) : RegionOk t a n align false := by
  obtain ⟨hmap, halign, -⟩ := h
  exact ⟨hmap, halign, fun hwrite => nomatch hwrite⟩

/-- The program of a TENSOR_OP has been read: nothing else has come of the command yet. -/
theorem progView_progRead {s v : State} {r : Req} {a n : Nat} {b : List Byte}
    (hread : readHbm (unqueue s r 0x50) a n = (some b, v)) : progView v = progView s := by
  have hv : (readHbm (unqueue s r 0x50) a n).2 = v := congrArg Prod.snd hread
  rw [← hv, progView_readHbm, progView_unqueue]

/-- The row of a TENSOR_OP whose operands are in order and whose program has been read: the program's check decides. -/
theorem exec_tensorOp {s v : State} {r : Req} {pl b : List Byte} (hready : Ready s r 0x50 none none) (hlen : pl.length = 16)
    (hzero : allZero (slice pl 12 4) = true) (hregion : RegionOk s (u64 pl 0) (u32 pl 8) 64 false) (hmin : 32 ≤ u32 pl 8)
    (hmax : u32 pl 8 ≤ 8224) (hread : readHbm (unqueue s r 0x50) (u64 pl 0) (u32 pl 8) = (some b, v)) :
    exec (.tensorOp r pl) s = .next (
      if progBad v (modesOf s r 0x50).tree (modesOf s r 0x50).gn5 b then reply v r 0x50 .badParam 0x0340 (progPayload [] none 0)
      else if (progSteps b).any (stepTooLong (modesOf s r 0x50).gn5 (progTensors b)) then
        reply v r 0x50 .lengthLimit 0x0342 (progPayload [] none 0)
      else beginProg v r (modesOf s r 0x50) b) := by
  have hsize : ¬(u32 pl 8 < 32 ∨ 32 + 32 * 128 + 64 * 64 < u32 pl 8) := by omega
  have hchecks : firstErr ([(pl.length != 16, badLength), (!allZero (slice pl 12 4), badReserved)] ++
      regionChecks (unqueue s r 0x50) (u64 pl 0) (u32 pl 8) 64 false) = none := by
    refine firstErr_none (fun c hc => ?_)
    rcases List.mem_append.mp hc with hfields | hplace
    · simp only [List.mem_cons, List.not_mem_nil, or_false] at hfields
      rcases hfields with rfl | rfl
      · simp [hlen]
      · simp [hzero]
    · exact region_pass (regionOk_read hregion _) c hplace
  change execTensorOp r pl s = _
  rw [execTensorOp, serve_ready hready]
  dsimp only
  rw [checked_pass hchecks, if_neg hsize, hread]

end Sys2Proof.Machine

open Sys2Proof Sys2Proof.Machine

/-- Settles O33: reading the program leaves the programs, HBM and the output (`progView_progRead`); the program's check then decides
(`exec_tensorOp`) between its beginning (`progView_beginProg`) and the reply. -/
theorem tensorOpStartsItsProgram : Obligations.TensorOpStartsItsProgram := by
  refine ⟨?fits, ?bad⟩
  case fits =>
    intro s v r pl b hready hfits
    obtain ⟨hlen, hzero, hregion, hmin, hmax, hread, hgood, hshort⟩ := hfits
    have hview := progView_beginProg v r (modesOf s r 0x50) b
    have hv := progView_progRead hread
    simp only [progView, Prod.mk.injEq] at hv hview
    obtain ⟨hprogs, -, hhbm, hout⟩ := hv
    obtain ⟨hprogs', -, hhbm', hout'⟩ := hview
    refine ⟨_, _, ?_, hprogs'.trans (by rw [hprogs]), rfl, rfl, rfl, rfl, rfl, rfl, rfl, rfl, hhbm'.trans hhbm, hout'.trans hout⟩
    rw [exec_tensorOp hready hlen hzero (regionOk_read hregion s) hmin hmax hread, hgood, hshort]
    rfl
  case bad =>
    intro s v r pl b hready hlen hzero hregion hmin hmax hread hbad
    refine ⟨?_, congrArg Prod.fst (progView_progRead hread)⟩
    rw [exec_tensorOp hready hlen hzero hregion hmin hmax hread, if_pos hbad]
end

section
/-!
PROOFS. The tiles of a program in progress (05 R158, R168 to R171, 06 R206 to R208; log 48): what reading operands and writing columns
leave alone, a tile that drains, and the tile, step or end that follows a written one.
-/

namespace Sys2Proof.Machine

/-! ### Reading operands, and counting -/

theorem progView_readVecs (x : Tensor) (off len : Nat) (vs : List Nat) (s : State) :
    progView (readVecs s x off len vs).2 = progView s := by
  induction vs generalizing s with
  | nil => rfl
  | cons v vs ih =>
    simp only [readVecs]
    split
    · exact progView_readHbm ..
    · exact (ih _).trans (progView_readHbm ..)

theorem progView_readGroups (s : State) (x : Tensor) (vs : List Nat) : progView (readGroups s x vs).2 = progView s :=
  progView_readVecs ..

theorem progView_readPreload (s : State) (p : Prog) (t : TStep) : progView (readPreload s p t).2 = progView s := by
  unfold readPreload
  split
  · rfl
  · exact progView_readVecs ..

theorem progView_readLate (s : State) (p : Prog) (t : TStep) : progView (readLate s p t).2 = progView s := by
  unfold readLate
  split
  · exact progView_readPreload ..
  · rfl

theorem progView_operandsRead {s v : State} {p : Prog} {a b : Tensor} {as bs : List (List Group)} {pre : List (List Word)}
    (h : OperandsRead s p a b as bs pre v) : progView v = progView s := by
  obtain ⟨-, -, hpre, -⟩ := h
  have hgroups := (progView_readGroups (readGroups s a (tileM p)).2 b (tileN p)).trans (progView_readGroups s a (tileM p))
  replace hpre : _ = v := congrArg Prod.snd hpre
  rw [← hpre]
  split
  · exact hgroups
  · exact (progView_readPreload ..).trans hgroups

theorem progView_bump (s : State) (a n : Nat) : progView (bump s a n) = progView s := by
  simp [progView]

theorem progView_bump64 (s : State) (a n : Nat) : progView (bump64 s a n) = progView s := by
  simp [progView]

theorem progs_of_progView {s t : State} (h : progView t = progView s) : t.progs = s.progs := congrArg Prod.fst h

theorem map_of_progView {s t : State} (h : progView t = progView s) : t.map = s.map := congrArg (·.2.1) h

theorem hbm_of_progView {s t : State} (h : progView t = progView s) : t.hbm = s.hbm := congrArg (·.2.2.1) h

/-! ### Writing columns -/

/-- What the output stage leaves alone: the programs in progress, and the map. -/
def stageView (s : State) : List Prog × List Byte := (s.progs, s.map)

theorem stageView_writeWords (s : State) (a : Nat) (bs : List Byte) : stageView (writeWords s a bs) = stageView s := by
  obtain ⟨_, _, _, h⟩ := writeWords_only s a bs
  rw [h]
  rfl

theorem stageView_writeEngine (s : State) (a : Nat) (bs : List Byte) : stageView (writeEngine s a bs) = stageView s :=
  stageView_writeWords ..

theorem stageView_writePartial (s : State) (c : Tensor) (m n : Nat) (q : Tile) (xs : List Elem) :
    stageView (writePartial s c m n q xs) = stageView s := stageView_writeEngine ..

theorem stageView_writeColumn (s : State) (p : Prog) (t : TStep) (c : Tensor) (q : Tile) (n : Nat) (xs : List Elem)
    (late : List Word) : stageView (writeColumn s p t c q n xs late).1 = stageView s := by
  unfold writeColumn
  cases tensorAt p.tensors t.cShadow with
  | none =>
    dsimp only
    split
    · exact stageView_writePartial ..
    · exact stageView_writeEngine ..
  | some h =>
    dsimp only
    split
    · exact (stageView_writePartial ..).trans (stageView_writeEngine ..)
    · exact (stageView_writeEngine ..).trans (stageView_writeEngine ..)

theorem stageView_writeColumns (p : Prog) (t : TStep) (c : Tensor) (q : Tile) (cols : List (Nat × List Elem × List Word)) (s : State) :
    stageView (writeColumns p t c q s cols).1 = stageView s := by
  induction cols generalizing s with
  | nil => rfl
  | cons col cols ih =>
    obtain ⟨n, xs, late⟩ := col
    exact (ih _).trans (stageView_writeColumn ..)

/-! ### The program in the list -/

theorem findProg_r {s : State} {r : Req} {p : Prog} (h : findProg s r = some p) : p.r = r :=
  eq_of_beq (List.find?_some (p := fun q : Prog => q.r == r) h)

theorem findProg_congr {s t : State} (h : t.progs = s.progs) (r : Req) : findProg t r = findProg s r := by
  rw [findProg, h, findProg]

/-- A program of the same command that is put in its place is found there. -/
theorem findProg_setProg {s : State} {r : Req} {p q : Prog} (h : findProg s r = some p) (hq : q.r = r) :
    findProg (setProg s q) r = some q := by
  have hsame : ((fun x : Prog => x.r == r) ∘ fun x => if x.r == q.r then q else x) = fun x => x.r == r := by
    funext x
    by_cases hx : x.r = r
    · simp [hx, hq]
    · simp [hx, hq]
  rw [findProg] at h
  rw [findProg, setProg, List.find?_map, hsame, h, Option.map_some, if_pos (by simp [findProg_r h, hq])]

theorem endProg_hbm (s : State) (p : Prog) (st : Status) (detail : Nat) (first : Option Nat) :
    (endProg s p st detail first).hbm = s.hbm := reply_hbm ..

/-- A program that ends leaves the list. -/
theorem findProg_endProg (s : State) (p : Prog) (st : Status) (detail : Nat) (first : Option Nat) :
    findProg (endProg s p st detail first) p.r = none := by
  have hprogs : (endProg s p st detail first).progs = s.progs.filter (fun q => !(q.r == p.r)) := reply_progs ..
  rw [findProg, hprogs, List.find?_eq_none]
  intro q hq
  simpa using (List.mem_filter.mp hq).2

/-! ### A tile that drains -/

/-- The row of a tile that may begin, by the operation of its step. -/
theorem exec_tileDrain {s : State} {r : Req} {p : Prog} (hfind : findProg s r = some p) (hnone : p.drained = none)
    (hbegins : tileBegins s p = true) : exec (.tileDrain r) s = .next (
      if (curStep p).op = 0 then
        drainMatmul s p (curStep p) ((tensorAt p.tensors (curStep p).a).getD default) ((tensorAt p.tensors (curStep p).b).getD default)
      else drainConvert s p ((tensorAt p.tensors (curStep p).a).getD default)) := by
  change execTileDrain r s = _
  simp [execTileDrain, hfind, hnone, hbegins]

/-- Where the rows of a CONVERT tile stand in a vector of its operand (R168). -/
def convertOffset (p : Prog) (a : Tensor) : Nat := rowOffset a ((tileM p).headD 0)

/-- The bytes that they take there. -/
def convertLength (p : Prog) (a : Tensor) : Nat :=
  if a.fmt = 7 then 4 * (tileM p).length else narrowBytes a.fmt (tileM p).length

/-- Where the operands of a MATMUL tile can be read and hold no invalid encoding, it drains as the accumulation gives it. -/
theorem drainMatmul_keeps {s v : State} {p : Prog} {a b : Tensor} {as bs : List (List Group)} {pre : List (List Word)}
    (h : OperandsRead s p a b as bs pre v) :
    drainMatmul s p (curStep p) a b = keepTile v p (matmulTile p (curStep p) a.fmt b.fmt as bs pre) := by
  obtain ⟨has, hbs, hpre, hgoodA, hgoodB⟩ := h
  rw [drainMatmul, hpre, has, hbs]
  simp [hgoodA, hgoodB]

/-- Where the rows of a CONVERT tile can be read and hold no invalid encoding, it drains their values. -/
theorem drainConvert_keeps {s v : State} {p : Prog} {a : Tensor} {bs : List (List Byte)}
    (hread : readVecs s a (convertOffset p a) (convertLength p a) (tileN p) = (some bs, v))
    (hgood : (convertTile p.gn5 a (List.zipWith (fun n b => (vecAddr a n + convertOffset p a, b)) (tileN p) bs)).2 = false) :
    drainConvert s p a =
      keepTile v p (convertTile p.gn5 a (List.zipWith (fun n b => (vecAddr a n + convertOffset p a, b)) (tileN p) bs)).1 := by
  simp only [convertOffset, rowOffset, convertLength] at hread hgood ⊢
  simp only [drainConvert, hread, hgood, Bool.false_eq_true, if_false]

/-- A drained tile stands with its program, whose tile in progress it stays; nothing is written. -/
theorem keepTile_drained {s : State} {r : Req} {p : Prog} (hfind : findProg s r = some p) (q : Tile) :
    ∃ p', findProg (keepTile s p q) r = some p' ∧ p'.drained = some q ∧ p'.tile = p.tile ∧ (keepTile s p q).hbm = s.hbm := by
  have hcounts := (progView_bump (bump s (coreReg (tilePhys s (curStep p).coreMask p.tile) 0x310) q.replays)
    (coreReg (tilePhys s (curStep p).coreMask p.tile) 0x314) q.saturated).trans (progView_bump ..)
  refine ⟨_, findProg_setProg (p := p) ?_ ?_, rfl, rfl, ?_⟩
  · exact (findProg_congr (progs_of_progView hcounts) r).trans hfind
  · exact (findProg_r hfind :)
  · exact (hbm_of_progView hcounts :)

/-! ### A drained tile that is written -/

/-- The row of a drained tile that runs, where its late bias can be read. -/
theorem exec_tileOutputWritten {s v : State} {r : Req} {p : Prog} {q : Tile} {late : List (List Word)}
    (hfind : findProg s r = some p) (hdrained : p.drained = some q) (hruns : tileRuns s p = true)
    (hlate : readLate s p (stepNow p) = (some late, v)) :
    exec (.tileOutputWritten r) s = .next (writeTile v p (stepNow p) q late) := by
  rw [stepNow] at hlate
  change execTileOutputWritten r s = _
  simp [execTileOutputWritten, hfind, hdrained, hruns, hlate, stepNow]

/-- The counts of a written tile: registers of its core, the saturations of its report, and the tile that the status names. -/
theorem countTile_only (s : State) (p : Prog) (t : TStep) (staged conv : Nat) :
    progView (countTile s p t staged conv).1 = progView s ∧
    ∃ x y, (countTile s p t staged conv).2 = { p with reports := x, satTile := y } := by
  refine ⟨(progView_bump64 ..).trans (progView_bump ..), ?_⟩
  unfold countTile
  dsimp only
  split
  · exact ⟨_, _, rfl⟩
  · exact ⟨_, _, rfl⟩

/-- Which tiles the sentinel takes turns on the program's place and the map alone. -/
theorem sentinelDue_congr {s u : State} {p p' : Prog} (hmap : u.map = s.map) (htile : p'.tile = p.tile)
    (hallow : p'.sentAllow = p.sentAllow) (t : TStep) : sentinelDue u p' t = sentinelDue s p t := by
  have hcore : tileCore u t.coreMask p.tile = tileCore s t.coreMask p.tile := by
    unfold tileCore maskCores physOf
    rw [hmap]
  rw [sentinelDue, sentinelDue, htile, hallow, hcore]

/-- The columns are written and counted; without a sentinel tile the program then goes on. -/
theorem writeTile_goesOn {s : State} {p : Prog} {q : Tile} {c : Tensor} (late : List (List Word))
    (hc : tensorAt p.tensors (curStep p).c = some c) (hdue : sentinelDue s p (curStep p) = false) :
    ∃ u x y, writeTile s p (stepNow p) q late = nextTile u { p with reports := x, satTile := y } ∧ u.progs = s.progs ∧
      u.hbm = (writeColumns p (stepNow p) c q s (tileColumns p q late)).1.hbm := by
  have hstage := stageView_writeColumns p (stepNow p) c q (tileColumns p q late) s
  generalize hw : writeColumns p (stepNow p) c q s (tileColumns p q late) = w at hstage ⊢
  obtain ⟨hview, x, y, hprog⟩ := countTile_only w.1 p (stepNow p) w.2.1 w.2.2
  have hnow : sentinelDue (countTile w.1 p (stepNow p) w.2.1 w.2.2).1 { p with reports := x, satTile := y } (stepNow p) = false :=
    (sentinelDue_congr ((map_of_progView hview).trans (congrArg Prod.snd hstage)) rfl rfl _).trans hdue
  refine ⟨_, x, y, ?_, (progs_of_progView hview).trans (congrArg Prod.fst hstage), hbm_of_progView hview⟩
  have hcol : tensorAt p.tensors (stepNow p).c = some c := hc
  unfold writeTile
  dsimp only
  rw [hcol, Option.getD_some, ← tileColumns, hw, hprog, hnow]
  rfl

/-! ### What follows a written tile -/

theorem nextTile_hbm (s : State) (p : Prog) : (nextTile s p).hbm = s.hbm := by
  unfold nextTile
  split
  · rfl
  split
  · exact endProg_hbm ..
  split
  · rfl
  split
  · exact endProg_hbm ..
  · exact endProg_hbm ..

section
variable {s : State} {r : Req} {p p₀ : Prog} (hfind : findProg s r = some p₀) (hr : p.r = r)

include hr

include hfind in
/-- A step with tiles left goes on to its next one. -/
theorem findProg_nextTile_tile (h : p.tile + 1 < curTiles p) :
    findProg (nextTile s p) r = some { p with tile := p.tile + 1, drained := none } := by
  rw [nextTile, if_pos h]
  exact findProg_setProg hfind hr

include hfind in
/-- After the last tile of a step whose tiles are all written, a program with steps left goes on to its next one. -/
theorem findProg_nextTile_step (h : curTiles p ≤ p.tile + 1) (hall : p.notWritten = 0) (hnext : p.cur + 1 < p.steps.length) :
    findProg (nextTile s p) r =
      some { p with cur := p.cur + 1, tile := 0, drained := none, reports := p.reports ++ [newReport] } := by
  rw [nextTile, if_neg (Nat.not_lt.mpr h), if_neg (not_not.mpr hall), if_pos hnext]
  exact findProg_setProg hfind hr

/-- After the last tile of the last step the program ends. -/
theorem findProg_nextTile_end (h : curTiles p ≤ p.tile + 1) (hlast : p.steps.length ≤ p.cur + 1) :
    findProg (nextTile s p) r = none := by
  subst hr
  rw [nextTile, if_neg (Nat.not_lt.mpr h), if_neg (Nat.not_lt.mpr hlast)]
  split
  · exact findProg_endProg ..
  split
  · exact findProg_endProg ..
  · exact findProg_endProg ..

end

end Sys2Proof.Machine

open Sys2Proof Sys2Proof.Machine

/-- Settles O34: reading operands leaves programs and HBM (`progView_operandsRead`, `progView_readVecs`), so the tile is kept with its
program (`keepTile_drained`); writing the columns leaves the programs and the map, so no sentinel becomes due (`writeTile_goesOn`), and
what follows is the next tile, the next step or the end (`findProg_nextTile_tile`, `findProg_nextTile_step`, `findProg_nextTile_end`). -/
theorem tilesDrainAndAreWritten : Obligations.TilesDrainAndAreWritten := by
  refine ⟨⟨?matmul, ?convert⟩, ?written⟩
  case matmul =>
    intro s v r p a b as bs pre hfind hnone hbegins hop ha hb hread
    have hview := progView_operandsRead hread
    obtain ⟨p', hfind', hdrained, htile, hhbm⟩ :=
      keepTile_drained ((findProg_congr (progs_of_progView hview) r).trans hfind) (matmulTile p (curStep p) a.fmt b.fmt as bs pre)
    refine ⟨_, p', ?_, hfind', hdrained, htile, hhbm.trans (hbm_of_progView hview)⟩
    rw [exec_tileDrain hfind hnone hbegins, if_pos hop, ha, hb, Option.getD_some, Option.getD_some, drainMatmul_keeps hread]
  case convert =>
    intro s v r p a bs hfind hnone hbegins hop ha m off len hread q hgood
    have hview : progView v = progView s := by rw [← progView_readVecs a off len (tileN p) s, hread]
    obtain ⟨p', hfind', hdrained, htile, hhbm⟩ :=
      keepTile_drained ((findProg_congr (progs_of_progView hview) r).trans hfind) q.1
    refine ⟨_, p', ?_, hfind', hdrained, htile, hhbm.trans (hbm_of_progView hview)⟩
    rw [exec_tileDrain hfind hnone hbegins, if_neg hop, ha, Option.getD_some, drainConvert_keeps hread hgood]
    rfl
  case written =>
    intro s r p q c late v hfind hr hdrained hruns hlate hc hdue
    have hview : progView v = progView s := by rw [← progView_readLate s p (stepNow p), hlate]
    have hdue' : sentinelDue v p (curStep p) = false := (sentinelDue_congr (map_of_progView hview) rfl rfl _).trans hdue
    obtain ⟨u, x, y, hnext, hprogs, hhbm⟩ := writeTile_goesOn (q := q) late hc hdue'
    have hfind' : findProg u r = some p := (findProg_congr (hprogs.trans (progs_of_progView hview)) r).trans hfind
    refine ⟨_, exec_tileOutputWritten hfind hdrained hruns hlate, ?_⟩
    rw [hnext]
    refine ⟨(nextTile_hbm ..).trans hhbm, fun htile => ?_, fun hdone hall hstep => ?_, fun hdone hlast => ?_⟩
    · exact ⟨_, findProg_nextTile_tile hfind' hr htile, rfl, rfl, rfl⟩
    · exact ⟨_, findProg_nextTile_step hfind' hr hdone hall hstep, rfl, rfl, rfl⟩
    · exact findProg_nextTile_end hr hdone hlast
end

section
/-!
PROOFS. The accumulation of an FP32 tile (06 R187, R188): the columns of a drained tile, element by element.
-/

namespace Sys2Proof.Machine

/-! ### Lists cut into sections of one length -/

theorem chunksLoop_flatten {α : Type} {w : Nat} (ls : List (List α)) (h : ∀ l ∈ ls, l.length = w) :
    chunksLoop w ls.length ls.flatten = ls := by
  induction ls with
  | nil => rfl
  | cons l ls ih =>
    obtain ⟨hl, hls⟩ := List.forall_mem_cons.mp h
    rw [List.flatten_cons, List.length_cons, chunksLoop, List.take_left' hl, List.drop_left' hl, ih hls]

/-- Lists of one length, joined, are cut into the same lists again. -/
theorem chunks_flatten {α : Type} {w : Nat} (hw : 0 < w) (ls : List (List α)) (h : ∀ l ∈ ls, l.length = w) :
    chunks w ls.flatten = ls := by
  have hlen : ls.flatten.length = ls.length * w := by
    rw [List.length_flatten, List.map_congr_left h, List.map_const', List.sum_replicate, smul_eq_mul]
  have hcount : (ls.flatten.length + w - 1) / w = ls.length := by
    rw [hlen, Nat.add_sub_assoc hw, Nat.add_comm, Nat.add_mul_div_right _ _ hw, Nat.div_eq_of_lt (by omega), Nat.zero_add]
  rw [chunks, hcount, chunksLoop_flatten ls h]

/-! ### The tile -/

/-- Element (m, n) of an FP32 tile of operands and preload words, in the order in force. -/
def tileElement (p : Prog) (t : TStep) (fa fb : Nat) (as bs : List (List Group)) (pre : List (List Word)) (n m : Nat) : Elem :=
  .fp (fpElement p.tree (stepGn5 p.gn5 t) fa fb (curWidth p) ((pre.getD n [])[m]?) (products fa fb (as.getD m []) (bs.getD n []))).1

/-- An FP32 tile holds a column for each vector of B, with an element for each vector of A. -/
theorem matmulTile_fp32 (p : Prog) {t : TStep} (fa fb : Nat) {as : List (List Group)} (bs : List (List Group))
    (pre : List (List Word)) (hacc : t.acc = 1) (hrows : 0 < as.length) :
    (matmulTile p t fa fb as bs pre).elems =
      (List.range bs.length).map (fun n => (List.range as.length).map (tileElement p t fa fb as bs pre n)) := by
  have hne : t.acc ≠ 0 := by omega
  rw [matmulTile, if_neg hne]
  dsimp only
  rw [byColumns, List.map_flatMap, List.flatMap_def, chunks_flatten hrows _ (by simp)]
  simp [tileElement]

/-- With FP32_TREE at 0, outside GN5 mode, an element is its preload, or +0, with its leaf sums added in turn (R188). -/
theorem fpElement_sequential (fa fb w : Nat) (pre : Option Word) (ps : List Dyadic) :
    fpElement false false fa fb w pre ps = (leafSums (sliceBlocks fa fb) ps).foldl (fpPlus false) (pre.getD 0, false) := rfl

end Sys2Proof.Machine

open Sys2Proof Sys2Proof.Machine

/-- Settles O35: the tile's elements stand column by column (`matmulTile_fp32`), and each is accumulated in sequential order
(`fpElement_sequential`). -/
theorem sequentialOrder : Obligations.SequentialOrder := by
  intro p t fa fb m n as bs pre hacc htree hgn5 hm hn
  refine ⟨(List.range as.length).map (tileElement p t fa fb as bs pre n), ?_, ?_⟩
  · rw [matmulTile_fp32 p fa fb bs pre hacc (Nat.zero_lt_of_lt hm), List.getElem?_map, List.getElem?_range hn, Option.map_some]
  · have hstep : stepGn5 p.gn5 t = false := by rw [stepGn5, hgn5, Bool.false_and]
    rw [List.getElem?_map, List.getElem?_range hm, Option.map_some, tileElement, htree, hstep, fpElement_sequential]
end

section
/-!
PROOFS. ACC_DRAIN (06 R200, R209 to R211, 11 R357, R358): the checks that an accepted fence or COMBINE passes, the place it takes among
the drains, and its completion.
-/

namespace Sys2Proof.Machine

/-! ### Acceptance -/

/-- The checks of ACC_DRAIN, in their order. -/
def drainChecks (s : State) (gn5 : Bool) (b : List Byte) : List (Bool × Status × Nat) :=
  let combine := u8 b 0 == 1
  [(drainLengthBad b, badLength), (drainReserved b, badReserved),
   (u8 b 0 == 0 && u32 b 12 != 0 && (ctxOf s (u32 b 12)).isNone, noContext),
   (decide (1 < u8 b 0) || (combine && combineRangeBad b), badRange),
   (combine && (combineTensors b).any tensorOutside, badRegion),
   (combine && [32, 64].any (fun o => (combineTensor b o).any (fun x => writeProtected s x.addr (tensorSize x))), badOverlap),
   (combine && partsBad b, .badParam, 0x0344), (combine && combineShapeBad b, badRange),
   (combine && combineTooLong gn5 b, .lengthLimit, 0x0342)]

theorem drainChecks_unqueue (s : State) (r : Req) (op : Nat) (gn5 : Bool) (b : List Byte) :
    drainChecks (unqueue s r op) gn5 b = drainChecks s gn5 b := by
  obtain ⟨_, _, _, h⟩ := unqueue_only s r op
  rw [h]
  rfl

theorem drainChecks_fence {s : State} {b : List Byte} (h : FenceFits s b) (gn5 : Bool) : firstErr (drainChecks s gn5 b) = none := by
  obtain ⟨hlen, hmode, hzero, hctx⟩ := h
  have hlength : drainLengthBad b = false := by simp [drainLengthBad, hlen, hmode]
  have hreserved : drainReserved b = false := by rw [drainReserved, if_pos hmode, hzero, Bool.not_true]
  have hfound : (u32 b 12 != 0 && (ctxOf s (u32 b 12)).isNone) = false := by
    rcases hctx with hzero | hsome
    · simp [hzero]
    · simp [Option.isNone_eq_false_iff.mpr hsome]
  simp [drainChecks, firstErr, hlength, hreserved, hmode, hfound]

theorem drainChecks_combine {s : State} {md : Modes} {b : List Byte} (h : CombineFits s md b) :
    firstErr (drainChecks s md.gn5 b) = none := by
  obtain ⟨hmode, hlen, hnot16, hreserved, hrange, hregion, hoverlap, hparts, hshape, hlimit⟩ := h
  have hlength : drainLengthBad b = false := by simp [drainLengthBad, ← hlen, hnot16, hmode]
  simp only [drainChecks, hmode, hlength, hreserved, hrange, hregion, hoverlap, hparts, hshape, hlimit]
  rfl

/-- The drain that an accepted ACC_DRAIN begins. -/
def begunDrain (s : State) (r : Req) (ctx : Option Nat) (md : Modes) (b : List Byte) : Drain :=
  { r := r, combine := u8 b 0 == 1, payload := b, gn5 := md.gn5 && u8 b 1 == 1, repro := md.repro,
    cores := maskCores s (u16 b 4), ctx := ctx }

/-- The context that a fence names; a COMBINE, and a fence without one, name none. -/
def drainCtx (b : List Byte) : Option Nat := if u8 b 0 = 0 ∧ u32 b 12 ≠ 0 then some (ctxIndex (u32 b 12)) else none

/-- An ACC_DRAIN takes its place behind the drains in progress. -/
def queueDrain (s : State) (r : Req) (ctx : Option Nat) (md : Modes) (b : List Byte) : State :=
  seamEvent { hold s r 0x51 ctx none md with drains := s.drains ++ [begunDrain s r ctx md b] }

@[simp] theorem seamEvent_drains (s : State) : (seamEvent s).drains = s.drains := by
  unfold seamEvent workEvent
  split
  · exact orReg_drains ..
  · rfl

theorem queueDrain_drains (s : State) (r : Req) (ctx : Option Nat) (md : Modes) (b : List Byte) :
    (queueDrain s r ctx md b).drains = s.drains ++ [begunDrain s r ctx md b] := seamEvent_drains _

/-- Nothing is written and no reply leaves. -/
theorem queueDrain_hbm_out (s : State) (r : Req) (ctx : Option Nat) (md : Modes) (b : List Byte) :
    (queueDrain s r ctx md b).hbm = s.hbm ∧ (queueDrain s r ctx md b).out = s.out := by
  have hview := progView_seamEvent { hold s r 0x51 ctx none md with drains := s.drains ++ [begunDrain s r ctx md b] }
  simp only [progView, Prod.mk.injEq] at hview
  obtain ⟨-, -, hhbm, hout⟩ := hview
  exact ⟨hhbm.trans (hold_hbm ..), hout.trans (hold_out ..)⟩

/-- The row of an ACC_DRAIN that passes its checks. -/
theorem exec_accDrain {s : State} {r : Req} {b : List Byte} (hready : Ready s r 0x51 (drainCtx b) none)
    (hpass : firstErr (drainChecks s (modesOf s r 0x51).gn5 b) = none) :
    exec (.accDrain r b) s = .next (queueDrain (unqueue s r 0x51) r (drainCtx b) (modesOf s r 0x51) b) := by
  rw [← drainChecks_unqueue s r 0x51] at hpass
  change execAccDrain r b s = _
  rw [execAccDrain, ← drainCtx, serve_ready hready]
  exact congrArg Host.Outcome.next (checked_pass hpass)

/-! ### Completion -/

/-- The drain of a command has left its place. -/
def dropDrain (s : State) (r : Req) : State := { s with drains := s.drains.filter (fun e => !(e.r == r)) }

section
variable {s : State} {r : Req} {d : Drain} (hfind : s.drains.find? (fun x => x.r == r) = some d)
include hfind

/-- A drain whose work is under way waits. -/
theorem exec_accDrainComplete_waits (hwaits : fenceWaits s d = true) : exec (.accDrainComplete r) s = .next s := by
  change execAccDrainComplete r s = _
  simp [execAccDrainComplete, hfind, hwaits]

/-- A drain that waits for nothing ends: a COMBINE combines, a fence replies OK. -/
theorem exec_accDrainComplete (hon : engineOn s = true) (hdone : fenceWaits s d = false) :
    exec (.accDrainComplete r) s = .next (
      if d.combine then combine (dropDrain s r) d else reply (dropDrain s r) r 0x51 .ok) := by
  change execAccDrainComplete r s = _
  simp [execAccDrainComplete, hfind, hon, hdone, dropDrain]

end

/-! ### What a COMBINE leaves of the drains -/

theorem readVecs_drains (x : Tensor) (off len : Nat) (vs : List Nat) (s : State) :
    (readVecs s x off len vs).2.drains = s.drains := by
  induction vs generalizing s with
  | nil => rfl
  | cons v vs ih =>
    simp only [readVecs]
    split
    · exact readHbm_drains ..
    · exact (ih _).trans (readHbm_drains ..)

theorem readColumn_drains (gn5 : Bool) (n : Nat) (ps : List Part) (s : State) : (readColumn s gn5 n ps).2.drains = s.drains := by
  induction ps generalizing s with
  | nil => rfl
  | cons p ps ih =>
    simp only [readColumn]
    split
    · exact readHbm_drains ..
    · exact (ih _).trans (readHbm_drains ..)

theorem readColumns_drains (gn5 : Bool) (ps : List Part) (ns : List Nat) (s : State) :
    (readColumns s gn5 ps ns).2.drains = s.drains := by
  induction ns generalizing s with
  | nil => rfl
  | cons n ns ih =>
    simp only [readColumns]
    split
    · exact readColumn_drains ..
    · exact (ih _).trans (readColumn_drains ..)

theorem combinePreload_drains (s : State) (gn5 : Bool) (b : List Byte) (n : Nat) :
    (combinePreload s gn5 b n).2.drains = s.drains := by
  unfold combinePreload
  split
  · rfl
  · exact readVecs_drains ..

theorem writeWords_drains (s : State) (a : Nat) (bs : List Byte) : (writeWords s a bs).drains = s.drains := by
  obtain ⟨_, _, _, h⟩ := writeWords_only s a bs
  rw [h]

theorem writeEngine_drains (s : State) (a : Nat) (bs : List Byte) : (writeEngine s a bs).drains = s.drains :=
  writeWords_drains ..

theorem combineWrite_drains (s : State) (d : Drain) (t : TStep) (n : Nat) (exp : Int) (xs : List Elem) (late : List Word) :
    (combineWrite s d t n exp xs late).1.drains = s.drains := by
  unfold combineWrite
  cases combineTensor d.payload 64 with
  | none => exact writeEngine_drains ..
  | some h => exact (writeEngine_drains ..).trans (writeEngine_drains ..)

theorem combineWrites_drains (d : Drain) (t : TStep) (cols : List (Nat × Int × List Elem × List Word)) (s : State) :
    (combineWrites d t s cols).1.drains = s.drains := by
  induction cols generalizing s with
  | nil => rfl
  | cons col cols ih =>
    obtain ⟨n, exp, xs, late⟩ := col
    exact (ih _).trans (combineWrite_drains ..)

theorem combineReply_drains (s : State) (d : Drain) (sat conv replays : Nat) (cols : List (List PartColumn)) :
    (combineReply s d sat conv replays cols).drains = s.drains := by
  unfold combineReply
  dsimp only
  split
  · exact reply_drains ..
  · exact reply_drains ..

theorem combineReply_hbm (s : State) (d : Drain) (sat conv replays : Nat) (cols : List (List PartColumn)) :
    (combineReply s d sat conv replays cols).hbm = s.hbm := by
  unfold combineReply
  dsimp only
  split
  · exact reply_hbm ..
  · exact reply_hbm ..

/-! ### The combination -/

/-- The output fields of a COMBINE, with the OUT_SCALE that the output stage takes. -/
def combineNow (d : Drain) : TStep :=
  { combineStep d.payload with outScale := cleanWord d.gn5 0 (combineStep d.payload).outScale }

/-- The shape that the parts have: that of the first one (R200). -/
def combineLike (d : Drain) : Tensor := ((combineParts d.payload).headD default).x

/-- The columns of the parts, read in turn. -/
def combineRead (s : State) (d : Drain) : Option (List (List PartColumn)) × State :=
  readColumns s d.gn5 (combineParts d.payload) (List.range (combineLike d).vectors)

/-- The preload, read after them. -/
def combineReadPreload (s : State) (d : Drain) : Option (List (List Word)) × State :=
  combinePreload (combineRead s d).2 d.gn5 d.payload (combineLike d).vectors

/-- The combined columns as the output stage takes them: number, exponent, elements, late bias. -/
def combinedColumns (d : Drain) (cols : List (List PartColumn)) (pre : List (List Word)) : List (Nat × Int × List Elem × List Word) :=
  let tile := (combineTile d (combineNow d) (combineLike d).kLen cols pre).1
  (List.range tile.length).zipWith
    (fun n c => (n, c.1, c.2, if biasLate (combineNow d).outStage then pre.getD n [] else [])) tile

/-- A COMBINE whose parts and preload can be read writes its combined columns; the drains stay. -/
theorem combine_writes {s : State} {d : Drain} {cols : List (List PartColumn)} {pre : List (List Word)}
    (hcols : (combineRead s d).1 = some cols) (hpre : (combineReadPreload s d).1 = some pre) :
    (combine s d).drains = s.drains ∧
    (combine s d).hbm = (combineWrites d (combineNow d) (combineReadPreload s d).2 (combinedColumns d cols pre)).1.hbm := by
  have hread : (combineReadPreload s d).2.drains = s.drains := (combinePreload_drains ..).trans (readColumns_drains ..)
  unfold combineReadPreload combineRead combineLike at hpre
  unfold combineRead combineLike at hcols
  unfold combine
  dsimp only
  rw [hcols, hpre]
  constructor
  · rw [combineReply_drains, bump_drains, bump_drains, combineWrites_drains]
    exact hread
  · rw [combineReply_hbm, bump_hbm, bump_hbm]
    rfl

end Sys2Proof.Machine

open Sys2Proof Sys2Proof.Machine

/-- Settles O36: an ACC_DRAIN in order passes its checks (`drainChecks_fence`, `drainChecks_combine`) and stands among the drains
(`queueDrain_drains`); its completion waits (`exec_accDrainComplete_waits`), or ends it (`exec_accDrainComplete`), and a COMBINE then
writes its columns (`combine_writes`). -/
theorem drainsFenceAndCombine : Obligations.DrainsFenceAndCombine := by
  refine ⟨⟨?accepted, ?fence, ?waits⟩, ?combine⟩
  case accepted =>
    intro s r b hfits hready
    have hpass : firstErr (drainChecks s (modesOf s r 0x51).gn5 b) = none := by
      rcases hfits with hfence | hcombine
      · exact drainChecks_fence hfence _
      · exact drainChecks_combine hcombine
    obtain ⟨hhbm, hout⟩ := queueDrain_hbm_out (unqueue s r 0x51) r (drainCtx b) (modesOf s r 0x51) b
    refine ⟨_, begunDrain (unqueue s r 0x51) r (drainCtx b) (modesOf s r 0x51) b, exec_accDrain hready hpass, ?_, rfl, rfl, rfl, ?_,
      hout.trans (unqueue_out ..), hhbm.trans (unqueue_hbm ..)⟩
    · rw [queueDrain_drains, unqueue_drains]
    · simp only [begunDrain, maskCores, physOf, unqueue_map]
  case fence =>
    intro s r d hfind hon hdone hmode
    rw [exec_accDrainComplete hfind hon hdone, hmode]
    rfl
  case waits => exact fun s r d hfind hwaits => exec_accDrainComplete_waits hfind hwaits
  case combine =>
    intro s r d cols pre hfind _ hon hdone hmode t like u rc rp hcols hpre q
    obtain ⟨hdrains, hhbm⟩ := combine_writes (s := dropDrain s r) (d := d) hcols hpre
    refine ⟨combine (dropDrain s r) d, ?_, hdrains, hhbm⟩
    rw [exec_accDrainComplete hfind hon hdone, if_pos hmode]
end

section
/-!
PROOFS. SESSION_OPEN (10 R312, R313, R321, 07 R244): what its signature decides, and what a failed authentication counts.
-/

namespace Sys2Proof.Machine

/-- A failed authentication leaves the entropy block alone. -/
theorem authFailure_ent (s : State) (x : Source) : (authFailure s x).2.ent = s.ent := by
  simp [authFailure]

/-- Every failed authentication counts, answered or not (10 R321). -/
theorem regVal_authFailure (s : State) (x : Source) :
    regVal (authFailure s x).2 0x682C = min (regVal s 0x682C + 1) 0xFFFFFFFF :=
  (regVal_coalesce _ _ _ _ _ _ (by decide)).trans (regVal_bump_same s 0x682C 1)

theorem regVal_reply (s : State) (r : Req) (op : Nat) (st : Status) (d : Nat) (p : List Byte) (o a : Nat) :
    regVal (reply s r op st d p o) a = regVal s a := by
  rw [regVal, reply_regs, regVal]

/-- A failed authentication of a command, which is answered when it opens an interval (10 R321). -/
def refused (s : State) (r : Req) (op detail : Nat) : State :=
  let f := authFailure s r.src
  if f.1 then reply f.2 r op .authFailed detail else f.2

theorem refused_ent (s : State) (r : Req) (op detail : Nat) : (refused s r op detail).ent = s.ent := by
  unfold refused
  dsimp only
  split
  · rw [reply_ent, authFailure_ent]
  · rw [authFailure_ent]

theorem regVal_refused (s : State) (r : Req) (op detail : Nat) :
    regVal (refused s r op detail) 0x682C = min (regVal s 0x682C + 1) 0xFFFFFFFF := by
  unfold refused
  dsimp only
  split
  · rw [regVal_reply, regVal_authFailure]
  · rw [regVal_authFailure]

/-- A request for DRBG bytes at the end of the queue (07 R244). -/
def queueDraw (s : State) (q : EntReq) : State := { s with ent := { s.ent with queue := s.ent.queue ++ [q] } }

/-- The row of a SESSION_OPEN whose fields are in order, under the key of a slot that is not empty: its signature decides. -/
theorem exec_sessionOpen {s : State} {r : Req} {p key : List Byte} (hsession : r.session = none) (hready : Ready s r 0x03 none none)
    (hlen : p.length = 248) (hzero : allZero (slice p 1 3 ++ slice p 149 3) = true) (hslot : u8 p 0 ≤ 3) (hpoint : u8 p 52 = 4)
    (hkey : operatorKey s.sec.otp (u8 p 0) = some key) (hent : s.ent.st ≠ .failed) :
    exec (.sessionOpen r p) s = .next (
      if ecdsaOk key (sha384 (p.take 152)) (slice p 152 96) then
        queueDraw (hold (unqueue s r 0x03) r 0x03 none none) ⟨.session r p, 104, []⟩
      else refused (unqueue s r 0x03) r 0x03 0x020C) := by
  have hchecks : firstErr [(p.length != 248, badLength), (!allZero (slice p 1 3 ++ slice p 149 3), badReserved),
      (decide (3 < u8 p 0) || u8 p 52 != 4, badRange)] = none := by
    simp [firstErr_cons, firstErr, hlen, hzero, Nat.not_lt.mpr hslot, hpoint]
  change execSessionOpen r p s = _
  rw [execSessionOpen, hsession, Option.isSome_none, if_neg Bool.false_ne_true, serve_ready hready]
  dsimp only
  rw [checked_pass hchecks, unqueue_sec, hkey, unqueue_ent]
  dsimp only
  rw [if_neg hent]
  rfl

end Sys2Proof.Machine

open Sys2Proof Sys2Proof.Machine

/-- Settles O9: the signature decides the row (`exec_sessionOpen`); a request that verifies waits behind the earlier ones, and one that
does not is counted (`regVal_refused`) and leaves the queue alone. -/
theorem sessionOpenIsChecked : Obligations.SessionOpenIsChecked := by
  intro s r p key hsession hready hlen hzero hslot hpoint hkey hent
  refine ⟨_, exec_sessionOpen hsession hready hlen hzero hslot hpoint hkey hent, fun hok => ?verified, fun hbad => ?refused⟩
  case verified =>
    rw [if_pos hok]
    exact ⟨by simp [queueDraw], by simp [queueDraw]⟩
  case refused =>
    rw [if_neg (by simp [hbad])]
    refine ⟨rfl, by rw [refused_ent, unqueue_ent], ?_⟩
    rw [regVal_refused, regVal, unqueue_regs, ← regVal]
end

section
/-!
PROOFS. FILL (07 R231, 11 R360, R361): the checks that an accepted FILL passes, and the bytes that its completion writes.
-/

namespace Sys2Proof.Machine

theorem leBytes_length (n v : Nat) : (leBytes n v).length = n := by
  induction n generalizing v with
  | zero => rfl
  | succ n ih => simp [leBytes, ih]

/-- A FILL writes its LENGTH: whole patterns or whole elements (11 R360). -/
theorem fillBytes_length {f : Fill} (h : f.len % 8 = 0) : (fillBytes f).length = f.len := by
  unfold fillBytes
  split
  · simp [leBytes_length]
    omega
  · simp [leBytes_length]
    omega

/-- The checks of FILL, in their order. -/
def fillChecks (s : State) (p : List Byte) : List (Bool × Status × Nat) :=
  [(p.length != 40, badLength),
   (!allZero (slice p 1 7) || (u8 p 0 == 0 && u64 p 24 != 0) || (decide (1 ≤ u8 p 0 ∧ u8 p 0 ≤ 4) && u64 p 32 != 0), badReserved),
   (decide (4 < u8 p 0) || u64 p 16 % 8 != 0, badRange)] ++ regionChecks s (u64 p 8) (u64 p 16) 8 true

theorem fillChecks_pass {s : State} {p : List Byte} (hlen : p.length = 40) (hzero : allZero (slice p 1 7) = true) (hkind : u8 p 0 ≤ 4)
    (hseed : u8 p 0 = 0 → u64 p 24 = 0) (hpattern : u8 p 0 ≠ 0 → u64 p 32 = 0) (hwhole : u64 p 16 % 8 = 0)
    (hregion : RegionOk s (u64 p 8) (u64 p 16) 8 true) : firstErr (fillChecks s p) = none := by
  refine firstErr_none (fun c hc => ?_)
  rcases List.mem_append.mp hc with hfields | hplace
  · simp only [List.mem_cons, List.not_mem_nil, or_false] at hfields
    rcases hfields with rfl | rfl | rfl
    · simp [hlen]
    · by_cases hpatterned : u8 p 0 = 0
      · simp [hzero, hpatterned, hseed]
      · simp [hzero, hpatterned, hpattern]
    · simp [hkind, hwhole]
  · exact region_pass hregion c hplace

/-- The fill that an accepted FILL queues. -/
def fillOf (r : Req) (p : List Byte) : Fill :=
  { r := r, kind := u8 p 0, dst := u64 p 8, len := u64 p 16, seed := w64 p 24, pattern := w64 p 32 }

/-- The row of a FILL that passes its checks: it takes its place behind the fills in progress. -/
theorem exec_fill {s : State} {r : Req} {p : List Byte} (hready : Ready s r 0x61 none none) (hpass : firstErr (fillChecks s p) = none) :
    exec (.fill r p) s =
      .next { hold (unqueue s r 0x61) r 0x61 none none with fills := (unqueue s r 0x61).fills ++ [fillOf r p] } := by
  have hchecks : firstErr (fillChecks (unqueue s r 0x61) p) = none := by
    rw [fillChecks, regionChecks_unqueue]
    exact hpass
  change execFill r p s = _
  rw [execFill, serve_ready hready]
  exact congrArg Host.Outcome.next (checked_pass hchecks)

/-- The fill of a command has left its place. -/
def dropFill (s : State) (r : Req) : State := { s with fills := s.fills.filter (fun g => !(g.r == r)) }

/-- The row of a completion: the bytes are written, and the command replies their count. -/
theorem exec_fillComplete {s : State} {f : Fill} (hfind : s.fills.find? (fun x => x.r == f.r) = some f) :
    exec (.fillComplete f.r) s =
      .next (reply (writeHbm (dropFill s f.r) f.dst (fillBytes f)) f.r 0x61 .ok 0 (leBytes 8 f.len)) := by
  change execFillComplete f.r s = _
  rw [execFillComplete, hfind]
  rfl

end Sys2Proof.Machine

open Sys2Proof Sys2Proof.Machine

/-- Settles O38: an accepted FILL passes its checks (`fillChecks_pass`) and waits (`exec_fill`); its completion (`exec_fillComplete`)
writes the bytes of its length (`fillBytes_length`) as every write of HBM does (`writeHbm_written`). -/
theorem fillWritesItsRegion : Obligations.FillWritesItsRegion := by
  refine ⟨?accepted, ?completed⟩
  case accepted =>
    intro s r p hready hlen hzero hkind hseed hpattern hwhole hregion
    exact ⟨_, exec_fill hready (fillChecks_pass hlen hzero hkind hseed hpattern hwhole hregion), by simp, by simp, by simp [fillOf]⟩
  case completed =>
    intro s f hfind _ hwhole
    refine ⟨_, exec_fillComplete hfind, writeHbm_fills .., fillBytes_length hwhole, ?_, writeHbm_out .., writeHbm_ctxs ..,
      writeHbm_models ..⟩
    exact writeHbm_written (dropFill s f.r) f.dst (fillBytes f)
end

section
/-!
PROOFS. ENTROPY_GET and the generate calls of the DRBG (07 R242, R244, R245, 11 R361): the checks, the wait and its expiry, the request
that a call serves.
-/

namespace Sys2Proof.Machine

/-! ### ENTROPY_GET -/

/-- The checks of ENTROPY_GET that its operands and ENT_CTRL decide, in their order. -/
def entropyOperandChecks (s : State) (p : List Byte) : List (Bool × Status × Nat) :=
  [(p.length != 4, badLength), (u16 p 2 != 0, badReserved), (u16 p 0 == 0 || decide (1024 < u16 p 0), badRange),
   (!regBit s 0x400C 0, (.accessDenied, 0))]

/-- The checks that the state of the block decides. -/
def entropyStateChecks (st : EntState) : List (Bool × Status × Nat) :=
  [(st == .failed, (.entropyFailed, 0)), (st != .ready, (.entropyNotReady, 0))]

theorem firstErr_append (cs ds : List (Bool × Status × Nat)) : firstErr (cs ++ ds) = (firstErr cs).or (firstErr ds) := by
  induction cs with
  | nil => rfl
  | cons c cs ih =>
    obtain ⟨b, e⟩ := c
    cases b
    · exact ih
    · rfl

theorem entropyOperandChecks_pass {s : State} {p : List Byte} (hlen : p.length = 4) (hzero : u16 p 2 = 0) (hmin : 1 ≤ u16 p 0)
    (hmax : u16 p 0 ≤ 1024) (hen : regBit s 0x400C 0 = true) : firstErr (entropyOperandChecks s p) = none := by
  have hsome : u16 p 0 ≠ 0 := Nat.one_le_iff_ne_zero.mp hmin
  refine firstErr_none (fun c hc => ?_)
  simp only [entropyOperandChecks, List.mem_cons, List.not_mem_nil, or_false] at hc
  rcases hc with rfl | rfl | rfl | rfl
  · simp [hlen]
  · simp [hzero]
  · simp [hsome, hmax]
  · simp [hen]

/-- An ENTROPY_GET that passes its checks: it waits at the end of the queue where that has room (07 R245). -/
def entropyWait (s : State) (r : Req) (n : Nat) : State :=
  if 64 ≤ hostWaiting s then hostBusy s r
  else if regField s 0x400C 8 8 = 0 ∧ (!s.ent.queue.isEmpty || reseedDue s) then hostBusy s r
  else queueDraw (hold s r 0x70 none none) ⟨.host r, n, []⟩

/-- The row of an ENTROPY_GET whose operands are in order and which ENT_CTRL allows: the state of the block decides. -/
theorem exec_entropyGet {s : State} {r : Req} {p : List Byte} (hready : Ready s r 0x70 none none) (hlen : p.length = 4)
    (hzero : u16 p 2 = 0) (hmin : 1 ≤ u16 p 0) (hmax : u16 p 0 ≤ 1024) (hen : regBit s 0x400C 0 = true) :
    exec (.entropyGet r p) s = .next (match s.ent.st with
      | .ready => entropyWait (unqueue s r 0x70) r (u16 p 0)
      | .failed => reply (unqueue s r 0x70) r 0x70 .entropyFailed
      | _ => reply (unqueue s r 0x70) r 0x70 .entropyNotReady) := by
  have hchecks : firstErr (entropyOperandChecks (unqueue s r 0x70) p ++ entropyStateChecks (unqueue s r 0x70).ent.st) =
      firstErr (entropyStateChecks s.ent.st) := by
    rw [firstErr_append, entropyOperandChecks_pass hlen hzero hmin hmax (by rw [← hen, regBit, regVal, unqueue_regs]; rfl),
      unqueue_ent]
    rfl
  change execEntropyGet r p s = _
  rw [execEntropyGet, serve_ready hready]
  refine congrArg Host.Outcome.next ?_
  change checked _ r 0x70 (entropyOperandChecks _ p ++ entropyStateChecks _) _ = _
  rw [checked, hchecks]
  cases s.ent.st <;> rfl

theorem hostWaiting_congr {s t : State} (h : t.ent = s.ent) : hostWaiting t = hostWaiting s := by
  rw [hostWaiting, h, hostWaiting]

/-- Room in the queue, and a wait that ENT_CTRL allows, let an ENTROPY_GET wait. -/
theorem entropyWait_waits {s : State} (r : Req) (n : Nat) (hroom : hostWaiting s < 64) (hwait : regField s 0x400C 8 8 ≠ 0) :
    entropyWait s r n = queueDraw (hold s r 0x70 none none) ⟨.host r, n, []⟩ := by
  rw [entropyWait, if_neg (Nat.not_le.mpr hroom), if_neg (fun h => hwait h.1)]

/-! ### HOST_WAIT_EXPIRY -/

/-- A BUSY reply, as every reply, changes caches, taken commands and what leaves the module alone. -/
theorem replyBusy_only (s : State) (r : Req) (op d w : Nat) : ∃ a t b c e f, replyBusy s r op d w =
    { s with sessions := a, taken := t, unsent := b, ports := c, join := e, out := f } := by
  obtain ⟨a, b, c, e, f, h⟩ :=
    answer_only { s with taken := s.taken.filter (fun t => !(t.r == r && t.opcode == op)) } r op .busy d [] 0 w
  exact ⟨a, _, b, c, e, f, h⟩

theorem replyBusy_regs (s : State) (r : Req) (op d w : Nat) : (replyBusy s r op d w).regs = s.regs := by
  obtain ⟨_, _, _, _, _, _, h⟩ := replyBusy_only s r op d w
  rw [h]

theorem replyBusy_ent (s : State) (r : Req) (op d w : Nat) : (replyBusy s r op d w).ent = s.ent := by
  obtain ⟨_, _, _, _, _, _, h⟩ := replyBusy_only s r op d w
  rw [h]

/-- An ENTROPY_GET that is answered BUSY: the state whose reply it is, and the hint (07 R245). -/
theorem hostBusy_spec (s : State) (r : Req) : ∃ u n, hostBusy s r = replyBusy u r 0x70 0 n ∧ 10 ≤ n ∧ u.out = s.out ∧
    (hostBusy s r).ent = s.ent ∧ regBit (hostBusy s r) 0x4008 4 = true := by
  refine ⟨orReg { s with free := s.free + 1 } 0x4008 16, 10 + Config.retryEstimate s.free, rfl, Nat.le_add_right .., orReg_out ..,
    (replyBusy_ent ..).trans (orReg_ent ..), ?_⟩
  rw [hostBusy, regBit, regVal, replyBusy_regs]
  exact regBit_orReg_same { s with free := s.free + 1 } 0x4008 (b := 4) (by decide)

theorem exec_hostWaitExpiry {s : State} {r : Req} (h : s.ent.queue.any (fun q => q.what == .host r) = true) :
    exec (.hostWaitExpiry r) s =
      .next (hostBusy (modEnt s (fun e => { e with queue := eraseFirst (fun q => q.what == .host r) e.queue })) r) :=
  congrArg Host.Outcome.next (if_pos h)

/-! ### DRBG_GENERATE -/

theorem drawOrder_lt (d : Draw) : drawOrder d < 5 := by
  cases d <;> simp [drawOrder]

/-- The request that a call serves waits, and none that waits has a lower consumer order (07 R244). -/
theorem nextDraw_spec {q : List EntReq} {e f : EntReq} (h : nextDraw q = some e) (hf : f ∈ q) :
    e ∈ q ∧ drawOrder e.what ≤ drawOrder f.what := by
  rw [nextDraw, List.head?_filterMap, List.findSome?_eq_some_iff] at h
  obtain ⟨before, k, after, horders, hfind, hnone⟩ := h
  have hk : drawOrder e.what = k := by simpa using List.find?_some hfind
  refine ⟨List.mem_of_find?_eq_some hfind, ?_⟩
  by_contra hlower
  have hsorted : (before ++ k :: after).Pairwise (· < ·) := horders ▸ List.pairwise_lt_range
  have hmem : drawOrder f.what ∈ before ++ k :: after := horders ▸ List.mem_range.mpr (drawOrder_lt f.what)
  obtain ⟨-, hafter, -⟩ := List.pairwise_append.mp hsorted
  rcases List.mem_append.mp hmem with hbefore | hrest
  · have hgone := List.find?_eq_none.mp (hnone _ hbefore) f hf
    simp at hgone
  · rcases List.mem_cons.mp hrest with heq | hlater
    · omega
    · have := List.rel_of_pairwise_cons hafter hlater
      omega

/-- A generate call gives at most the bytes asked for, whatever its key. -/
theorem drbgGenerate_length_le (d : DrbgState) (n : Nat) : (drbgGenerate d n).1.length ≤ n := by
  simp only [drbgGenerate, List.length_take]
  exact Nat.min_le_left ..

section
variable {s : State} {e : EntReq} (hon : entropyOn s = true) (hst : s.ent.st = .ready) (hseeded : reseedDue s = false)
  (hnext : nextDraw s.ent.queue = some e)
include hon hst hseeded hnext

/-- A call in READY, with no reseed due, serves the next request. -/
theorem exec_drbgGenerate : exec .drbgGenerate s = .next (generateFor s e) := by
  change execDrbgGenerate s = _
  simp [execDrbgGenerate, hon, hst, hseeded, hnext]

end

/-- No call is made while a reseed is due (07 R242). -/
theorem exec_drbgGenerate_reseedDue {s : State} (h : reseedDue s = true) : exec .drbgGenerate s = .next s := by
  change execDrbgGenerate s = _
  simp [execDrbgGenerate, h]

/-- A call of 256 bytes for a request that needs more: it keeps what it has. -/
theorem generateFor_more {s : State} {e : EntReq} (h : callBytes e < e.need - e.got.length) :
    generateFor s e = modEnt (drbg s 256).2 (fun t => { t with queue := t.queue.map (fun x =>
      if x == e then { x with got := e.got ++ (drbgGenerate s.ent.drbg 256).1 } else x) }) := by
  have hcall : callBytes e = 256 := by unfold callBytes at h ⊢; omega
  have hbytes := drbgGenerate_length_le s.ent.drbg 256
  have hmore : ¬ e.need ≤ (e.got ++ (drbgGenerate s.ent.drbg 256).1).length := by
    rw [List.length_append]
    omega
  rw [generateFor, hcall]
  exact if_neg hmore

/-- The last call for a request: it leaves the queue and completes with all its bytes. -/
theorem generateFor_last {s : State} {e : EntReq} (h : e.need - e.got.length ≤ 256) (hkey : s.ent.drbg.key.length = 32) :
    generateFor s e =
      finishDraw (modEnt (drbg s (e.need - e.got.length)).2 (fun t => { t with queue := eraseFirst (fun x => x == e) t.queue })) e.what
        (e.got ++ (drbgGenerate s.ent.drbg (e.need - e.got.length)).1) := by
  have hcall : callBytes e = e.need - e.got.length := Nat.min_eq_right h
  have hall : e.need ≤ (e.got ++ (drbgGenerate s.ent.drbg (e.need - e.got.length)).1).length := by
    rw [List.length_append, drbgGenerate_length _ _ hkey]
    omega
  rw [generateFor, hcall]
  exact if_pos hall

end Sys2Proof.Machine

open Sys2Proof Sys2Proof.Machine

/-- Settles O39: the state of the block decides an ENTROPY_GET (`exec_entropyGet`), and its expiry answers BUSY (`hostBusy_spec`); a
generate call serves the next request (`exec_drbgGenerate`), which has the lowest order (`nextDraw_spec`), and which keeps its bytes
(`generateFor_more`) until its last call (`generateFor_last`). -/
theorem entropyGetWaitsItsTurn : Obligations.EntropyGetWaitsItsTurn := by
  refine ⟨⟨?get, ?expiry⟩, ?more, ?last, fun s => exec_drbgGenerate_reseedDue, fun q e f => nextDraw_spec⟩
  case get =>
    intro s r p hready hlen hzero hmin hmax hen
    rw [exec_entropyGet hready hlen hzero hmin hmax hen]
    refine ⟨fun hst hroom hwait => ?_, fun hst => by rw [hst], ?_⟩
    · rw [hst]
      refine ⟨_, congrArg _ (entropyWait_waits r (u16 p 0) ?_ ?_), by simp [queueDraw], by simp [queueDraw]⟩
      · rwa [hostWaiting_congr (unqueue_ent ..)]
      · rwa [regField, regVal, unqueue_regs]
    · rintro (hst | hst)
      · rw [hst]
      · rw [hst]
  case expiry =>
    intro s r hwaits
    obtain ⟨u, n, hbusy, hhint, hout, hent, hbit⟩ :=
      hostBusy_spec (modEnt s (fun e => { e with queue := eraseFirst (fun q => q.what == .host r) e.queue })) r
    exact ⟨_, u, n, exec_hostWaitExpiry hwaits, hbusy, hhint, hout, by rw [hent]; rfl, hbit⟩
  case more =>
    intro s e hon hst hseeded hnext hmore
    exact ⟨_, (exec_drbgGenerate hon hst hseeded hnext).trans (congrArg _ (generateFor_more hmore)), rfl, rfl, rfl, rfl⟩
  case last =>
    intro s e r hon hst hseeded hnext hwhat hlast hkey bs
    have hdone := generateFor_last hlast hkey
    rw [hwhat] at hdone
    exact ⟨_, _, exec_drbgGenerate hon hst hseeded hnext, drbgGenerate_length _ _ hkey, hdone, rfl, rfl⟩
end

section
/-!
PROOFS. Health of the noise sources, conditioning and the seeding of the DRBG (07 R239 to R243, R247, R248): what a failure leaves of
the block, and the rows that bring it back.
-/

namespace Sys2Proof.Machine

/-! ### Waiting requests that end -/

/-- What a failure decides by and changes: the entropy block, and the security block with the fuses. Every reply leaves both. -/
def entropyView (s : State) : Entropy × Security := (s.ent, s.sec)

theorem entropyView_failDraw (s : State) (d : Draw) : entropyView (failDraw s d) = entropyView s := by
  cases d with
  | challenge => rfl
  | _ => simp [failDraw, entropyView]

/-- Of the block, the end of requests changes the queue. -/
theorem entropyView_failDraws (s : State) (p : EntReq → Bool) : entropyView (failDraws s p) =
    ({ s.ent with queue := (s.ent.queue.filter (fun q => !p q)).map (fun q => { q with got := [] }) }, s.sec) :=
  (each_keeps entropyView (fun s (q : EntReq) => entropyView_failDraw s q.what) (s.ent.queue.filter p) _).trans rfl

theorem entropyView_orReg (s : State) (a b : Nat) : entropyView (orReg s a b) = entropyView s := by
  simp [entropyView]

/-! ### A failure -/

/-- What a halt leaves of the block (07 R247): no DRBG state, no output, no ENTROPY_GET and no run seed. -/
def haltedEntropy (e : Entropy) : Entropy :=
  { e with
    st := .halted, outputs := [], instantiated := false, drbg := drbgZero
    queue := (e.queue.filter (fun q => !endsOnHalt q)).map (fun q => { q with got := [] }) }

theorem entropyView_haltBlock (s : State) (source test : Nat) : entropyView (haltBlock s source test) = (haltedEntropy s.ent, s.sec) := by
  unfold haltBlock
  dsimp only
  rw [entropyView_failDraws]
  simp [haltedEntropy, modEnt]

/-- No request that a halt ends is left in the queue. -/
theorem haltedEntropy_queue (e : Entropy) : (haltedEntropy e).queue.any endsOnHalt = false := by
  simp [haltedEntropy, endsOnHalt]

/-- Fuses of a source blown after its failure: at most three (07 R239). -/
def fusesAfter (x : Security) (n : Nat) : Nat := min 3 (x.otp.entropyFails.getD n 0 + 1)

/-- The security block with a source's fuse blown. -/
def fuseBlown (x : Security) (n : Nat) : Security :=
  { x with otp := { x.otp with entropyFails := setAt x.otp.entropyFails n (fusesAfter x n) } }

/-- The state of a source that has failed, by its fuses. -/
def failedSource (fuses : Nat) : SourceState := if fuses = 3 then .fenced else .restarting

/-- The block with a source in a new state; fewer than two unfenced sources leave it FAILED, with nothing that waits (07 R248). -/
def withSource (e : Entropy) (n : Nat) (v : SourceState) : Entropy :=
  let e := { e with sources := setAt e.sources n v }
  if e.sources.countP (· != .fenced) < 2 then { e with st := .failed, queue := [] } else e

theorem withSource_few {e : Entropy} {n : Nat} {v : SourceState} (h : (setAt e.sources n v).countP (· != .fenced) < 2) :
    withSource e n v = { e with sources := setAt e.sources n v, st := .failed, queue := [] } := if_pos h

theorem withSource_enough {e : Entropy} {n : Nat} {v : SourceState} (h : 2 ≤ (setAt e.sources n v).countP (· != .fenced)) :
    withSource e n v = { e with sources := setAt e.sources n v } := if_neg (Nat.not_lt.mpr h)

/-- A failure of a source: its fuse is blown, and it restarts or is fenced (07 R239). -/
def sourceMarked (s : State) (n : Nat) : State :=
  let fuses := fusesAfter s.sec n
  let t := { s with sec := fuseBlown s.sec n, ent := { s.ent with sources := setAt s.ent.sources n (failedSource fuses) } }
  if fuses = 3 then orReg t 0x4008 4 else t

theorem entropyView_sourceMarked (s : State) (n : Nat) : entropyView (sourceMarked s n) =
    ({ s.ent with sources := setAt s.ent.sources n (failedSource (fusesAfter s.sec n)) }, fuseBlown s.sec n) := by
  unfold sourceMarked
  dsimp only
  split
  · exact entropyView_orReg ..
  · rfl

theorem entropyView_sourceFailed (s : State) (n : Nat) :
    entropyView (sourceFailed s n) = (withSource s.ent n (failedSource (fusesAfter s.sec n)), fuseBlown s.sec n) := by
  have hview := entropyView_sourceMarked s n
  have heq : sourceFailed s n =
      if (sourceMarked s n).ent.sources.countP (· != .fenced) < 2 then
        failDraws (modEnt (orReg (sourceMarked s n) 0x4008 8) (fun e => { e with st := .failed })) (fun _ => true)
      else sourceMarked s n := rfl
  rw [entropyView, Prod.mk.injEq] at hview
  obtain ⟨hent, hsec⟩ := hview
  rw [heq, withSource, hent]
  dsimp only
  split
  · rw [entropyView_failDraws]
    simp [modEnt, hent, hsec]
  · rw [entropyView, hent, hsec]

/-- What a failing test of a source leaves of the block and of the fuses. -/
theorem entropyView_failure (s : State) (n test : Nat) : entropyView (sourceFailed (haltBlock s n test) n) =
    (withSource (haltedEntropy s.ent) n (failedSource (fusesAfter s.sec n)), fuseBlown s.sec n) := by
  have hhalt := entropyView_haltBlock s n test
  rw [entropyView, Prod.mk.injEq] at hhalt
  obtain ⟨hent, hsec⟩ := hhalt
  rw [entropyView_sourceFailed, hent, hsec]

theorem testFailed_ne_two {n : Nat} {t : SourceTests} {k : Nat} (h : testFailed n t = some k) : k ≠ 2 := by
  unfold testFailed at h
  grind

/-- The samples of a source fail the repetition count test or the adaptive proportion test. -/
theorem runTests_ne_two {n : Nat} {t : SourceTests} {xs : List Bool} {k : Nat} (h : (runTests n t xs).2 = some k) : k ≠ 2 := by
  induction xs generalizing t with
  | nil => cases h
  | cons x xs ih =>
    rw [runTests] at h
    split at h
    · rename_i j hfail
      cases h
      exact testFailed_ne_two hfail
    · exact ih h

/-- The row of a source whose samples fail a test. -/
theorem exec_healthTestFail {s : State} {n test : Nat} {samples : List Bool} (hon : entropyOn s = true) (hst : s.ent.st ≠ .failed)
    (hsource : sourceAt s.ent n = .healthy ∨ (sourceAt s.ent n = .startup ∧ samples.length ≤ 1024))
    (hfail : (runTests n (testsOf s.ent n) samples).2 = some test) :
    exec (.healthTestFail n test samples) s = .next (sourceFailed (haltBlock s n test) n) := by
  change execHealthTestFail n test s samples = _
  rw [execHealthTestFail, if_neg (by simp [hon, hst]), if_neg (runTests_ne_two hfail), if_pos ⟨hsource, hfail⟩]

/-! ### Recovery -/

theorem sourceAt_setAt_same {e : Entropy} {n : Nat} (v : SourceState) (h : n < e.sources.length) :
    sourceAt { e with sources := setAt e.sources n v } n = v := by
  simp [sourceAt, setAt, h]

theorem sourceAt_setAt_other (e : Entropy) {n k : Nat} (v : SourceState) (h : k ≠ n) :
    sourceAt { e with sources := setAt e.sources n v } k = sourceAt e k := by
  simp [sourceAt, setAt, List.getD_eq_getElem?_getD, List.getElem?_set_ne h.symm]

/-- A source that is not fenced is one of the block's. -/
theorem lt_of_sourceAt {e : Entropy} {n : Nat} (h : sourceAt e n ≠ .fenced) : n < e.sources.length := by
  by_contra hn
  exact h (List.getD_eq_default _ _ (Nat.le_of_not_lt hn))

/-- The row of a restart. -/
theorem exec_sourceRestart {s : State} {n : Nat} (hon : entropyOn s = true) (hsource : sourceAt s.ent n = .restarting) :
    exec (.sourceRestart n) s = .next (modEnt s (fun e => { e with sources := setAt e.sources n .startup })) :=
  congrArg Host.Outcome.next (if_pos ⟨hon, hsource⟩)

/-- The row of a start-up test that is passed. -/
theorem exec_sourceStartupPass {s : State} {n : Nat} {samples : List Bool} (hon : entropyOn s = true)
    (hsource : sourceAt s.ent n = .startup) (hlen : samples.length = 1024) (hpass : (runTests n {} samples).2 = none) :
    exec (.sourceStartupPass n samples) s = .next (modEnt s (fun e =>
      { e with sources := setAt e.sources n .healthy, tests := setAt e.tests n (runTests n {} samples).1 })) :=
  congrArg Host.Outcome.next (if_pos ⟨hon, hsource, hlen, hpass⟩)

/-- The conditioned outputs of the block with one more: READY keeps one for the next reseed; before an instantiation two are gathered,
once every unfenced source has passed its start-up test (07 R240). -/
def outputsWith (e : Entropy) (x : List Byte) : List (List Byte) :=
  match e.st with
  | .ready => [x]
  | .failed => e.outputs
  | _ => if allHealthy e && !e.katFailed then (e.outputs ++ [x]).take 2 else e.outputs

/-- The row of a block whose samples pass their tests. -/
theorem exec_conditionedBlock {s : State} {samples : List Bool} {ts : List SourceTests} (hon : entropyOn s = true)
    (hlen : samples.length = 1024) (hsources : healthySources s.ent ≠ []) (htests : blockTests s.ent samples = some ts) :
    exec (.conditionedBlock samples) s =
      .next { s with ent := { s.ent with tests := ts, outputs := outputsWith s.ent (sha384 (blockBytes samples)) } } := by
  have hgo : (!entropyOn s || samples.length != 1024 || (healthySources s.ent).isEmpty) = false := by
    simp [hon, hlen, hsources]
  change execConditionedBlock s samples = _
  rw [execConditionedBlock, hgo, htests]
  generalize sha384 (blockBytes samples) = x
  refine congrArg Host.Outcome.next ((if_neg Bool.false_ne_true).trans ?_)
  cases hst : s.ent.st with
  | ready => simp only [modEnt, outputsWith, hst]
  | failed => simp only [modEnt, outputsWith, hst]
  | _ =>
    simp only [modEnt, outputsWith, hst]
    by_cases hgather : (allHealthy s.ent && !s.ent.katFailed) = true
    · exact (if_pos hgather).trans (by rw [if_pos hgather])
    · exact (if_neg hgather).trans (by rw [if_neg hgather])

/-- The row of an instantiation. -/
theorem exec_drbgInstantiate {s : State} (hon : entropyOn s = true) (h : instantiating s = true) :
    exec .drbgInstantiate s = .next (orReg (modEnt s (fun e => { e with
      st := .ready, outputs := [], instantiated := true, calls := 0, seededAt := s.rtc
      drbg := drbgInstantiate (s.ent.outputs.getD 0 []) ((s.ent.outputs.getD 1 []).take 16) s.sec.otp.serial })) 0x4008 1) := by
  change execDrbgInstantiate s = _
  rw [execDrbgInstantiate, hon, h, Bool.and_self, if_pos rfl]

/-- The row of a reseed. -/
theorem exec_drbgReseed {s : State} (hon : entropyOn s = true) (h : reseeding s = true) :
    exec .drbgReseed s = .next (modEnt s (fun e => { e with
      outputs := [], drbg := drbgReseed e.drbg (e.outputs.headD []), calls := 0, seededAt := s.rtc })) := by
  change execDrbgReseed s = _
  rw [execDrbgReseed, hon, h, Bool.and_self, if_pos rfl]

end Sys2Proof.Machine

open Sys2Proof Sys2Proof.Machine

/-- Settles O40: a failing test halts the block (`haltedEntropy`) and marks its source (`entropyView_failure`), which leaves
it HALTED or FAILED (`withSource_enough`, `withSource_few`); each row of the recovery changes the block alone
(`exec_sourceRestart`, `exec_sourceStartupPass`, `exec_conditionedBlock`, `exec_drbgInstantiate`, `exec_drbgReseed`). -/
theorem sourcesFailAndRecover : Obligations.SourcesFailAndRecover := by
  refine ⟨?fails, ?restart, ?startup, ?block, ?instantiate, ?reseed⟩
  case fails =>
    intro s n test samples hon hst hn hfuses htakes hfail fails
    refine ⟨_, exec_healthTestFail hon hst htakes hfail, ?_⟩
    have hview := entropyView_failure s n test
    rw [entropyView, Prod.mk.injEq] at hview
    obtain ⟨hent, hsec⟩ := hview
    have hblown : (fuseBlown s.sec n).otp.entropyFails.getD n 0 = fails := by simp [fuseBlown, fusesAfter, setAt, hfuses, fails]
    have hsource : sourceAt { haltedEntropy s.ent with sources := setAt s.ent.sources n (failedSource (fusesAfter s.sec n)) } n =
        failedSource fails := sourceAt_setAt_same (e := haltedEntropy s.ent) _ hn
    rw [hent, hsec, hblown]
    rcases Nat.lt_or_ge ((setAt s.ent.sources n (failedSource (fusesAfter s.sec n))).countP (· != .fenced)) 2 with hfew | henough
    · rw [withSource_few (e := haltedEntropy s.ent) hfew]
      exact ⟨rfl, rfl, rfl, .inr rfl, rfl, hsource, rfl, fun _ => ⟨rfl, rfl⟩, fun h => absurd hfew (Nat.not_lt.mpr h)⟩
    · rw [withSource_enough (e := haltedEntropy s.ent) henough]
      exact ⟨rfl, rfl, rfl, .inl rfl, rfl, hsource, haltedEntropy_queue s.ent,
        fun h => absurd h (Nat.not_lt.mpr henough), fun _ => rfl⟩
  case restart =>
    intro s n hon hsource
    refine ⟨_, exec_sourceRestart hon hsource, sourceAt_setAt_same _ (lt_of_sourceAt (by simp [hsource])), ?_, rfl⟩
    exact fun k hk => sourceAt_setAt_other s.ent _ hk
  case startup =>
    intro s n samples hon hsource hlen hpass
    refine ⟨_, exec_sourceStartupPass hon hsource hlen hpass, ?_, ?_, rfl⟩
    · exact sourceAt_setAt_same _ (lt_of_sourceAt (by simp [hsource]))
    · exact fun k hk => sourceAt_setAt_other s.ent _ hk
  case block =>
    intro s samples ts hon hlen hsources htests x
    rw [exec_conditionedBlock hon hlen hsources htests]
    refine ⟨fun hst => by rw [outputsWith, hst], fun hst hhealthy hkat => ?_⟩
    have hgathers : outputsWith s.ent x = (s.ent.outputs ++ [x]).take 2 := by
      rcases hst with hst | hst <;> simp [outputsWith, hst, hhealthy, hkat]
    rw [hgathers]
  case instantiate =>
    intro s x y hon hst hkat houtputs hhealthy
    have hgo : instantiating s = true := by
      rcases hst with hst | hst <;> simp [instantiating, hst, hkat, houtputs, hhealthy]
    refine ⟨_, exec_drbgInstantiate hon hgo, ?_, ?_⟩
    · simp [modEnt, houtputs]
    · exact regBit_orReg_same _ 0x4008 (b := 0) (by decide)
  case reseed =>
    intro s x xs hon hst houtputs hdue
    rw [exec_drbgReseed hon (by simp [reseeding, hst, houtputs, hdue])]
    simp [modEnt, houtputs]
end

section
/-!
PROOFS. SEATING and the seeding of its run (07 R226, 08 R270, R272): what a seating reads, what its reads leave alone, and the seat that a
context takes.
-/

namespace Sys2Proof.Machine

/-! ### What a read of HBM gives and what it counts (13 R410, R415, R427) -/

/-- What code words read as depends on their marks alone, beside the readable bytes given. -/
theorem readWords_congr (n w : Nat) (cells : List Host.Cell) (last : Nat) {s t : State} (h : t.marks = s.marks) :
    (readWords n w cells last t).1 = (readWords n w cells last s).1 ∧
    (readWords n w cells last t).2.1 = (readWords n w cells last s).2.1 := by
  induction n generalizing w cells last s t with
  | zero => exact ⟨rfl, rfl⟩
  | succ n ih =>
    have hcorrected (v : State) (a : Nat) (first : Bool) : (corrected v (.hbm (stackOf w)) a first).marks = v.marks := by
      obtain ⟨_, _, _, hv⟩ := corrected_only v (.hbm (stackOf w)) a first
      rw [hv]
    simp only [readWords, h]
    split
    · split
      · obtain ⟨hbytes, hall⟩ := ih (w + 8) (cells.dropWhile (fun c => c.1 < w + 8)) last h
        exact ⟨by rw [hbytes], hall⟩
      · obtain ⟨hbytes, hall⟩ := ih (w + 8) (cells.dropWhile (fun c => c.1 < w + 8)) (w / 64 + 1)
          (s := corrected s (.hbm (stackOf w)) w (last != w / 64 + 1)) (t := corrected t (.hbm (stackOf w)) w (last != w / 64 + 1))
          (by rw [hcorrected, hcorrected, h])
        exact ⟨by rw [hbytes], hall⟩
    · exact ⟨rfl, rfl⟩

/-- What a read of HBM gives depends on the readable bytes and the marks alone. -/
theorem readHbm_congr {s t : State} (hhbm : t.hbm = s.hbm) (hmarks : t.marks = s.marks) (a n : Nat) :
    (readHbm t a n).1 = (readHbm s a n).1 := by
  unfold readHbm readPart
  split
  · rfl
  · obtain ⟨hbytes, hall⟩ := readWords_congr ((a + n + 7) / 8 - a / 8) (a / 8 * 8)
      (s.hbm.filter (fun c => a / 8 * 8 ≤ c.1 && c.1 < a / 8 * 8 + 8 * ((a + n + 7) / 8 - a / 8))) 0 hmarks
    dsimp only
    rw [hhbm, hbytes, hall]

section
variable {a : Nat} (ha : a < 0x301C)
include ha

/-- A memory event counts in no register below those of the Trail. -/
theorem regVal_memTrail (s : State) (u : MemUnit) (x k : Nat) : regVal (memTrail s u x k) a = regVal s a :=
  regVal_coalesce _ _ _ _ _ _ (Nat.ne_of_lt ha)

theorem regVal_recordLast (s : State) (u : MemUnit) (x k : Nat) : regVal (recordLast s u x k) a = regVal s a :=
  (regVal_setReg_other _ _ (by omega)).trans (regVal_setReg_other _ _ (by omega))

theorem regVal_memEvent (s : State) (u : MemUnit) (x k : Nat) : regVal (memEvent s u x k) a = regVal s a :=
  (regVal_memTrail ha ..).trans (regVal_recordLast ha ..)

theorem regVal_corrected (s : State) (u : MemUnit) (x : Nat) (first : Bool) : regVal (corrected s u x first) a = regVal s a := by
  have hlast : ∀ t, regVal (if first then recordLast t u (eventAddr u x) kindCorrected else t) a = regVal t a := by
    intro t
    split
    · exact regVal_recordLast ha ..
    · rfl
  have hcounted := (regVal_memTrail ha _ u (eventAddr u x) kindCorrected).trans
    ((hlast (bump s 0x48014 1)).trans (regVal_bump_other s 1 (by omega)))
  unfold corrected
  dsimp only
  generalize memTrail _ u (eventAddr u x) kindCorrected = t at hcounted ⊢
  cases u with
  | other c k => exact hcounted
  | _ =>
    dsimp only
    split
    · exact hcounted
    · exact hcounted

theorem regVal_badRead (s : State) (u : MemUnit) (x : Nat) (m : Option WordClass) : regVal (badRead s u x m) a = regVal s a := by
  have hcounted : regVal (bump s 0x48020 1) a = regVal s a := regVal_bump_other s 1 (by omega)
  unfold badRead
  dsimp only
  split
  · exact (regVal_memEvent ha ..).trans hcounted
  · exact (regVal_memEvent ha ..).trans hcounted
  · exact (regVal_memEvent ha ..).trans ((regVal_bump_other _ 1 (by omega)).trans hcounted)
  · exact (regVal_memEvent ha ..).trans hcounted

theorem regVal_readWords (n w : Nat) (cells : List Host.Cell) (last : Nat) (s : State) :
    regVal (readWords n w cells last s).2.2 a = regVal s a := by
  induction n generalizing w cells last s with
  | zero => rfl
  | succ n ih =>
    simp only [readWords]
    split
    · split
      · exact ih ..
      · exact (ih ..).trans (regVal_corrected ha ..)
    · exact regVal_badRead ha ..

theorem regVal_readHbm (s : State) (x n : Nat) : regVal (readHbm s x n).2 a = regVal s a := by
  unfold readHbm readPart
  split
  · rfl
  · exact regVal_readWords ha ..

end

/-! ### The seating -/

/-- Marking shares as used changes the cores alone. -/
theorem touchShares_only (s : State) (mi : Nat) (cores : List Nat) : ∃ x, touchShares s mi cores = { s with cores := x } := by
  unfold touchShares
  induction cores generalizing s with
  | nil => exact ⟨_, rfl⟩
  | cons p cores ih =>
    obtain ⟨x, h⟩ := ih (modCore s p (fun c => { c with shares := c.shares.map (fun h =>
      if h.model = mi then { h with used := nextUse c } else h) }))
    exact ⟨x, h⟩

/-- With nothing pending, the next seating finds every register as it is (08 R282). -/
theorem seatingBoundary_none {s : State} (h : s.heldRegs = []) : seatingBoundary s = s := by
  have hnone : seatingBoundary s = { s with heldRegs := [] } := by
    rw [seatingBoundary, applyHeld, h]
    rfl
  rw [hnone, ← h]

/-- A seating that has counted and marked its shares as used. -/
def seatCounted (s : State) (mi place : Nat) (c : Ctx) : State :=
  let t := bump64 s 0x110 1
  touchShares t mi ((runBlocks t c place).map (·.2))

/-- That has read the context's HBM copy too. -/
def seatRead (s : State) (mi place : Nat) (c : Ctx) : State := (readHbm (seatCounted s mi place c) c.addr (moveLen c)).2

theorem seatCounted_only (s : State) (mi place : Nat) (c : Ctx) :
    ∃ x y, seatCounted s mi place c = { s with regs := x, cores := y } := by
  obtain ⟨x, hx⟩ := bump64_only s 0x110 1
  obtain ⟨y, hy⟩ := touchShares_only (bump64 s 0x110 1) mi ((runBlocks (bump64 s 0x110 1) c place).map (·.2))
  exact ⟨x, y, by rw [seatCounted, hy, hx]⟩

theorem tables_seatRead (s : State) (mi place : Nat) (c : Ctx) : tables (seatRead s mi place c) = tables s := by
  obtain ⟨_, _, h⟩ := seatCounted_only s mi place c
  rw [seatRead, tables_readHbm, h]
  rfl

/-- The words of the class read as before. -/
theorem seatCounted_reads (s : State) (mi place : Nat) (c : Ctx) :
    (readHbm (seatCounted s mi place c) c.addr (moveLen c)).1 = (readHbm s c.addr (moveLen c)).1 := by
  obtain ⟨_, _, h⟩ := seatCounted_only s mi place c
  exact readHbm_congr (by rw [h]) (by rw [h]) _ _

theorem residencyMax_seatRead (s : State) (mi place : Nat) (c : Ctx) : residencyMax (seatRead s mi place c) = residencyMax s := by
  have hcount : regVal (bump64 s 0x110 1) 0x100 = regVal s 0x100 :=
    (regVal_setReg_other _ _ (by decide)).trans (regVal_setReg_other _ _ (by decide))
  have hshares : regVal (seatCounted s mi place c) 0x100 = regVal (bump64 s 0x110 1) 0x100 := by
    obtain ⟨_, h⟩ := touchShares_only (bump64 s 0x110 1) mi ((runBlocks (bump64 s 0x110 1) c place).map (·.2))
    rw [seatCounted, h, regVal, regVal]
  rw [residencyMax, regField, seatRead, regVal_readHbm (by decide), hshares, hcount]
  rfl

/-- The seat that a context takes on a placement (08 R272). -/
def seatTaken (s : State) (mi place : Nat) (c : Ctx) : Seat :=
  let v := seatRead s mi place c
  { placement := place, left := residency v c.data, data := c.data, sweep := none, sat := 0,
    places := seatPlaces v c (ctxModel v c) (runBlocks (bump64 s 0x110 1) c place) }

theorem seatCtx_seats {s : State} (mi place i : Nat) {c : Ctx} (hheld : s.heldRegs = []) (hgood : (ctxModel s c).bad = false)
    (hread : (readHbm s c.addr (moveLen c)).1.isSome = true) :
    seatCtx s mi place i c = setCtx (fillSeat (seatRead s mi place c) c c.data (seatTaken s mi place c).places) i
      { c with placement := place, seat := some (seatTaken s mi place c) } := by
  have hmodel : (ctxModel (seatRead s mi place c) c).bad = false := by
    rwa [ctxModel, models_of_tables (tables_seatRead ..)]
  rw [← seatCounted_reads s mi place c] at hread
  have hgo : ((readHbm (seatCounted s mi place c) c.addr (moveLen c)).1.isNone || (ctxModel (seatRead s mi place c) c).bad) = false := by
    rw [hmodel, Option.isNone_eq_false_iff.mpr hread, Bool.or_self]
  unfold seatCtx
  rw [seatingBoundary_none hheld]
  exact if_neg (by rw [Bool.not_eq_true]; exact hgo)

theorem tables_writeSpad (s : State) (p a : Nat) (bs : List Byte) : tables (writeSpad s p a bs) = tables s := by
  obtain ⟨_, _, _, h⟩ := writeSpad_only s p a bs
  rw [h]
  rfl

theorem tables_fillSeat (s : State) (c : Ctx) (d : CtxData) (places : List (Nat × Nat × Nat × Nat)) :
    tables (fillSeat s c d places) = tables s := by
  unfold fillSeat
  exact each_keeps tables (fun _ _ => tables_writeSpad ..) _ s

/-- The row of a seating: the first context that waits takes its seat. -/
theorem exec_seating {s : State} {mi place i : Nat} {l : List Nat} {c : Ctx} (hwaiting : waitingIn s mi place = i :: l)
    (hc : lookup s.ctxs i = some c) (hon : engineOn s = true) (hfence : fenceDue s (.model mi) (runLogical s c place) = false)
    (hseats : (listAt s mi place).length - (waitingIn s mi place).length < 3)
    (hshares : absentShares s mi (runBlocks s c place) = []) :
    exec (.seating mi place) s = .next (seatCtx s mi place i c) := by
  have hgo : (!engineOn s || fenceDue s (.model mi) (runLogical s c place) ||
      decide (3 ≤ (listAt s mi place).length - (waitingIn s mi place).length) ||
      !(absentShares s mi (runBlocks s c place)).isEmpty) = false := by
    simp [hon, hfence, Nat.not_le.mpr hseats, hshares]
  change execSeating mi place s = _
  rw [hwaiting] at hgo
  rw [execSeating, hwaiting]
  dsimp only
  rw [hc]
  exact congrArg Host.Outcome.next (if_neg (by rw [Bool.not_eq_true]; exact hgo))

/-- The row of a seeding marks the run as seeded (07 R226). -/
theorem exec_generatorSeedingDone {s : State} (i : Nat) (hon : engineOn s = true) :
    exec (.generatorSeedingDone i) s =
      .next (modCtx s i (fun c => { c with run := c.run.map (fun v => { v with seeded := true }) })) :=
  congrArg Host.Outcome.next (if_pos hon)

end Sys2Proof.Machine
end

section
/-!
PROOFS. CONTEXT_WRITE_BACK (08 R270, R272): the seat's words are read, and the context goes back to its list or, at the end of its run,
is Idle.
-/

namespace Sys2Proof.Machine

/-- The engines' reads of scratchpads leave the tables and what has left the module. -/
theorem readPlaces_keeps (us : List (Nat × Nat × Nat)) (s : State) :
    tables (readPlaces us s).2 = tables s ∧ (readPlaces us s).2.out = s.out := by
  induction us generalizing s with
  | nil => exact ⟨rfl, rfl⟩
  | cons u us ih =>
    have hread : tables (readSpad s u.1 u.2.1 u.2.2).2 = tables s ∧ (readSpad s u.1 u.2.1 u.2.2).2.out = s.out := by
      obtain ⟨_, _, _, h⟩ := readSpad_only s u.1 u.2.1 u.2.2
      rw [h]
      exact ⟨rfl, rfl⟩
    unfold readPlaces
    dsimp only
    split
    · exact hread
    · obtain ⟨htables, hout⟩ := ih (readSpad s u.1 u.2.1 u.2.2).2
      exact ⟨htables.trans hread.1, hout.trans hread.2⟩

/-- A context out of its seat at the end of a residency, its run going on (08 R272). -/
def writtenBack (c : Ctx) (seat : Seat) (v : Run) : Ctx := { c with data := seat.data, seat := none, run := some (runNow c v) }

/-- Nothing leaves the module with a write-back. -/
theorem writeBack_out (s : State) (i : Nat) (old new : Ctx) : (writeBack s i old new).out = s.out :=
  (writeHbm_out ..).trans (setCtx_out ..)

/-- A context that goes to the tail of its list stands there, and nowhere else in it. -/
theorem runList_toTail {s : State} {mi place : Nat} {m : Model} (hm : lookup s.models mi = some m) (hplace : place < m.lists.length)
    (i : Nat) : runList (toTail s mi place i) mi place = (runList s mi place).filter (· != i) ++ [i] := by
  simp [runList, toTail, hm, modAt, hplace]

section
variable {s : State} {i : Nat} {c : Ctx} {seat : Seat} {v : Run} (hc : lookup s.ctxs i = some c) (hseat : c.seat = some seat)
  (hrun : c.run = some v) (hon : engineOn s = true) (hsweep : seat.sweep = none)
  (hread : (readPlaces (seat.places.map (·.2)) s).1 = none)
include hc hseat hrun hon hsweep hread

/-- The row at the last boundary of a residency. -/
theorem exec_contextWriteBack_residency (hstop : v.stop = none) (hleft : seat.left = 0) :
    exec (.contextWriteBack i) s = .next (toTail
      (writeBack (readPlaces (seat.places.map (·.2)) s).2 i c (writtenBack c seat v)) c.model seat.placement i) := by
  change execContextWriteBack i s = _
  simp [execContextWriteBack, hc, hseat, hrun, hon, hsweep, hread, hstop, hleft, writtenBack]

/-- The row at the last boundary of a run. -/
theorem exec_contextWriteBack_run {reason : Nat} (hstop : v.stop = some reason) :
    exec (.contextWriteBack i) s = .next (endRun (readPlaces (seat.places.map (·.2)) s).2 i c v reason) := by
  change execContextWriteBack i s = _
  simp [execContextWriteBack, hc, hseat, hrun, hon, hsweep, hread, hstop]

end

/-- Of the tables, the end of a run leaves its context unseated and out of its model's lists. -/
theorem tables_endRun (s : State) (i : Nat) (c : Ctx) (v : Run) (reason : Nat) :
    tables (endRun s i c v reason) = (put s.ctxs i (unseated c .idle), (leaveLists s c.model i).models) := by
  rw [endRun, tables_runReply, tables_takeSaves, tables_unseat]

end Sys2Proof.Machine
end

section
/-!
PROOFS. DYNAMIC_LOAD_BALANCE and SHARE_EVICTION (08 R273, R275): the list that a context moves to, and the shares that are loaded.
-/

namespace Sys2Proof.Machine

/-! ### DYNAMIC_LOAD_BALANCE -/

/-- The other lists stay as they were. -/
theorem runList_joinList_other (s : State) (mi i : Nat) {place p : Nat} (h : p ≠ place) :
    runList (joinList s mi place i) mi p = runList s mi p := by
  cases hm : lookup s.models mi <;> simp [runList, joinList, hm, modAt, h.symm]

/-- A context that moves to the list of another placement, with its run (08 R275). -/
def rebalanced (s : State) (mi place i : Nat) : State :=
  modCtx (joinList (leaveLists s mi i) mi place i) i (fun c => { c with run := c.run.map (fun v => { v with placement := place }) })

theorem exec_dynamicLoadBalance {s : State} {mi place q i : Nat} {m : Model} (hon : engineOn s = true) (hdlb : regBit s 0x100 0 = true)
    (hm : lookup s.models mi = some m) (hplace : place < m.lists.length) (hnone : waitingIn s mi place = [])
    (hdonor : donor s mi place = some q) (hlast : (waitingIn s mi q).getLast? = some i) :
    exec (.dynamicLoadBalance mi place) s = .next (reproEvent (bump (rebalanced s mi place i) 0x118 1) 5) := by
  have hmodel : modelAt s mi = m := by rw [modelAt, lookupD, hm, Option.getD_some]
  change execDynamicLoadBalance mi place s = _
  simp [execDynamicLoadBalance, hon, hdlb, hmodel, hplace, hnone, hdonor, hlast, rebalanced]

/-- It stands at the tail of its new list, and in no other. -/
theorem runList_rebalanced {s : State} {mi place : Nat} {m : Model} (hm : lookup s.models mi = some m) (hplace : place < m.lists.length)
    (i : Nat) : (∀ p, p ≠ place → i ∉ runList (rebalanced s mi place i) mi p) ∧
    (runList (rebalanced s mi place i) mi place).getLast? = some i := by
  have hlists : ∀ p, runList (rebalanced s mi place i) mi p = runList (joinList (leaveLists s mi i) mi place i) mi p :=
    runList_congr (modCtx_models ..) mi
  have hleft : lookup (leaveLists s mi i).models mi = some { m with lists := m.lists.map (fun l => l.filter (· != i)) } := by
    simp [leaveLists, hm]
  refine ⟨fun p hp => ?_, ?_⟩
  · rw [hlists, runList_joinList_other _ _ _ hp]
    exact not_mem_runList_leaveLists _ _ _ _
  · rw [hlists, runList_joinList hleft (by simpa using hplace), List.getLast?_concat]

/-- The move counts in DLB_MOVES, beside the event of reproducible mode. -/
theorem regVal_rebalanced (s : State) (mi place i : Nat) :
    regVal (reproEvent (bump (rebalanced s mi place i) 0x118 1) 5) 0x118 = min (regVal s 0x118 + 1) 0xFFFFFFFF := by
  have hcount : regVal (bump (rebalanced s mi place i) 0x118 1) 0x118 = min (regVal s 0x118 + 1) 0xFFFFFFFF := regVal_bump_same ..
  unfold reproEvent
  split
  · exact (regVal_orReg_other _ _ (by decide)).trans hcount
  · exact hcount

/-! ### SHARE_EVICTION -/

/-- Room for shares is made on the cores alone. -/
theorem makeRoom_only {n : Nat} {s t : State} {p need : Nat} (h : makeRoom n s p need = some t) : ∃ x, t = { s with cores := x } := by
  induction n generalizing s with
  | zero =>
    rw [makeRoom] at h
    split at h
    · cases h
      exact ⟨_, rfl⟩
    · cases h
  | succ n ih =>
    rw [makeRoom] at h
    split at h
    · cases h
      exact ⟨_, rfl⟩
    · split at h
      · cases h
      · obtain ⟨x, hx⟩ := ih h
        exact ⟨x, hx⟩

theorem roomOnCores_only {n : State → Nat → Nat} {need : Nat → Nat} {ps : List Nat} {acc : Option State} {t : State}
    (h : ps.foldl (fun (acc : Option State) p => acc.bind (fun s => makeRoom (n s p) s p (need p))) acc = some t) :
    ∃ s x, acc = some s ∧ t = { s with cores := x } := by
  induction ps generalizing acc with
  | nil => exact ⟨t, t.cores, h, rfl⟩
  | cons p ps ih =>
    obtain ⟨u, x, hu, ht⟩ := ih h
    obtain ⟨s, hacc, hroom⟩ := Option.bind_eq_some_iff.mp hu
    obtain ⟨y, hy⟩ := makeRoom_only hroom
    exact ⟨s, x, hacc, by rw [ht, hy]⟩

theorem roomFor_only {s t : State} {m : Model} {absent : List (Nat × Nat)} (h : roomFor s m absent = some t) :
    ∃ x, t = { s with cores := x } := by
  obtain ⟨u, x, hu, ht⟩ := roomOnCores_only h
  cases hu
  exact ⟨x, ht⟩

/-- What the loading of shares decides by: contexts, models, and what the cores hold. -/
def shareView (s : State) : Map Ctx × Map Model × Map Core := (s.ctxs, s.models, s.cores)

theorem shareView_lastBurst (s : State) (es : List (Nat × WordClass)) : shareView (lastBurst s es) = shareView s := by
  unfold lastBurst
  split
  · rfl
  · cases burstKeeps _ with
    | none => rfl
    | some e => simp [shareView, recordLast]

theorem shareView_scrubRange (s : State) (a n : Nat) : shareView (scrubRange s a n).2.2 = shareView s := by
  refine (shareView_lastBurst ..).trans
    (each_keeps (fun acc : Nat × Bool × State => shareView acc.2.2) (fun acc e => ?_) _ (0, true, s))
  split
  · obtain ⟨_, _, _, h⟩ := corrected_only acc.2.2 (.hbm (stackOf e.1)) e.1 true
    rw [h]
    rfl
  · obtain ⟨_, _, h⟩ := badRead_only acc.2.2 (.hbm (stackOf e.1)) e.1 (some e.2)
    rw [h]
    rfl

/-- Reading shares marks at most their model: contexts, cores and the models that are loaded stay. -/
theorem readShares_keeps (s : State) (mi : Nat) (m : Model) (bs : List Nat) :
    (readShares s mi m bs).ctxs = s.ctxs ∧ (readShares s mi m bs).cores = s.cores ∧
    (lookup (readShares s mi m bs).models mi).isSome = (lookup s.models mi).isSome := by
  have hview := each_keeps (fun s : State => (s.ctxs, s.cores, (lookup s.models mi).isSome)) (f := fun s b =>
    let r := scrubRange s (blockAt m b).addr (blockAt m b).size
    if r.2.1 then r.2.2 else { r.2.2 with models := adjust r.2.2.models mi (fun m => { m with bad := true }) })
    (fun s b => ?_) bs s
  · simp only [Prod.mk.injEq] at hview
    exact hview
  · have hscrub := shareView_scrubRange s (blockAt m b).addr (blockAt m b).size
    simp only [shareView, Prod.mk.injEq] at hscrub
    obtain ⟨hctxs, hmodels, hcores⟩ := hscrub
    dsimp only
    split
    · rw [hctxs, hmodels, hcores]
    · simp [hctxs, hmodels, hcores]

theorem coreState_modCore (s : State) (p q : Nat) (f : Core → Core) :
    coreState (modCore s p f) q = if q = p then f (coreState s p) else coreState s q := by
  unfold coreState modCore lookupD
  split
  case isTrue h => rw [h, lookup_put_same, Option.getD_some, coreState, lookupD]
  case isFalse h => rw [lookup_put_other _ _ h]

theorem coreState_congr {s t : State} (h : t.cores = s.cores) (p : Nat) : coreState t p = coreState s p := by
  rw [coreState, h, coreState]

theorem keptClean_cores (s : State) (m : Model) (b p : Nat) : (keptClean s m b p).2.cores = s.cores := by
  unfold keptClean
  split
  · rfl
  · rename_i k _
    obtain ⟨_, _, _, h⟩ := readSpad_only s p k.addr k.size
    dsimp only
    rw [h]

/-- A core's shares, and one more behind them. -/
theorem shares_modCore_append {s u : State} (hu : u.cores = s.cores) {p : Nat} {f : Core → Core} {h : ResShare}
    (hf : (f (coreState u p)).shares = (coreState u p).shares ++ [h]) (q : Nat) :
    (coreState (modCore u p f) q).shares = if q = p then (coreState s q).shares ++ [h] else (coreState s q).shares := by
  rw [coreState_modCore, ← coreState_congr hu]
  split
  case isTrue hq => rw [hq, hf]
  case isFalse => rfl

/-- A share that becomes resident stands behind the shares of its core. -/
theorem addShare_shares {s : State} {mi : Nat} (hm : (lookup s.models mi).isSome = true) (b p : Nat) :
    ∃ h : ResShare, h.model = mi ∧ h.block = b ∧ ∀ q, (coreState (addShare s mi b p) q).shares =
      if q = p then (coreState s q).shares ++ [h] else (coreState s q).shares := by
  obtain ⟨m, hm⟩ := Option.isSome_iff_exists.mp hm
  have hkept := keptClean_cores s m b p
  unfold addShare
  rw [hm]
  dsimp only
  split
  · exact ⟨⟨mi, b, _, _, _⟩, rfl, rfl, shares_modCore_append hkept rfl⟩
  · refine ⟨⟨mi, b, _, _, _⟩, rfl, rfl, shares_modCore_append ?_ rfl⟩
    obtain ⟨_, _, _, h⟩ := writeSpad_only (keptClean s m b p).2 p ((lowestGap 0 spadSize (blockAt m b).size 64
      ((coreState (keptClean s m b p).2 p).shares.map (fun h => (h.addr, h.size)) ++ seatRanges (keptClean s m b p).2 p)).getD 0)
      (rawBytes (keptClean s m b p).2 (blockAt m b).addr (blockAt m b).size)
    rw [h]
    exact hkept

theorem hasShare_addShare_same {s : State} {mi : Nat} (hm : (lookup s.models mi).isSome = true) (b p : Nat) :
    hasShare (addShare s mi b p) mi b p = true := by
  obtain ⟨h, hmodel, hblock, hshares⟩ := addShare_shares hm b p
  simp [hasShare, hshares, hmodel, hblock]

/-- A share that becomes resident displaces none. -/
theorem hasShare_addShare {s : State} {mi : Nat} (hm : (lookup s.models mi).isSome = true) (b p : Nat) {b' p' : Nat}
    (hhas : hasShare s mi b' p' = true) : hasShare (addShare s mi b p) mi b' p' = true := by
  obtain ⟨h, -, -, hshares⟩ := addShare_shares hm b p
  rw [hasShare, hshares]
  split
  · rw [List.any_append, ← hasShare, hhas, Bool.true_or]
  · exact hhas

theorem addShare_keeps (s : State) (mi b p : Nat) :
    (addShare s mi b p).models = s.models ∧ (addShare s mi b p).ctxs = s.ctxs := by
  have hmodels := congrArg State.models (loadRest_addShare s mi b p)
  have hctxs := congrArg State.ctxs (loadRest_addShare s mi b p)
  exact ⟨hmodels, hctxs⟩

theorem addShares_ctxs (s : State) (mi : Nat) (absent : List (Nat × Nat)) : (addShares s mi absent).ctxs = s.ctxs :=
  each_keeps State.ctxs (fun s (e : Nat × Nat) => (addShare_keeps s mi e.1 e.2).2) absent s

/-- Every share loaded is resident in the end, beside those that were. -/
theorem hasShare_addShares {s : State} {mi : Nat} (hm : (lookup s.models mi).isSome = true) (absent : List (Nat × Nat)) {b p : Nat}
    (h : hasShare s mi b p = true ∨ (b, p) ∈ absent) : hasShare (addShares s mi absent) mi b p = true := by
  induction absent generalizing s with
  | nil => exact h.resolve_right List.not_mem_nil
  | cons e absent ih =>
    refine ih (by rwa [(addShare_keeps s mi e.1 e.2).1]) ?_
    rcases h with hhas | hmem
    · exact .inl (hasShare_addShare hm e.1 e.2 hhas)
    · rcases List.mem_cons.mp hmem with rfl | hlater
      · exact .inl (hasShare_addShare_same hm b p)
      · exact .inr hlater

/-- A list with a waiting context is one of a model that is loaded. -/
theorem model_of_waitingIn {s : State} {mi place i : Nat} {l : List Nat} (h : waitingIn s mi place = i :: l) :
    (lookup s.models mi).isSome = true := by
  cases hm : lookup s.models mi with
  | some m => rfl
  | none =>
    have hnone : waitingIn s mi place = [] := by
      rw [waitingIn, listAt, modelAt, lookupD, hm]
      rfl
    rw [hnone] at h
    cases h

/-- The row of an eviction that makes room: the absent shares are read and loaded. -/
theorem exec_shareEviction {s v : State} {mi place i : Nat} {l : List Nat} {c : Ctx} (hwaiting : waitingIn s mi place = i :: l)
    (hc : lookup s.ctxs i = some c) (hon : engineOn s = true) (hsome : absentShares s mi (runBlocks s c place) ≠ [])
    (hroom : roomFor s (modelAt s mi) (absentShares s mi (runBlocks s c place)) = some v) :
    exec (.shareEviction mi place) s = .next (addShares
      (readShares v mi (modelAt v mi) ((absentShares s mi (runBlocks s c place)).map (·.1))) mi
      (absentShares s mi (runBlocks s c place))) := by
  change execShareEviction mi place s = _
  simp [execShareEviction, hwaiting, hc, hon, hsome, hroom]

end Sys2Proof.Machine

open Sys2Proof Sys2Proof.Machine

/-- Settles O32: a seating finds its words, its registers and the tables as they were (`seatCounted_reads`, `residencyMax_seatRead`,
`tables_seatRead`), so its context takes the seat (`seatCtx_seats`); a write-back puts the context at the tail of its list
(`runList_toTail`) or ends its run (`tables_endRun`); a load balance moves it between lists (`runList_rebalanced`), and an eviction
loads every absent share (`hasShare_addShares`). -/
theorem residenciesBeginAndEnd : Obligations.ResidenciesBeginAndEnd := by
  refine ⟨⟨?seating, ?seeding⟩, ?writeBack, ?balance, ?eviction⟩
  case seating =>
    intro s mi place i l c hwaiting hc hon hfence hseats hshares hheld hgood hread
    have hrow := exec_seating hwaiting hc hon hfence hseats hshares
    rw [seatCtx_seats mi place i hheld hgood hread] at hrow
    have hfilled := (tables_fillSeat (seatRead s mi place c) c c.data (seatTaken s mi place c).places).trans
      (tables_seatRead s mi place c)
    refine ⟨_, { c with placement := place, seat := some (seatTaken s mi place c) }, seatTaken s mi place c, hrow, ?_, rfl, rfl, ?_,
      rfl, rfl, fun j hj => ?_, ?_⟩
    · rw [setCtx_ctxs, lookup_put_same]
    · rw [← residencyMax_seatRead s mi place c]
      rfl
    · rw [setCtx_ctxs, lookup_put_other _ _ hj, ctxs_of_tables hfilled]
    · rw [setCtx_models, models_of_tables hfilled]
  case seeding =>
    intro s i c v hon hc hrun
    refine ⟨_, exec_generatorSeedingDone i hon, ?_, fun j hj => ?_, rfl⟩
    · simp [hc, hrun]
    · simp [lookup_adjust_other _ _ hj]
  case writeBack =>
    intro s i c seat v hc hseat hrun hon hsweep hread
    obtain ⟨htables, hout⟩ := readPlaces_keeps (seat.places.map (·.2)) s
    refine ⟨fun hstop hleft => ?_, fun reason hstop => ?_⟩
    · have hback := tables_writeBack (readPlaces (seat.places.map (·.2)) s).2 i c (writtenBack c seat v)
      rw [tables, Prod.mk.injEq] at hback
      obtain ⟨hctxs, hmodels⟩ := hback
      refine ⟨_, writtenBack c seat v, exec_contextWriteBack_residency hc hseat hrun hon hsweep hread hstop hleft, ?_, rfl, rfl, rfl,
        ?_, fun m hm hplace => ?_⟩
      · rw [toTail, hctxs, lookup_put_same]
      · exact (writeBack_out ..).trans hout
      · rw [models_of_tables htables] at hmodels
        rw [runList_toTail (by rw [hmodels, hm]) hplace, runList_congr hmodels]
    · have hend := tables_endRun (readPlaces (seat.places.map (·.2)) s).2 i c v reason
      rw [tables, Prod.mk.injEq] at hend
      obtain ⟨hctxs, hmodels⟩ := hend
      have hnow : ctxNow c = seat.data := by rw [ctxNow, hseat]
      refine ⟨_, _, unseated c .idle, exec_contextWriteBack_run hc hseat hrun hon hsweep hread hstop, rfl, ?_, ?_, rfl, rfl, rfl, hnow,
        fun q => ?_⟩
      · rw [endRun, hnow]
      · rw [hctxs, lookup_put_same]
      · rw [runList_congr hmodels]
        exact not_mem_runList_leaveLists _ _ _ _
  case balance =>
    intro s mi place q i m hon hdlb hm hplace hnone hdonor hlast
    obtain ⟨hothers, htail⟩ := runList_rebalanced hm hplace i
    have hlists : ∀ p, runList (reproEvent (bump (rebalanced s mi place i) 0x118 1) 5) mi p = runList (rebalanced s mi place i) mi p :=
      runList_congr (by rw [reproEvent_models, bump_models]) mi
    refine ⟨_, exec_dynamicLoadBalance hon hdlb hm hplace hnone hdonor hlast, fun p hp => ?_, ?_, regVal_rebalanced s mi place i⟩
    · rw [hlists]
      exact hothers p hp
    · rw [hlists, htail]
  case eviction =>
    intro s v mi place i l c hwaiting hc hon hsome hroom
    obtain ⟨x, hx⟩ := roomFor_only hroom
    obtain ⟨hctxs, -, hmodels⟩ := readShares_keeps v mi (modelAt v mi) ((absentShares s mi (runBlocks s c place)).map (·.1))
    refine ⟨_, exec_shareEviction hwaiting hc hon hsome hroom, ?_, fun e he => ?_⟩
    · rw [addShares_ctxs, hctxs, hx]
    · refine hasShare_addShares ?_ _ (.inr he)
      rw [hmodels, hx, model_of_waitingIn hwaiting]
end

section
/-!
PROOFS. MODEL_VERIFY and MODEL_FREE (08 R254, 11 R345, R346): what a scrub of a model keeps, and what a model that is freed takes with
it from the cores.
-/

namespace Sys2Proof.Machine

/-- The model that a handle names stands at the handle's index. -/
theorem lookup_of_modelOfHandle {s : State} {h i : Nat} {m : Model} (hm : modelOfHandle s h = some (i, m)) :
    h % 2 ^ 12 = i ∧ lookup s.models i = some m := by
  unfold modelOfHandle at hm
  split at hm
  case h_1 m' hlookup =>
    split at hm
    case isTrue =>
      cases hm
      exact ⟨rfl, hlookup⟩
    case isFalse => cases hm
  case h_2 => cases hm

/-! ### MODEL_VERIFY -/

/-- A scrub reads the words of a model, and changes no table. -/
theorem scrubModel_models (s : State) (m : Model) : (scrubModel s m).2.2.models = s.models :=
  each_keeps (fun acc : Nat × Bool × State => acc.2.2.models)
    (fun acc u => congrArg (fun v => v.2.1) (shareView_scrubRange acc.2.2 u.1 u.2)) _ (0, true, s)

/-- The model at an index is marked as one with a bad word (11 R345). -/
def markBad (s : State) (i : Nat) : State := { s with models := adjust s.models i (fun m => { m with bad := true }) }

/-- The payload that MODEL_VERIFY replies, for the words corrected. -/
def verifyBytes (m : Model) (fixed : Nat) : List Byte := m.digest ++ m.modelId ++ leBytes 8 fixed ++ zeros 8

/-- MODEL_VERIFY without an image ends as the scrub of its model does. -/
def verified (s : State) (r : Req) (i : Nat) (m : Model) : State :=
  let v := scrubModel s m
  if v.2.1 then reply v.2.2 r 0x21 .ok 0 (verifyBytes m v.1)
  else reply (markBad v.2.2 i) r 0x21 .dataError 0x0307 (verifyBytes m v.1)

section
variable {s : State} {r : Req} {p : List Byte} {i : Nat} {m : Model} (hm : modelOfHandle s (u32 p 0) = some (i, m))
  (hzero : allZero (slice p 4 4) = true)
include hm hzero

theorem exec_modelVerify (hready : Ready s r 0x21 none (some (u32 p 0 % 2 ^ 12))) (hlen : p.length = 16) (himage : u64 p 8 = 0) :
    exec (.modelVerify r p) s = .next (verified (unqueue s r 0x21) r i m) := by
  rw [← modelOfHandle_unqueue s r 0x21] at hm
  show execModelVerify r p s = _
  rw [execModelVerify, serve_ready hready]
  dsimp only
  rw [checked_pass (by simp [firstErr, hlen, hzero, himage, hm]), hm, verified]
  dsimp only
  cases hgood : (scrubModel (unqueue s r 0x21) m).2.1 <;> simp [himage, markBad, verifyBytes]

/-! ### MODEL_FREE -/

/-- The checks of MODEL_FREE pass up to the last, which asks whether the model has a context. -/
theorem exec_modelFree (hready : Ready s r 0x22 none (some (u32 p 0 % 2 ^ 12))) (hlen : p.length = 8) :
    exec (.modelFree r p) s = .next (
      if s.ctxs.any (fun e => e.2.model == i) then reply (unqueue s r 0x22) r 0x22 .contextBusy 0x0360
      else reply (dropModel (unqueue s r 0x22) i) r 0x22 .ok) := by
  obtain ⟨rfl, -⟩ := lookup_of_modelOfHandle hm
  rw [← modelOfHandle_unqueue s r 0x22] at hm
  show execModelFree r p s = _
  rw [execModelFree, serve_ready hready]
  cases hlive : s.ctxs.any (fun e => e.2.model == u32 p 0 % 2 ^ 12)
  case true =>
    simp only [checked, hlen, hzero, hm, unqueue_ctxs, hlive]
    rfl
  case false =>
    simp only [checked, hlen, hzero, hm, unqueue_ctxs, hlive]
    rfl

end

@[simp] theorem dropModel_models (s : State) (i : Nat) : (dropModel s i).models = del s.models i := rfl

@[simp] theorem dropModel_ctxs (s : State) (i : Nat) : (dropModel s i).ctxs = s.ctxs := rfl

@[simp] theorem dropModel_hbm (s : State) (i : Nat) : (dropModel s i).hbm = s.hbm := rfl

@[simp] theorem dropModel_slots (s : State) (i : Nat) :
    (dropModel s i).slots = s.slots.filter (fun e => !(e.owner == .model i)) := rfl

/-- A core that holds no share and no schedule of a model. -/
def coreWithout (i : Nat) (c : Core) : Core :=
  { c with shares := c.shares.filter (fun h => h.model != i), schedules := c.schedules.filter (fun e => !(e.1 == .model i)) }

/-- A model that is dropped leaves every core. -/
theorem coreState_dropModel (s : State) (i c : Nat) : coreState (dropModel s i) c = coreWithout i (coreState s c) := by
  have hcores : (dropModel s i).cores = s.cores.map (fun e => (e.1, coreWithout i e.2)) := List.map_map
  rw [coreState, coreState, lookupD, lookupD, hcores, lookup_map]
  cases lookup s.cores c with
  | none => rfl
  | some core => rfl

end Sys2Proof.Machine

open Sys2Proof Sys2Proof.Machine

/-- Settles O17: a verification ends as its scrub does (`exec_modelVerify`), which keeps the table (`scrubModel_models`); a model that
has no context leaves the table and the cores (`exec_modelFree`, `coreState_dropModel`). -/
theorem modelVerifyAndFree : Obligations.ModelVerifyAndFree := by
  refine ⟨⟨?verify, ?free⟩, ?busy⟩
  case verify =>
    intro s r p i m hready hlen hzero himage hm v out
    have hexec := exec_modelVerify hm hzero hready hlen himage
    refine ⟨fun hgood => ?_, fun hbad => ⟨markBad v.2.2 i, ?_, ?_⟩⟩
    · rw [hexec, verified, if_pos hgood]
      rfl
    · rw [hexec, verified, if_neg (by simpa [v] using hbad)]
      rfl
    · rw [markBad, lookup_adjust_same, scrubModel_models, unqueue_models, (lookup_of_modelOfHandle hm).2]
      rfl
  case free =>
    intro s r p i m hready hlen hzero hm hunused
    refine ⟨dropModel (unqueue s r 0x22) i, ?_, ?_, fun j hj => ?_, fun c => ?_, fun c => ?_, ?_, ?_, ?_⟩
    · rw [exec_modelFree hm hzero hready hlen, hunused]
      rfl
    · rw [dropModel_models, lookup_del_same]
    · rw [dropModel_models, lookup_del_other _ hj, unqueue_models]
    · rw [coreState_dropModel, coreState_congr (unqueue_cores ..), coreWithout]
    · rw [coreState_dropModel, coreState_congr (unqueue_cores ..), coreWithout]
    · rw [dropModel_slots, unqueue_slots]
    · rw [dropModel_ctxs, unqueue_ctxs]
    · rw [dropModel_hbm, unqueue_hbm]
  case busy =>
    intro s r p i m hready hlen hzero hm hlive
    rw [exec_modelFree hm hzero hready hlen, hlive]
    rfl
end

section
/-!
PROOFS. CTX_DESTROY and CTX_QUERY (08 R254, R255, R281, 11 R349).
-/

namespace Sys2Proof.Machine

/-- The checks of CTX_DESTROY, in their order: the context is Idle. -/
def destroyChecks (s : State) (p : List Byte) : List (Bool × Status × Nat) :=
  handleChecks s p ++ [((ctxOf s (u32 p 0)).any (fun c => c.st != .idle), .contextBusy, 0x0360)]

/-- What CTX_DESTROY of an Idle context does: it waits for a save that is being written. -/
def destroyAnswer (s : State) (r : Req) (h : Nat) : State :=
  if s.saves.any (fun v => v.ctx == ctxIndex h) then
    { hold s r 0x34 (some (ctxIndex h)) none with destroys := s.destroys ++ [(r, h)] }
  else reply (dropCtx s (ctxIndex h)) r 0x34 .ok

theorem destroyAnswer_waits {s : State} (r : Req) {h : Nat} (hsave : s.saves.any (fun v => v.ctx == ctxIndex h) = true) :
    destroyAnswer s r h = { hold s r 0x34 (some (ctxIndex h)) none with destroys := s.destroys ++ [(r, h)] } := if_pos hsave

theorem destroyAnswer_frees {s : State} (r : Req) {h : Nat} (hsave : s.saves.any (fun v => v.ctx == ctxIndex h) = false) :
    destroyAnswer s r h = reply (dropCtx s (ctxIndex h)) r 0x34 .ok := if_neg (by rw [hsave]; decide)

/-- CTX_QUERY replies the fields of its context's entry and of the model that the entry names. -/
theorem queryBytes_unqueue (s : State) (r : Req) (op h : Nat) (c : Ctx) : queryBytes (unqueue s r op) h c = queryBytes s h c := by
  simp only [queryBytes, ctxModel_unqueue]

theorem queryBytes_length (s : State) (h : Nat) (c : Ctx) : (queryBytes s h c).length = 64 := by
  simp [queryBytes, leBytes_length, zeros]

section
variable {s : State} {r : Req} {p : List Byte} {c : Ctx} (hlen : p.length = 8) (hzero : allZero (slice p 4 4) = true)
  (hctx : ctxOf s (u32 p 0) = some c)
include hlen hzero hctx

theorem destroyChecks_pass (hidle : c.st = .idle) : firstErr (destroyChecks s p) = none := by
  simp [destroyChecks, handleChecks, firstErr, hlen, hzero, hctx, hidle]

theorem exec_ctxDestroy (hready : Ready s r 0x34 (some (ctxIndex (u32 p 0))) none) (hidle : c.st = .idle) :
    exec (.ctxDestroy r p) s = .next (destroyAnswer (unqueue s r 0x34) r (u32 p 0)) := by
  rw [← ctxOf_unqueue s r 0x34] at hctx
  show execCtxDestroy r p s = _
  rw [execCtxDestroy, serve_ready hready]
  exact congrArg _ (checked_pass (destroyChecks_pass hlen hzero hctx hidle))

theorem exec_ctxQuery (hready : Ready s r 0x35 (some (ctxIndex (u32 p 0))) none) :
    exec (.ctxQuery r p) s = .next (reply (unqueue s r 0x35) r 0x35 .ok 0 (queryBytes s (u32 p 0) c)) := by
  rw [← ctxOf_unqueue s r 0x35] at hctx
  show execCtxQuery r p s = _
  rw [execCtxQuery, serve_ready hready, ← queryBytes_unqueue s r 0x35]
  refine congrArg _ ((checked_pass (handleChecks_pass hlen hzero hctx)).trans ?_)
  rw [hctx]

end

end Sys2Proof.Machine

open Sys2Proof Sys2Proof.Machine

/-- Settles O22: a destroy of an Idle context waits for its saves or frees the entry (`exec_ctxDestroy`), and a query replies the entry
(`exec_ctxQuery`), whose bytes are 64 (`queryBytes_length`). -/
theorem ctxDestroyAndQuery : Obligations.CtxDestroyAndQuery := by
  refine ⟨?destroy, ?query⟩
  case destroy =>
    intro s r p c hready hlen hzero hctx hidle u
    have hexec := exec_ctxDestroy hlen hzero hctx hready hidle
    refine ⟨fun hnone => ?_, fun hsome => ?_⟩
    · rw [hexec, destroyAnswer_frees r (by rwa [unqueue_saves])]
      rfl
    · rw [destroyAnswer_waits r (by rwa [unqueue_saves])] at hexec
      exact ⟨_, hexec, (hold_ctxs ..).trans (unqueue_ctxs ..), congrArg (· ++ [(r, u32 p 0)]) (unqueue_destroys s r 0x34)⟩
  case query =>
    intro s r p c hready hlen hzero hctx
    exact ⟨exec_ctxQuery hlen hzero hctx hready, queryBytes_length ..⟩
end

section
/-!
PROOFS. CTX_CREATE, CTX_UPDATE and CTX_RESTORE (08 R252 to R266, R279, R280): the entry of a new context, what counts and replies
leave alone, and what each command makes when its operands pass the checks.
-/

namespace Sys2Proof.Machine

/-! ### What the commands of contexts are about -/

/-- The tables of contexts and models, the saves that wait, and HBM with its marks. -/
def ctxView (s : State) : (Map Ctx × Map Model) × List Save × List Host.Cell × Map WordClass :=
  (tables s, s.saves, s.hbm, s.marks)

section
variable {s t : State} (h : ctxView t = ctxView s)
include h

theorem tables_of_ctxView : tables t = tables s := congrArg (·.1) h

theorem saves_of_ctxView : t.saves = s.saves := congrArg (·.2.1) h

theorem hbm_of_ctxView : t.hbm = s.hbm := congrArg (·.2.2.1) h

theorem marks_of_ctxView : t.marks = s.marks := congrArg (·.2.2.2) h

theorem peek_of_ctxView (b : Nat) : peek t b = peek s b := peek_congr (hbm_of_ctxView h) (marks_of_ctxView h) b

end

theorem ctxView_unqueue (s : State) (r : Req) (op : Nat) : ctxView (unqueue s r op) = ctxView s := by
  simp [ctxView, tables]

theorem ctxView_reply (s : State) (r : Req) (op : Nat) (st : Status) (d : Nat) (p : List Byte) (o : Nat) :
    ctxView (reply s r op st d p o) = ctxView s := by
  simp [ctxView, tables]

theorem ctxView_bump (s : State) (a n : Nat) : ctxView (bump s a n) = ctxView s := by
  simp [ctxView, tables]

theorem ctxView_readHbm (s : State) (a n : Nat) : ctxView (readHbm s a n).2 = ctxView s := by
  simp [ctxView, tables]

theorem ctxView_readSpans (s : State) (base : Nat) (us : List (Nat × Nat)) : ctxView (readSpans s base us).2 = ctxView s := by
  induction us generalizing s with
  | nil => rfl
  | cons u us ih =>
    rw [readSpans]
    split
    · exact (ih _).trans (ctxView_readHbm ..)
    · exact ctxView_readHbm ..

/-- Neural factors that ran are counted in registers alone (R350). -/
theorem ctxView_countNeural (s : State) (m : Model) (outs : List (Neural × NeuralOut)) : ctxView (countNeural s m outs) = ctxView s := by
  refine each_keeps ctxView (fun s o => ?_) outs s
  split
  · rfl
  · rw [ctxView_bump, ctxView_bump]

theorem ctxView_neuralReply (s : State) (r : Req) (op : Nat) (outs : List (Neural × NeuralOut)) (payload : List Byte) :
    ctxView (neuralReply s r op outs payload) = ctxView s := by
  unfold neuralReply
  split
  · exact ctxView_reply ..
  · exact ctxView_reply ..

/-- What is written stays written while HBM and its marks stay. -/
theorem Written.of_ctxView {s s' t t' : State} {a : Nat} {bs : List Byte} (h : Written s' t' a bs) (hs : ctxView s' = ctxView s)
    (ht : ctxView t = ctxView t') : Written s t a bs := by
  simpa only [Written, peek_of_ctxView hs, peek_of_ctxView ht] using h

/-! ### A new context (08 R253, R259) -/

theorem nextCtxGen_congr {s t : State} (h : t.ctxGens = s.ctxGens) (i : Nat) : nextCtxGen t i = nextCtxGen s i := by
  rw [nextCtxGen, h, nextCtxGen]

/-- A context that is installed enters the table with the next generation of its index. -/
theorem tables_installCtx (s : State) (i : Nat) (c : Ctx) (bytes : List Byte) :
    tables (installCtx s i c bytes) = (put s.ctxs i { c with gen := nextCtxGen s i }, s.models) :=
  tables_writeHbm ..

/-- Its class is written. -/
theorem installCtx_written (s : State) (i : Nat) (c : Ctx) (bytes : List Byte) :
    Written s (installCtx s i c bytes) c.addr (fit (classBytes c.sizeClass c.span) bytes) :=
  writeHbm_written { setCtx s i { c with gen := nextCtxGen s i } with ctxGens := put s.ctxGens i (nextCtxGen s i) } ..

/-! ### CTX_CREATE (R264, R347) -/

theorem createFits_unqueue (s : State) (r : Req) (op : Nat) (p : List Byte) (mi : Nat) (m : Model) (i a : Nat) :
    CreateFits (unqueue s r op) p mi m i a ↔ CreateFits s p mi m i a := by
  obtain ⟨_, _, _, h⟩ := unqueue_only s r op
  rw [h]
  rfl

/-- SCHED_TABLE entries of CTX_CREATE, 64 when it names none. -/
def createCap (p : List Byte) : Nat := if u16 p 12 = 0 then 64 else u16 p 12

/-- The content that CTX_CREATE gives its context (R264). -/
def createdData (p : List Byte) (m : Model) : CtxData :=
  let ev := createEvidence m (p.drop 32)
  let feats := createFeatures m (p.drop 32)
  newCtxData m (u8 p 9) (createCap p) (w64 p 16) ev feats (createLatent m (u8 p 9) (u8 p 10) (p.drop 32))
    (codeFields m (neuralOuts m (mergeVals m.vars ev []) feats))

/-- The entry of the context that CTX_CREATE makes. -/
def createdCtx (p : List Byte) (mi : Nat) (m : Model) (i a : Nat) : Ctx :=
  newCtx mi (homeOf (u8 p 8) i) a (u8 p 9) (createCap p) (usedBytes m (u8 p 9) (createCap p)) .idle (createdData p m)

/-- CTX_CREATE installs its context, counts what its neural factors ran, and replies. -/
theorem createCtx_placed {s : State} {p : List Byte} {mi i a : Nat} {m : Model} (r : Req) (hfits : CreateFits s p mi m i a) :
    ∃ outs payload, createCtx s r p mi m (p.drop 32) i = neuralReply (countNeural (installCtx s i (createdCtx p mi m i a)
      (ctxBytes m (u8 p 9) (createCap p) 0 (createdData p m))) m outs) r 0x30 outs payload := by
  obtain ⟨-, -, -, -, -, -, -, -, -, -, -, -, -, -, hplace, hspan⟩ := hfits
  rw [createCtx]
  dsimp only
  rw [hplace]
  exact ⟨_, _, if_neg (Nat.not_lt.mpr hspan)⟩

/-- The checks of CTX_CREATE with inline data on its fields, and on the values it gives and its index, in their order. -/
def createRanges (p : List Byte) (m : Model) : List (Bool × Status × Nat) :=
  [(u8 p 9 == 0 || decide (m.maxReplicas < u8 p 9) || decide (1 < u8 p 10) || decide (4096 < u16 p 12) ||
      !(decide (u8 p 8 < 8) || u8 p 8 == 0xFF) || (u32 p 4 != 0xFFFFFFFF && decide (2 ^ 18 ≤ u32 p 4)), badRange),
   (p.length != 32 + (createLens m (u8 p 9) (u8 p 10)).sum, badLength)]
def createValues (s : State) (p : List Byte) (m : Model) : List (Bool × Status × Nat) :=
  [(!belowK m (clampeds m) (createEvidence m (p.drop 32)) ||
      !(createLatent m (u8 p 9) (u8 p 10) (p.drop 32)).all (belowK m (latents m)), .badParam, 0x0312),
   (u32 p 4 != 0xFFFFFFFF && (lookup s.ctxs (u32 p 4)).isSome, .contextBusy, 0x0115),
   ((targetIndex s (u32 p 4)).isNone, .badParam, 0x0101)]

section
variable {s : State} {p : List Byte} {mi i a : Nat} {m : Model} (hfits : CreateFits s p mi m i a)
include hfits

theorem createRanges_pass : firstErr (createRanges p m) = none := by
  obtain ⟨-, -, hlen, -, -, hsome, hmax, hinit, hcap, hhome, hfree, -⟩ := hfits
  have htarget : (u32 p 4 != 0xFFFFFFFF && decide (2 ^ 18 ≤ u32 p 4)) = false := by
    rcases hfree with hany | ⟨hlt, -⟩
    · rw [hany]
      rfl
    · rw [decide_eq_false (Nat.not_le.mpr hlt), Bool.and_false]
  have hplace : (decide (u8 p 8 < 8) || u8 p 8 == 0xFF) = true := by simpa using hhome
  have hreplicas : (u8 p 9 == 0) = false := beq_eq_false_iff_ne.mpr (Nat.one_le_iff_ne_zero.mp hsome)
  simp only [createRanges, htarget, hplace, hreplicas, hlen, decide_eq_false (Nat.not_lt.mpr hmax),
    decide_eq_false (Nat.not_lt.mpr hinit), decide_eq_false (Nat.not_lt.mpr hcap), bne_self_eq_false]
  rfl

theorem createValues_pass : firstErr (createValues s p m) = none := by
  obtain ⟨-, -, -, -, -, -, -, -, -, -, hfree, hev, hlat, hindex, -, -⟩ := hfits
  have hunused : (u32 p 4 != 0xFFFFFFFF && (lookup s.ctxs (u32 p 4)).isSome) = false := by
    rcases hfree with hany | ⟨-, hnone⟩
    · rw [hany]
      rfl
    · rw [hnone, Option.isSome_none, Bool.and_false]
  simp only [createValues, hev, hlat, hunused, hindex]
  rfl

theorem createWith_fits (r : Req) : createWith s r p mi m = createCtx s r p mi m (p.drop 32) i := by
  have ⟨_, hinline, _, _, _, _, _, _, _, _, _, _, _, hindex, _, _⟩ := hfits
  rw [createWith]
  dsimp only
  rw [if_pos hinline]
  refine (checked_pass (createRanges_pass hfits)).trans ?_
  rw [createData, if_pos hinline]
  refine (checked_pass (createValues_pass hfits)).trans ?_
  rw [hindex]
  rfl

end

theorem exec_ctxCreate {s : State} {r : Req} {p : List Byte} {mi i a : Nat} {m : Model}
    (hready : Ready s r 0x30 none (some (u32 p 0 % 2 ^ 12))) (hfits : CreateFits s p mi m i a) :
    exec (.ctxCreate r p) s = .next (createCtx (unqueue s r 0x30) r p mi m (p.drop 32) i) := by
  rw [← createFits_unqueue s r 0x30] at hfits
  have ⟨hmodel, hinline, hlen, hzero, hzero', _⟩ := hfits
  have hlong : ¬ p.length < 32 := by omega
  show execCtxCreate r p s = _
  rw [execCtxCreate, serve_ready hready, checked_pass (by simp [firstErr, hlong, hinline, hzero, hzero', hmodel]), hmodel]
  exact congrArg _ (createWith_fits hfits r)

/-- A CTX_CREATE that fits puts its context into the table and writes its class; the neural factors that it counts leave both. -/
theorem exec_ctxCreate_installs {s : State} {r : Req} {p : List Byte} {mi i a : Nat} {m : Model}
    (hready : Ready s r 0x30 none (some (u32 p 0 % 2 ^ 12))) (hfits : CreateFits s p mi m i a) :
    ∃ t, exec (.ctxCreate r p) s = .next t ∧
      tables t = (put s.ctxs i { createdCtx p mi m i a with gen := nextCtxGen s i }, s.models) ∧
      Written s t a (fit (classBytes (createdCtx p mi m i a).sizeClass (createdCtx p mi m i a).span)
        (ctxBytes m (u8 p 9) (createCap p) 0 (createdData p m))) := by
  obtain ⟨outs, payload, hplaced⟩ := createCtx_placed r ((createFits_unqueue s r 0x30 ..).mpr hfits)
  have hview := (ctxView_neuralReply _ r 0x30 outs payload).trans (ctxView_countNeural (installCtx (unqueue s r 0x30) i
    (createdCtx p mi m i a) (ctxBytes m (u8 p 9) (createCap p) 0 (createdData p m))) m outs)
  refine ⟨_, (exec_ctxCreate hready hfits).trans (congrArg _ hplaced), ?_, ?_⟩
  · rw [tables_of_ctxView hview, tables_installCtx, unqueue_ctxs, unqueue_models, nextCtxGen_congr (unqueue_ctxGens ..)]
  · exact (installCtx_written ..).of_ctxView (ctxView_unqueue ..) hview

/-! ### CTX_UPDATE (R265, R266, R348) -/

/-- An update counts the version of the evidence once. -/
theorem updateData_evidenceVersion (m : Model) (d : CtxData) (items : List (List Byte)) (clear : Bool)
    (outs : CtxData → List (Neural × NeuralOut)) :
    (updateData m d items clear outs).evidenceVersion = (d.evidenceVersion + 1) % 2 ^ 64 := by
  have hitems : (items.foldl (applyItem m) d).evidenceVersion = d.evidenceVersion := by
    refine each_keeps CtxData.evidenceVersion (fun d b => ?_) items d
    unfold applyItem
    dsimp only
    split
    · rfl
    · rfl
    · rfl
  unfold updateData
  cases clear
  · exact congrArg (fun v => (v + 1) % 2 ^ 64) hitems
  · exact congrArg (fun v => (v + 1) % 2 ^ 64) hitems

theorem tables_writeUpdate (s : State) (a : Nat) (old new : List Byte) (stores : List (Nat × Nat)) :
    tables (writeUpdate s a old new stores) = tables s :=
  (each_keeps tables (fun _ _ => tables_writeHbm ..) _ _).trans (tables_writeDiff ..)

theorem saves_writeUpdate (s : State) (a : Nat) (old new : List Byte) (stores : List (Nat × Nat)) :
    (writeUpdate s a old new stores).saves = s.saves :=
  (each_keeps State.saves (fun _ _ => writeHbm_saves ..) _ _).trans (each_keeps State.saves (fun _ _ => writeHbm_saves ..) _ s)

/-- The content that CTX_UPDATE gives its context. -/
def updatedData (m : Model) (c : Ctx) (p : List Byte) : CtxData :=
  updateData m c.data (updateItems p) (u16 p 4 == 1) (fun d => neuralOuts m (mergeVals m.vars d.evidence []) d.features)

/-- A state in which CTX_UPDATE has read what it keeps of its context and written what it changes. -/
def updateWritten (s : State) (c : Ctx) (m : Model) (p : List Byte) : State :=
  let t := (readSpans s c.addr (updateSpans m c)).2
  writeUpdate t c.addr (imageOf t c c.data) (imageOf t c (updatedData m c p)) (updateStores m c (u16 p 4 == 1))

theorem exec_ctxUpdate {s : State} {r : Req} {p : List Byte} {c : Ctx} (hready : Ready s r 0x31 (some (ctxIndex (u32 p 0))) none)
    (hlen : p.length = 16 + 8 * u16 p 6) (hmin : 1 ≤ u16 p 6) (hmax : u16 p 6 ≤ 1022) (hclear : u16 p 4 ≤ 1)
    (hzero : allZero (slice p 8 8) = true) (hpad : (updateItems p).any (fun b => u8 b 3 != 0) = false)
    (hctx : ctxOf s (u32 p 0) = some c) (hidle : c.st = .idle) (hitems : (updateItems p).any (itemBad (ctxModel s c) c) = false)
    (hread : (readSpans (unqueue s r 0x31) c.addr (updateSpans (ctxModel s c) c)).1 = true) :
    ∃ ran payload, exec (.ctxUpdate r p) s = .next (neuralReply (countNeural
      (setCtx (updateWritten (unqueue s r 0x31) c (ctxModel s c) p) (ctxIndex (u32 p 0))
        { c with data := updatedData (ctxModel s c) c p }) (ctxModel s c) ran) r 0x31 ran payload) := by
  have hmodel : ctxModel s c = ctxModel (unqueue s r 0x31) c := (ctxModel_unqueue ..).symm
  rw [← ctxOf_unqueue s r 0x31] at hctx
  rw [hmodel] at hitems hread ⊢
  have hlong : ¬ p.length < 16 := by omega
  have hsome : (u16 p 6 == 0) = false := beq_eq_false_iff_ne.mpr (Nat.one_le_iff_ne_zero.mp hmin)
  show ∃ ran payload, execCtxUpdate r p s = _
  rw [execCtxUpdate, serve_ready hready]
  dsimp only
  rw [checked_pass (by simp [firstErr, ← hlen, hlong, Nat.not_lt.mpr hclear, hzero, hpad, hctx, hsome,
    Nat.not_lt.mpr hmax]), hctx]
  dsimp only
  rw [checked_pass (by simp only [hitems, hidle]; rfl), hread]
  exact ⟨_, _, rfl⟩

/-- Of the tables and the saves, an update leaves its context changed alone. -/
theorem update_keeps (s : State) (c new : Ctx) (m : Model) (p : List Byte) (i : Nat) (r : Req) (ran : List (Neural × NeuralOut))
    (payload : List Byte) :
    let t := neuralReply (countNeural (setCtx (updateWritten s c m p) i new) m ran) r 0x31 ran payload
    tables t = (put s.ctxs i new, s.models) ∧ t.saves = s.saves := by
  have hview := (ctxView_neuralReply (countNeural (setCtx (updateWritten s c m p) i new) m ran) r 0x31 ran payload).trans
    (ctxView_countNeural (setCtx (updateWritten s c m p) i new) m ran)
  have hspans := ctxView_readSpans s c.addr (updateSpans m c)
  have htables : tables (updateWritten s c m p) = tables s := (tables_writeUpdate ..).trans (tables_of_ctxView hspans)
  refine ⟨?_, ?_⟩
  · rw [tables_of_ctxView hview, tables, setCtx_ctxs, setCtx_models, ctxs_of_tables htables, models_of_tables htables]
  · exact (saves_of_ctxView hview).trans ((saves_writeUpdate ..).trans (saves_of_ctxView hspans))

/-! ### CTX_RESTORE (R279, R280) -/

/-- The reads of a saved image change registers, the Trail and the write-backs that are due alone. -/
theorem readSaved_only (s : State) (a n : Nat) :
    ∃ x y z, (readSaved s a n).2 = { s with regs := x, trail := y, writeBacks := z } := by
  obtain ⟨x, y, z, hheader⟩ := readHbm_only s a (min 256 (hbmEnd - a))
  unfold readSaved
  dsimp only
  split
  case h_1 => exact ⟨x, y, z, hheader⟩
  case h_2 hdr _ =>
    split
    case isTrue =>
      obtain ⟨x', y', z', hrest⟩ := readHbm_only (readHbm s a (min 256 (hbmEnd - a))).2 (a + 256)
        (roundUp (u32 hdr 0x0C) 64 - 256)
      refine ⟨x', y', z', ?_⟩
      dsimp only
      rw [hrest, hheader]
    case isFalse => exact ⟨x, y, z, hheader⟩

/-- A saved image of `n` bytes passes checks 2 to 6 for an index: it is one of the loaded model `m`, and the index is free for it. -/
def RestoreFits (s : State) (img : List Byte) (n target mi i : Nat) (m : Model) : Prop :=
  savedHeaderBad img n = false ∧ savedDigestBad img = false ∧ savedModel s img = some (mi, m) ∧ savedBodyBad m img = false ∧
  restoreTarget s target = none ∧ targetIndex s target = some i

/-- The state in which CTX_RESTORE has read its image. -/
def Restoring (s v : State) (r : Req) (p img : List Byte) : Prop :=
  readSaved (unqueue s r 0x33) (u64 p 0) (u64 p 8) = (some img, v)

/-- The entry of the context that CTX_RESTORE makes (R280). -/
def restoredCtx (p img : List Byte) (mi i a : Nat) (m : Model) : Ctx :=
  newCtx mi (homeOf (u8 p 20) i) a (u8 img 7) (u16 img 0x0A) (u32 img 0x0C) (if u8 img 8 = 2 then .paused else .idle)
    (ctxFrom m (u8 img 7) (u16 img 0x0A) img)

section
variable {s v : State} {r : Req} {p img : List Byte} (hread : Restoring s v r p img)
include hread

theorem restoring_only : ∃ a b c x y z,
    v = { s with sessions := a, openQueue := b, turn := c, regs := x, trail := y, writeBacks := z } := by
  obtain ⟨x, y, z, hv⟩ := readSaved_only (unqueue s r 0x33) (u64 p 0) (u64 p 8)
  obtain ⟨a, b, c, hu⟩ := unqueue_only s r 0x33
  rw [hread, hu] at hv
  exact ⟨a, b, c, x, y, z, hv⟩

theorem restoring_tables : tables v = tables s := by
  obtain ⟨_, _, _, _, _, _, h⟩ := restoring_only hread
  rw [h]
  rfl

theorem restoring_nextCtxGen (i : Nat) : nextCtxGen v i = nextCtxGen s i := by
  obtain ⟨_, _, _, _, _, _, h⟩ := restoring_only hread
  rw [h]
  rfl

theorem restoring_poolPlace (i : Nat) (skip : Option Nat) (home n : Nat) : poolPlace v i skip home n = poolPlace s i skip home n := by
  obtain ⟨_, _, _, _, _, _, h⟩ := restoring_only hread
  rw [h]
  rfl

theorem restoring_fits (n target mi i : Nat) (m : Model) : RestoreFits v img n target mi i m ↔ RestoreFits s img n target mi i m := by
  obtain ⟨_, _, _, _, _, _, h⟩ := restoring_only hread
  rw [h]
  rfl

theorem exec_ctxRestore {mi i : Nat} {m : Model}
    (hready : Ready s r 0x33 (if 2 ^ 18 ≤ u32 p 16 ∧ u32 p 16 ≠ 0xFFFFFFFF then some (ctxIndex (u32 p 16)) else none) none)
    (hlen : p.length = 24) (hzero : allZero (slice p 21 3) = true) (hhome : u8 p 20 < 8 ∨ u8 p 20 = 0xFF)
    (hregion : RegionOk s (u64 p 0) (u64 p 8) 64 false) (hfits : RestoreFits s img (u64 p 8) (u32 p 16) mi i m) :
    exec (.ctxRestore r p) s = .next (restoreCtx v r mi m img i (homeOf (u8 p 20) i)) := by
  obtain ⟨hheader, hdigest, hmodel, hbody, htarget, hindex⟩ := (restoring_fits hread ..).mpr hfits
  have hplace : (decide (u8 p 20 < 8) || u8 p 20 == 0xFF) = true := by simpa using hhome
  have hchecks : firstErr ([(p.length != 24, badLength), (!allZero (slice p 21 3), badReserved),
      (!(decide (u8 p 20 < 8) || u8 p 20 == 0xFF), badRange)] ++ regionChecks (unqueue s r 0x33) (u64 p 0) (u64 p 8) 64 false) =
      none := by
    rw [regionChecks_unqueue, hlen, hzero, hplace]
    exact (firstErr_none (region_pass hregion) :)
  show execCtxRestore r p s = _
  rw [execCtxRestore, serve_ready hready]
  dsimp only
  rw [checked_pass hchecks, hread]
  dsimp only
  rw [checked_pass (by simp only [hheader, hdigest, hmodel]; rfl), hmodel]
  dsimp only
  rw [hbody, htarget, hindex]
  rfl

end

/-- CTX_RESTORE installs its context and replies. -/
theorem restoreCtx_placed {s : State} {p img : List Byte} {i a : Nat} (r : Req) (mi : Nat) (m : Model)
    (hplace : poolPlace s i (some i) (homeOf (u8 p 20) i) (classBytes (classOf (u32 img 0x0C)).1 (classOf (u32 img 0x0C)).2) = some a) :
    ∃ payload, restoreCtx s r mi m img i (homeOf (u8 p 20) i) =
      reply (installCtx s i (restoredCtx p img mi i a m) (overlay img 0xA0 (zeros 48))) r 0x33 .ok 0 payload := by
  rw [restoreCtx]
  dsimp only
  rw [hplace]
  exact ⟨_, rfl⟩

/-- Of the tables, a restore that is placed leaves its context installed. -/
theorem tables_restored {s v : State} {r : Req} {p img : List Byte} (hread : Restoring s v r p img) (i : Nat) (c : Ctx)
    (bytes payload : List Byte) :
    tables (reply (installCtx v i c bytes) r 0x33 .ok 0 payload) = (put s.ctxs i { c with gen := nextCtxGen s i }, s.models) := by
  rw [tables_reply, tables_installCtx, ctxs_of_tables (restoring_tables hread), models_of_tables (restoring_tables hread),
    restoring_nextCtxGen hread]

end Sys2Proof.Machine

open Sys2Proof Sys2Proof.Machine

/-- Settles O18: operands that fit pass every check (`exec_ctxCreate`), the entry is installed and its class written (`createCtx_placed`,
`tables_installCtx`, `installCtx_written`), and what the neural factors count leaves both as they are (`ctxView_countNeural`). -/
theorem ctxCreateMakesAnIdleContext : Obligations.CtxCreateMakesAnIdleContext := by
  intro s r p mi i a m hready hfits data ev feats cap
  obtain ⟨t, hexec, htables, hwritten⟩ := exec_ctxCreate_installs hready hfits
  rw [tables, Prod.mk.injEq] at htables
  obtain ⟨hctxs, hmodels⟩ := htables
  refine ⟨t, { createdCtx p mi m i a with gen := nextCtxGen s i }, hexec, ?_, rfl, rfl, rfl, rfl, rfl, rfl, rfl, hwritten,
    fun j hj => ?_, hmodels⟩
  · rw [hctxs, lookup_put_same]
  · rw [hctxs, lookup_put_other _ _ hj]

/-- Settles O19: an update that passes its checks puts its content into the table and no more (`exec_ctxUpdate`, `update_keeps`), and
counts one version (`updateData_evidenceVersion`). -/
theorem ctxUpdateAppliesItsItems : Obligations.CtxUpdateAppliesItsItems := by
  intro s r p c hready hlen hmin hmax hclear hzero hpad hctx hidle m d hitems hread
  obtain ⟨ran, payload, hexec⟩ := exec_ctxUpdate hready hlen hmin hmax hclear hzero hpad hctx hidle hitems hread
  obtain ⟨htables, hsaves⟩ := update_keeps (unqueue s r 0x31) c { c with data := d } m p (ctxIndex (u32 p 0)) r ran payload
  rw [tables, Prod.mk.injEq, unqueue_ctxs, unqueue_models] at htables
  obtain ⟨hctxs, hmodels⟩ := htables
  refine ⟨_, hexec, ?_, updateData_evidenceVersion .., fun j hj => ?_, hmodels, hsaves.trans (unqueue_saves ..)⟩
  · exact (congrArg (lookup · _) hctxs).trans (lookup_put_same ..)
  · exact (congrArg (lookup · j) hctxs).trans (lookup_put_other _ _ hj)

/-- Settles O21: an image that passes its checks is restored from the state that its reads leave (`exec_ctxRestore`), which shows the
tables of the state before (`restoring_only`); its context is installed with the image's content (`restoreCtx_placed`). -/
theorem ctxRestoreMakesTheSavedContext : Obligations.CtxRestoreMakesTheSavedContext := by
  intro s v r p img mi i a m hready hlen hzero hhome hregion hread hheader hdigest hmodel hbody htarget hindex hplace
  have hfits : RestoreFits s img (u64 p 8) (u32 p 16) mi i m := ⟨hheader, hdigest, hmodel, hbody, htarget, hindex⟩
  rw [← restoring_poolPlace hread] at hplace
  obtain ⟨payload, hplaced⟩ := restoreCtx_placed r mi m hplace
  have htables := tables_restored hread i (restoredCtx p img mi i a m) (overlay img 0xA0 (zeros 48)) payload
  rw [tables, Prod.mk.injEq] at htables
  obtain ⟨hctxs, hmodels⟩ := htables
  refine ⟨_, { restoredCtx p img mi i a m with gen := nextCtxGen s i },
    (exec_ctxRestore hread hready hlen hzero hhome hregion hfits).trans (congrArg _ hplaced), ?_, rfl, rfl, rfl, rfl, rfl,
    fun j hj => ?_, hmodels⟩
  · rw [hctxs, lookup_put_same]
  · rw [hctxs, lookup_put_other _ _ hj]
end

section
/-!
PROOFS. CTX_SAVE (08 R277, R278, 11 R349): the image that a save takes, and the reply of a save whose image is written, which a write of
HBM leaves as it is.
-/

namespace Sys2Proof.Machine

/-! ### Registers that replies read and a write of HBM leaves alone -/

/-- A register that a reply or a port's transmitter reads: one of Ethernet, or the first of a Leash port (12 R377, 18 R536). -/
def ReplyReg (a : Nat) : Prop := (0x6000 ≤ a ∧ a < 0x7000) ∨ ∃ n, a = portReg n 0

/-- It is none of the registers in which memory events count. -/
theorem ReplyReg.ne {a : Nat} (h : ReplyReg a) : a ≠ 0x301C ∧ a ≠ 0x48008 ∧ a ≠ 0x4800C ∧ a ≠ 0x48014 ∧ a ≠ 0x4801C := by
  rcases h with ⟨hlo, hhi⟩ | ⟨n, rfl⟩
  · omega
  · simp only [portReg]
    omega

/-- Whole words are written in silence. -/
theorem regVal_writeWords (s : State) (x : Nat) (bs : List Byte) (a : Nat) : regVal (writeWords s x bs) a = regVal s a := by
  obtain ⟨_, _, _, h⟩ := writeWords_only s x bs
  rw [h]
  rfl

section
variable {a : Nat} (ha : ReplyReg a)
include ha

theorem replyReg_memEvent (s : State) (u : MemUnit) (x k : Nat) : regVal (memEvent s u x k) a = regVal s a := by
  obtain ⟨hdropped, hlo, hhi, -, -⟩ := ha.ne
  exact (regVal_coalesce _ _ _ _ _ _ hdropped).trans ((regVal_setReg_other _ _ hhi).trans (regVal_setReg_other _ _ hlo))

theorem replyReg_narrowWrite (s : State) (x : Nat) (bs : List Byte) : regVal (narrowWrite s x bs) a = regVal s a := by
  obtain ⟨-, -, -, hcorrected, hpoisoned⟩ := ha.ne
  unfold narrowWrite
  dsimp only
  split
  · rfl
  · split
    · rfl
    · exact (replyReg_memEvent ha ..).trans (regVal_bump_other s 1 hcorrected)
    · exact (replyReg_memEvent ha ..).trans (regVal_bump_other s 1 hpoisoned)
    · rfl

theorem replyReg_writeHbm (s : State) (x : Nat) (bs : List Byte) : regVal (writeHbm s x bs) a = regVal s a :=
  (replyReg_narrowWrite ha ..).trans ((regVal_writeWords ..).trans (replyReg_narrowWrite ha ..))

end

/-! ### A reply beside another memory (10 R304, 12 R377, R378) -/

/-- A state with the registers, the Trail, HBM and the saves of another one. -/
def withMemory (s x : State) : State :=
  { s with regs := x.regs, trail := x.trail, hbm := x.hbm, marks := x.marks, writeBacks := x.writeBacks, saves := x.saves }

/-- Another state shows the registers that replies read. -/
def RepliesAlike (s x : State) : Prop := ∀ a, ReplyReg a → regVal x a = regVal s a

theorem RepliesAlike.of_regs {s t x : State} (h : RepliesAlike s x) (ht : t.regs = s.regs) : RepliesAlike t x := by
  intro a ha
  rw [h a ha, regVal, regVal, ht]

/-- A register of a port's transmitter. -/
theorem replyReg_port (n : Nat) : ReplyReg (portReg n 0) := .inr ⟨n, rfl⟩

theorem sendFlit_withMemory (s x : State) (n : Nat) (o : Outgoing) : sendFlit (withMemory s x) n o = withMemory (sendFlit s n o) x := by
  unfold sendFlit
  cases o.origin with
  | none => rfl
  | some k => rfl

section
variable {s x : State} (h : RepliesAlike s x)
include h

theorem regVal_withMemory {a : Nat} (ha : ReplyReg a) : regVal (withMemory s x) a = regVal s a := h a ha

theorem nextOut_withMemory (n : Nat) (p : Port) : nextOut (withMemory s x) n p = nextOut s n p := by
  have hfield : ∀ lo len, regField (withMemory s x) (portReg n 0) lo len = regField s (portReg n 0) lo len := by
    intro lo len
    rw [regField, regVal_withMemory h (replyReg_port n), regField]
  rw [nextOut, vlOrder, hfield, hfield, nextOut, vlOrder]

theorem firstWhistle_withMemory (n : Nat) : firstWhistle (withMemory s x) n = withMemory (firstWhistle s n) x := by
  unfold firstWhistle
  rw [regBit, regVal_withMemory h (replyReg_port n), ← regBit]
  have hport : port (withMemory s x) n = port s n := rfl
  rw [hport]
  split
  · rfl
  · rfl

theorem pumpFlits_withMemory (k n : Nat) : pumpFlits k (withMemory s x) n = withMemory (pumpFlits k s n) x := by
  induction k generalizing s with
  | zero => rfl
  | succ k ih =>
    have hport : port (withMemory s x) n = port s n := rfl
    rw [pumpFlits, pumpFlits, hport, nextOut_withMemory h]
    cases nextOut s n (port s n) with
    | none => rfl
    | some o =>
      obtain ⟨_, _, hsent⟩ := sendFlit_only s n o
      dsimp only
      rw [sendFlit_withMemory]
      exact ih (h.of_regs (by rw [hsent]))

theorem sendMsg_withMemory (n : Nat) (m : LeashMsg) : sendMsg (withMemory s x) n m = withMemory (sendMsg s n m) x := by
  have hqueued : RepliesAlike (modPort s n (fun p => { p with waiting := p.waiting ++ [⟨{ m with port := n }, 0, none, 0⟩] })) x :=
    h.of_regs rfl
  obtain ⟨_, _, hwhistled⟩ := firstWhistle_only
    (modPort s n (fun p => { p with waiting := p.waiting ++ [⟨{ m with port := n }, 0, none, 0⟩] })) n
  exact (congrArg (pump · n) (firstWhistle_withMemory hqueued n)).trans
    (pumpFlits_withMemory (hqueued.of_regs (by rw [hwhistled])) _ n)

theorem sendAll_withMemory (ms : List LeashMsg) (n : Nat) :
    each ms (withMemory s x) (fun s m => sendMsg s n m) = withMemory (each ms s (fun s m => sendMsg s n m)) x := by
  induction ms generalizing s with
  | nil => rfl
  | cons m ms ih =>
    obtain ⟨_, _, hsent⟩ := sendMsg_only s n m
    exact (congrArg (each ms · _) (sendMsg_withMemory h n m)).trans (ih (h.of_regs (by rw [hsent])))

theorem replyOut_withMemory (e : Nat) (b : Bool) (r : Reply) : replyOut (withMemory s x) e b r = replyOut s e b r := by
  have hregs : ∀ a, 0x6000 ≤ a ∧ a < 0x7000 → regVal (withMemory s x) a = regVal s a := fun a ha => regVal_withMemory h (.inl ha)
  have hip4 : ip4Of (withMemory s x) = ip4Of s := by rw [ip4Of, hregs _ (by decide), ip4Of]
  have hip6 : ip6Of (withMemory s x) = ip6Of s := by
    rw [ip6Of, ip6Of]
    refine List.flatMap_congr (fun k hk => ?_)
    rw [hregs _ (by have := List.mem_range.mp hk; omega)]
  have hmac : macOf (withMemory s x) e = macOf s e := rfl
  rw [replyOut, replyOut, senderOf, senderOf, hip4, hip6, hmac]

theorem sendReply_withMemory (r : Reply) : sendReply (withMemory s x) r = withMemory (sendReply s r) x := by
  have hcb : regBit (withMemory s x) 0x6050 5 = regBit s 0x6050 5 := by rw [regBit, regVal_withMemory h (.inl (by decide)), regBit]
  have hout : replyOut (withMemory s x) = replyOut s := funext fun e => funext fun b => funext (replyOut_withMemory h e b)
  have hport : ethPort (withMemory s x) = ethPort s := rfl
  unfold sendReply
  split
  case h_1 =>
    exact sendAll_withMemory (s := { s with join := { s.join with nextTag := s.join.nextTag + 1 } }) (h.of_regs rfl) _ _
  case h_2 =>
    dsimp only
    rw [hcb, hout, hport]
    split
    · rfl
    · split
      · rfl
      · split
        · rfl
        · split
          · rfl
          · rfl

theorem answer_withMemory (r : Req) (op : Nat) (st : Status) (d : Nat) (p : List Byte) (o w : Nat) :
    answer (withMemory s x) r op st d p o w = withMemory (answer s r op st d p o w) x := by
  have hreply : mkReply (withMemory s x) r op st d p o w = mkReply s r op st d p o w := rfl
  have hsession : session (withMemory s x) = session s := rfl
  unfold answer
  rw [hreply, hsession]
  cases r.session with
  | none => exact sendReply_withMemory h _
  | some k =>
    dsimp only
    split
    · exact sendReply_withMemory (s := cacheReply s k _) (h.of_regs rfl) _
    · rfl

theorem reply_withMemory (r : Req) (op : Nat) (st : Status) (d : Nat) (p : List Byte) (o : Nat) :
    reply (withMemory s x) r op st d p o = withMemory (reply s r op st d p o) x :=
  answer_withMemory (s := { s with taken := s.taken.filter (fun t => !(t.r == r && t.opcode == op)) }) (h.of_regs rfl) ..

end

/-! ### CTX_SAVE_COMPLETE -/

/-- A state in which the image of a save has been written and the save is done. -/
def imageWritten (s : State) (v : Save) (img : List Byte) : State :=
  { writeHbm s v.addr img with saves := s.saves.filter (fun x => !(x.r == v.r)) }

theorem imageWritten_withMemory (s : State) (v : Save) (img : List Byte) :
    imageWritten s v img = withMemory s (imageWritten s v img) := by
  obtain ⟨_, _, _, _, _, h⟩ := writeHbm_only s v.addr img
  rw [imageWritten, h]
  rfl

/-- The reply of a save whose image has been written is the reply of the state before, beside the memory written. -/
theorem reply_imageWritten (s : State) (v : Save) (img : List Byte) (r : Req) (op : Nat) (st : Status) (d : Nat) (p : List Byte) (o : Nat) :
    reply (imageWritten s v img) r op st d p o = withMemory (reply s r op st d p o) (imageWritten s v img) := by
  have halike : RepliesAlike s (imageWritten s v img) := fun _ ha => replyReg_writeHbm ha s v.addr img
  exact (congrArg (reply · r op st d p o) (imageWritten_withMemory s v img)).trans (reply_withMemory halike ..)

/-- Without a CTX_DESTROY of its context, the end of a save lets none go on. -/
theorem finishDestroys_none {s : State} {i : Nat} (h : s.destroys.any (fun d => ctxIndex d.2 == i) = false) :
    ∃ x, finishDestroys s i = { s with destroys := x } := by
  have hnone : s.destroys.filter (fun d => ctxIndex d.2 == i) = [] := by
    simpa [List.filter_eq_nil_iff] using h
  unfold finishDestroys
  split
  · exact ⟨_, rfl⟩
  · rw [hnone]
    exact ⟨_, rfl⟩

theorem exec_ctxSaveComplete {s : State} {v : Save} {img : List Byte} (hfind : s.saves.find? (fun x => x.r == v.r) = some v)
    (himage : v.image = some img) :
    exec (.ctxSaveComplete v.r) s = .next (finishDestroys (reply (imageWritten s v img) v.r 0x32 .ok 0
      (leBytes 8 img.length ++ slice img 0xA0 48) (saveFlags v)) v.ctx) := by
  show execCtxSaveComplete v.r s = _
  rw [execCtxSaveComplete, hfind]
  dsimp only
  rw [himage]
  rfl

/-! ### CTX_SAVE -/

/-- A save that is taken at once, and one that waits for the boundary of its run. -/
def saveNow (r : Req) (i a : Nat) (img : List Byte) : Save := ⟨r, i, a, some img, false, false⟩
def saveLater (r : Req) (i a : Nat) : Save := ⟨r, i, a, none, true, false⟩

/-- A CTX_SAVE that passes its checks, by the state of its context and the words of its class. -/
def saveAnswer (s : State) (r : Req) (c : Ctx) (i a : Nat) : State :=
  let t := (readHbm s c.addr c.used).2
  if c.st = .running then { hold s r 0x32 (some i) none with saves := s.saves ++ [saveLater r i a] }
  else if (readHbm s c.addr c.used).1.isNone then reply t r 0x32 .dataError 0x0307
  else { hold t r 0x32 (some i) none with saves := t.saves ++ [saveNow r i a (savedImage t c c.st)] }

theorem exec_ctxSave {s : State} {r : Req} {p : List Byte} {c : Ctx} (hready : Ready s r 0x32 (some (ctxIndex (u32 p 0))) none)
    (hlen : p.length = 24) (hzero : allZero (slice p 4 4) = true) (hctx : ctxOf s (u32 p 0) = some c)
    (hregion : RegionOk s (u64 p 8) (u64 p 16) 64 false) (hclear : badSaveRegion s c (u64 p 8) (u64 p 16) = false) :
    exec (.ctxSave r p) s = .next (saveAnswer (unqueue s r 0x32) r c (ctxIndex (u32 p 0)) (u64 p 8)) := by
  have hclear' : badSaveRegion (unqueue s r 0x32) c (u64 p 8) (u64 p 16) = false := by
    obtain ⟨_, _, _, h⟩ := unqueue_only s r 0x32
    rw [h]
    exact hclear
  have hchecks : firstErr ([(p.length != 24, badLength), (!allZero (slice p 4 4), badReserved),
      ((ctxOf (unqueue s r 0x32) (u32 p 0)).isNone, noContext)] ++ regionChecks (unqueue s r 0x32) (u64 p 8) (u64 p 16) 64 false) =
      none := by
    rw [regionChecks_unqueue, ctxOf_unqueue, hlen, hzero, hctx]
    exact (firstErr_none (region_pass hregion) :)
  show execCtxSave r p s = _
  rw [execCtxSave, serve_ready hready]
  dsimp only
  rw [checked_pass hchecks, ctxOf_unqueue, hctx]
  dsimp only
  rw [checked_pass (by simp only [hclear']; rfl)]
  rfl

/-- The image of a context is made of its model, its bytes and its content. -/
theorem savedImage_congr {s t : State} (hmodels : t.models = s.models) (hhbm : t.hbm = s.hbm) (c : Ctx) (st : RunState) :
    savedImage t c st = savedImage s c st := by
  simp only [savedImage, movedBytes, imageOf, ctxModel, rawBytes, hmodels, hhbm]

section
variable (s : State) (r : Req) (c : Ctx) (i a : Nat)

/-- No save changes a context or HBM. -/
theorem saveAnswer_keeps : (saveAnswer s r c i a).ctxs = s.ctxs ∧ (saveAnswer s r c i a).hbm = s.hbm := by
  unfold saveAnswer
  dsimp only
  split
  · simp
  · split
    · simp
    · simp

variable {c}

theorem saveAnswer_later (hrunning : c.st = .running) : (saveAnswer s r c i a).saves = s.saves ++ [saveLater r i a] := by
  rw [saveAnswer, if_pos hrunning]

theorem saveAnswer_now (hstands : c.st ≠ .running) (hread : (readHbm s c.addr c.used).1.isSome = true) :
    (saveAnswer s r c i a).saves = s.saves ++ [saveNow r i a (savedImage s c c.st)] := by
  rw [saveAnswer, if_neg hstands, if_neg (by simp [Option.isSome_iff_ne_none.mp hread]),
    savedImage_congr (readHbm_models ..) (readHbm_hbm ..), readHbm_saves]

end

end Sys2Proof.Machine

open Sys2Proof Sys2Proof.Machine

/-- Settles O20: a save keeps its image or waits, by the state of its context (`exec_ctxSave`, `saveAnswer_later`, `saveAnswer_now`,
`saveAnswer_keeps`); its completion writes the image and replies as the state before would (`exec_ctxSaveComplete`,
`reply_imageWritten`). -/
theorem ctxSaveWritesTheImage : Obligations.CtxSaveWritesTheImage := by
  refine ⟨?save, ?complete⟩
  case save =>
    intro s r p c hready hlen hzero hctx hregion hclear
    obtain ⟨hctxs, hhbm⟩ := saveAnswer_keeps (unqueue s r 0x32) r c (ctxIndex (u32 p 0)) (u64 p 8)
    rw [unqueue_ctxs] at hctxs
    rw [unqueue_hbm] at hhbm
    have himage : savedImage (unqueue s r 0x32) c c.st = savedImage s c c.st :=
      savedImage_congr (unqueue_models ..) (unqueue_hbm ..) c c.st
    have hexec := exec_ctxSave hready hlen hzero hctx hregion hclear
    rcases Decidable.em (c.st = .running) with hrunning | hstands
    · have hsaves := saveAnswer_later (unqueue s r 0x32) r (ctxIndex (u32 p 0)) (u64 p 8) hrunning
      rw [unqueue_saves] at hsaves
      exact ⟨_, saveLater r (ctxIndex (u32 p 0)) (u64 p 8), hexec, hctxs, hhbm, fun _ => ⟨hsaves, rfl, rfl⟩,
        fun hstands => absurd hrunning hstands⟩
    · refine ⟨_, saveNow r (ctxIndex (u32 p 0)) (u64 p 8) (savedImage s c c.st), hexec, hctxs, hhbm,
        fun hrunning => absurd hrunning hstands, fun _ hread => ⟨?_, rfl, rfl, rfl⟩⟩
      rw [saveAnswer_now _ _ _ _ hstands hread, unqueue_saves, himage]
  case complete =>
    intro s v img hfind himage hnone
    have hexec := exec_ctxSaveComplete hfind himage
    rw [reply_imageWritten] at hexec
    obtain ⟨ds, hfinished⟩ := finishDestroys_none (i := v.ctx) (s := withMemory (reply s v.r 0x32 .ok 0
      (leBytes 8 img.length ++ slice img 0xA0 48) (saveFlags v)) (imageWritten s v img)) (by simpa [withMemory] using hnone)
    rw [hfinished] at hexec
    exact ⟨_, hexec, rfl, reply_ctxs .., rfl, rfl⟩
end

section
/-!
PROOFS. RST_N, the warm reset and glitches (08 R254, 14 R445, 15 R471, R472, 16 R495), and what holds right after reset: what each
of them keeps, and the registers that survive.
-/

namespace Sys2Proof.Machine

/-! ### Right after reset (15 R473, 17 R519) -/

theorem regVal_reset {a : Nat} {i : RegInfo} (h : regInfo a = some i) : regVal State.reset a = i.reset := by
  show ((regInfo a).map (·.reset)).getD 0 = i.reset
  rw [h]
  rfl

theorem peek_reset (a : Nat) : peek State.reset a = none := rfl

/-! ### The warm reset (15 R471) -/

/-- Records that are written change the registers and the Trail alone. -/
theorem writeRec_only (s : State) (r : Rec) : ∃ x y, writeRec s r = { s with regs := x, trail := y } := by
  unfold writeRec
  dsimp only
  split
  · obtain ⟨x, h⟩ := bump_only s 0x301C 1
    exact ⟨x, _, h⟩
  · exact ⟨_, _, rfl⟩

/-- A record that is dropped counts in TRAIL_DROPPED (14 R443). -/
theorem regVal_writeRec (s : State) (r : Rec) {a : Nat} (ha : a ≠ 0x301C) : regVal (writeRec s r) a = regVal s a := by
  unfold writeRec
  dsimp only
  split
  · exact regVal_bump_other s 1 ha
  · rfl

/-- A state without what the flush of the Trail writes. -/
def flushRest (s : State) : State := { s with regs := [], trail := {} }

theorem flushRest_flushTrail (s : State) : flushRest (flushTrail s) = flushRest s := by
  unfold flushTrail
  split
  · rfl
  · refine (each_keeps flushRest (fun t x => ?_) _ _).trans rfl
    obtain ⟨_, _, h⟩ := writeRec_only t x
    rw [h]
    rfl

theorem regVal_flushTrail (s : State) {a : Nat} (ha : a ≠ 0x301C) : regVal (flushTrail s) a = regVal s a := by
  unfold flushTrail
  split
  · rfl
  · exact each_keeps (regVal · a) (fun _ _ => regVal_writeRec _ _ ha) _ _

/-- With no event and no interval open, the flush writes no record. -/
theorem flushTrail_ring {s : State} (hwaiting : s.trail.waiting = []) (hintervals : s.trail.intervals = []) :
    (flushTrail s).trail.ring = s.trail.ring := by
  unfold flushTrail
  split
  · rfl
  · rw [hwaiting, hintervals]
    rfl

/-- SEC_GLITCH survives a warm reset (R473). -/
theorem lookup_keptRegs_glitch (s : State) : lookup (keptRegs s) 0x5010 = lookup s.regs 0x5010 := by
  have htrainings : lookup ((List.range 8).map (fun n =>
      (retrainKey n, BitVec.ofNat 32 ((indStored s (retrainKey n) + 1) % 2 ^ 16)))) 0x5010 = none := by
    refine lookup_none (fun e he => ?_)
    obtain ⟨n, -, rfl⟩ := List.mem_map.mp he
    simp only [retrainKey]
    omega
  rw [keptRegs, lookup_append, htrainings]
  cases h : lookup s.regs 0x5010 with
  | none => rfl
  | some v => rfl

theorem regVal_of_keptRegs {s t : State} (h : t.regs = keptRegs s) : regVal t 0x5010 = regVal s 0x5010 := by
  rw [regVal, h, lookup_keptRegs_glitch, regVal]

/-- A state after a warm reset of a kind from another one, beside its Trail's waiting records (R471, R473). -/
structure WarmFrom (s : State) (kind : Nat) (t : State) : Prop where
  hbm : t.hbm = s.hbm
  marks : t.marks = s.marks
  rtc : t.rtc = s.rtc
  sessions : t.sessions = []
  models : t.models = []
  ctxs : t.ctxs = []
  taken : t.taken = []
  heldRegs : t.heldRegs = []
  resetKind : t.power.resetKind = kind
  resetDue : t.power.resetDue = none
  phase : t.power.phase = if s.power.rstN then .reset else .starting
  glitches : regVal t 0x5010 = regVal s 0x5010
  frozen : t.trail.frozen = false
  ring : t.trail.ring = s.trail.ring

/-- An event freezes nothing and writes nothing into the ring. -/
theorem event_trail_keeps (s : State) (c v u x : Nat) (d : List Byte) :
    (event s c v u x d).trail.frozen = s.trail.frozen ∧ (event s c v u x d).trail.ring = s.trail.ring := by
  unfold event enqueueRec
  split
  · exact ⟨rfl, rfl⟩
  · split
    · simp
    · exact ⟨rfl, rfl⟩

theorem regVal_event (s : State) (c v u x : Nat) (d : List Byte) {a : Nat} (ha : a ≠ 0x301C) :
    regVal (event s c v u x d) a = regVal s a :=
  regVal_enqueueRec _ _ ha

theorem WarmFrom.event {s t : State} {kind : Nat} (h : WarmFrom s kind t) (c v u x : Nat) (d : List Byte) :
    WarmFrom s kind (event t c v u x d) := by
  have hglitches := (regVal_event t c v u x d (a := 0x5010) (by decide)).trans h.glitches
  obtain ⟨hfrozen, hring⟩ := event_trail_keeps t c v u x d
  constructor
  case glitches => exact hglitches
  case frozen => exact hfrozen.trans h.frozen
  case ring => exact hring.trans h.ring
  all_goals simp [h.hbm, h.marks, h.rtc, h.sessions, h.models, h.ctxs, h.taken, h.heldRegs, h.resetKind, h.resetDue, h.phase]

/-- A warm reset keeps what the flush of the Trail leaves. -/
theorem warmReset_warmFrom (s : State) (kind : Nat) : WarmFrom (flushTrail s) kind (warmReset s kind) := by
  unfold warmReset
  dsimp only
  refine WarmFrom.event ?_ ..
  split
  case h_1 =>
    refine WarmFrom.event ?_ ..
    exact ⟨rfl, rfl, rfl, rfl, rfl, rfl, rfl, rfl, rfl, rfl, rfl, regVal_of_keptRegs rfl, rfl, rfl⟩
  case h_2 => exact ⟨rfl, rfl, rfl, rfl, rfl, rfl, rfl, rfl, rfl, rfl, rfl, regVal_of_keptRegs rfl, rfl, rfl⟩

/-! ### The rows of the resets -/

section
variable {s : State}

theorem exec_rstNAssert (hoff : s.power.phase ≠ .off) (htripped : s.power.phase ≠ .tripped) (hreset : s.power.phase ≠ .reset) :
    exec .rstNAssert s = .next { s with eth := [], power := { s.power with rstN := true, resetDue := some 1 } } := by
  show execRstNAssert s = _
  unfold execRstNAssert
  split
  · exact absurd ‹_› hoff
  · exact absurd ‹_› htripped
  · exact absurd ‹_› hreset
  · rfl

theorem exec_warmReset {kind : Nat} (hdue : s.power.resetDue = some kind) : exec .warmReset s = .next (warmReset s kind) := by
  show execWarmReset s = _
  rw [execWarmReset, hdue]

/-- RST_N is deasserted. -/
def rstNReleased (s : State) : State := { s with power := { s.power with rstN := false } }

theorem exec_rstNDeassert (hreset : s.power.phase = .reset) :
    exec .rstNDeassert s = .next (
      if s.power.coldDue then coldStart (rstNReleased s)
      else { s with power := { s.power with rstN := false, phase := .starting } }) :=
  congrArg Host.Outcome.next (if_pos hreset)

/-- A glitch is counted and recorded when every session has closed (16 R495). -/
def glitchNoted (s : State) (kind unit : Nat) : State :=
  event (bump (closeAll s) 0x5010 1) 0x0A07 2 unitSecurity 0 [BitVec.ofNat 8 kind, BitVec.ofNat 8 unit]

/-- It clears the keys and makes a warm reset due. -/
def glitched (s : State) (kind unit : Nat) : State :=
  let t := glitchNoted s kind unit
  { t with
    sec := { t.sec with hss := none, challenge := none, glitchTimes := (t.rtc :: t.sec.glitchTimes).take 8 }
    ent := { t.ent with instantiated := false, outputs := [], drbg := drbgZero }
    power := { t.power with resetDue := some (t.power.resetDue.getD 3) } }

theorem exec_glitchDetected (kind unit : Nat) (hoff : s.power.phase ≠ .off) (hreset : s.power.phase ≠ .reset) :
    exec (.glitchDetected kind unit) s = .next (glitched s kind unit) := by
  show execGlitchDetected kind unit s = _
  unfold execGlitchDetected
  split
  · exact absurd ‹_› hoff
  · exact absurd ‹_› hreset
  · rfl

end

/-! ### Sessions that close (10 R314) -/

/-- A session that is in no entry, or closes, is in no entry when all of a list have closed. -/
theorem lookup_sessions_closed {l : List Nat} {s : State} {k : Nat} (h : lookup s.sessions k = none ∨ k ∈ l) :
    lookup (each l s closeSession).sessions k = none := by
  induction l generalizing s with
  | nil => exact h.resolve_right List.not_mem_nil
  | cons a l ih =>
    refine ih (s := closeSession s a) ?_
    have hsessions : (closeSession s a).sessions = del s.sessions a := rfl
    rw [hsessions]
    rcases Decidable.em (k = a) with rfl | hne
    · exact .inl (lookup_del_same ..)
    · rw [lookup_del_other _ hne]
      exact h.imp_right (fun hk => (List.mem_cons.mp hk).resolve_left hne)

theorem session_closeAll (s : State) {k : Nat} (hk : k < 8) : (session (closeAll s) k).isOpen = false := by
  rw [session, lookupD, closeAll, lookup_sessions_closed (.inr (List.mem_range.mpr hk))]
  rfl

theorem closeSession_regs (s : State) (k : Nat) : (closeSession s k).regs = s.regs := rfl

theorem closeSession_resetDue (s : State) (k : Nat) : (closeSession s k).power.resetDue = s.power.resetDue := rfl

theorem closeAll_regs (s : State) : (closeAll s).regs = s.regs := by
  rw [closeAll]
  exact each_keeps State.regs closeSession_regs _ s

theorem regVal_closeAll (s : State) (a : Nat) : regVal (closeAll s) a = regVal s a := by
  rw [regVal, closeAll_regs, regVal]

theorem closeAll_resetDue (s : State) : (closeAll s).power.resetDue = s.power.resetDue := by
  rw [closeAll]
  exact each_keeps (fun s : State => s.power.resetDue) closeSession_resetDue _ s

theorem session_glitched (s : State) (kind unit k : Nat) : session (glitched s kind unit) k = session (closeAll s) k := by
  have hsessions : (glitchNoted s kind unit).sessions = (closeAll s).sessions := by simp [glitchNoted]
  rw [session, glitched, hsessions, session]

theorem regVal_glitched (s : State) (kind unit : Nat) :
    regVal (glitched s kind unit) 0x5010 = min (regVal s 0x5010 + 1) 0xFFFFFFFF := by
  have hcount : regVal (glitchNoted s kind unit) 0x5010 = min (regVal s 0x5010 + 1) 0xFFFFFFFF := by
    rw [glitchNoted, regVal_event _ _ _ _ _ _ (by decide), regVal_bump_same, regVal_closeAll]
  exact hcount

theorem glitched_resetDue (s : State) (kind unit : Nat) :
    (glitched s kind unit).power.resetDue = some (s.power.resetDue.getD 3) := by
  have hpower : (glitchNoted s kind unit).power = (closeAll s).power := by simp [glitchNoted]
  rw [glitched, hpower, closeAll_resetDue]

end Sys2Proof.Machine

open Sys2Proof Sys2Proof.Machine

/-- Settles O3: at reset no register is stored, so each reads as its row (`regVal_reset`), and every table is empty. -/
theorem resetLeaves : Obligations.ResetLeaves :=
  ⟨⟨rfl, fun _ => rfl, rfl, rfl, peek_reset, rfl, rfl, rfl, fun _ => rfl⟩, fun _ _ => regVal_reset⟩

/-- Settles O45: a warm reset keeps what the flush of the Trail leaves (`warmReset_warmFrom`, `flushRest_flushTrail`), a deassertion
starts the module or its cold start (`exec_rstNDeassert`), and a glitch closes every session (`session_closeAll`) and is counted
(`regVal_glitched`). -/
theorem warmResetKeepsMemory : Obligations.WarmResetKeepsMemory := by
  refine ⟨?assert, ?warm, ?deassert, ?glitch⟩
  case assert =>
    intro s hoff htripped hreset
    exact ⟨_, exec_rstNAssert hoff htripped hreset, rfl, rfl, rfl, rfl⟩
  case warm =>
    intro s kind hdue
    have h := warmReset_warmFrom s kind
    have hflush := flushRest_flushTrail s
    have hrstN : (flushTrail s).power.rstN = s.power.rstN := congrArg (·.power.rstN) hflush
    refine ⟨_, exec_warmReset hdue, h.hbm.trans (congrArg (·.hbm) hflush), h.marks.trans (congrArg (·.marks) hflush),
      h.rtc.trans (congrArg (·.rtc) hflush), h.sessions, h.models, h.ctxs, h.taken, h.heldRegs, h.resetKind, h.resetDue, ?_,
      h.glitches.trans (regVal_flushTrail s (by decide)), h.frozen,
      fun hwaiting hintervals => h.ring.trans (flushTrail_ring hwaiting hintervals)⟩
    rw [h.phase, hrstN]
  case deassert =>
    intro s hreset
    have hexec := exec_rstNDeassert hreset
    cases hcold : s.power.coldDue with
    | true =>
      rw [if_pos hcold] at hexec
      exact ⟨_, hexec, rfl, rfl, fun _ => ⟨rfl, rfl⟩, nofun⟩
    | false =>
      rw [if_neg (by rw [hcold]; decide)] at hexec
      exact ⟨_, hexec, rfl, rfl, nofun, fun _ => ⟨rfl, rfl⟩⟩
  case glitch =>
    intro s kind unit hoff hreset
    refine ⟨_, exec_glitchDetected kind unit hoff hreset, fun k hk => ?_, rfl, rfl, rfl, rfl, glitched_resetDue s kind unit,
      regVal_glitched s kind unit⟩
    rw [session_glitched]
    exact session_closeAll s hk
end

section
/-!
PROOFS. The block and its queue (10 R324, 15 R478): a step is the effect of the command at the front, and every effect answers a next
state.
-/

namespace Sys2Proof.Machine

/-- An effect that leads to a next state: the command stops nothing. -/
def Answers (o : Result) : Prop := ∃ t, o = .next t

theorem answers_next (t : State) : Answers (.next t) := ⟨t, rfl⟩

/-! ### Commands of the Handler (10 R324) -/

/-- A Handler command is left in its queue, kept waiting or served; none of these stops the module. -/
theorem answers_take (s : State) (r : Req) (op : Nat) (early doze : Bool) (ctx model : Option Nat) (f : State → State) :
    Answers (take s r op early doze ctx model f) := by
  obtain h | h | h := take_cases s r op early doze ctx model f <;> exact ⟨_, h⟩

theorem answers_serve (s : State) (r : Req) (op : Nat) (ctx model : Option Nat) (f : State → State) :
    Answers (serve s r op ctx model f) := answers_take ..

theorem answers_serveEarly (s : State) (r : Req) (op : Nat) (early doze : Bool) (f : State → State) :
    Answers (serveEarly s r op early doze f) := answers_take ..

theorem answers_regReadCmd (r : Req) (p : List Byte) (op : Nat) (ind : Bool) (s : State) : Answers (regReadCmd r p op ind s) := by
  unfold regReadCmd
  split
  · exact answers_next s
  · exact answers_serveEarly ..

theorem answers_regWriteCmd (r : Req) (p : List Byte) (op : Nat) (ind : Bool) (s : State) : Answers (regWriteCmd r p op ind s) := by
  unfold regWriteCmd
  split
  · exact answers_next s
  · exact answers_serveEarly ..

theorem answers_sessionOpen (r : Req) (p : List Byte) (s : State) : Answers (execSessionOpen r p s) := by
  unfold execSessionOpen
  split
  · exact answers_next s
  · exact answers_serve ..

theorem answers_sessionClose (r : Req) (p : List Byte) (s : State) : Answers (execSessionClose r p s) := by
  unfold execSessionClose
  split
  · exact answers_next s
  · split
    · exact answers_next s
    · exact answers_serve ..

theorem answers_faultMap (r : Req) (p : List Byte) (s : State) : Answers (execFaultMap r p s) := by
  unfold execFaultMap
  split
  · exact answers_next s
  · exact answers_serve ..

/-! ### Every command -/

/-- No command stops the module: the Handler's commands are taken or wait, the register commands and three more look at their
session or at the fences due first, and every event is a state. -/
theorem answers_exec (c : Instr) (s : State) : Answers (exec c s) := by
  unfold exec
  cases c
  case sessionOpen => exact answers_sessionOpen ..
  case sessionClose => exact answers_sessionClose ..
  case regRead | regReadInd => exact answers_regReadCmd ..
  case regWrite | regWriteInd => exact answers_regWriteCmd ..
  case faultMap => exact answers_faultMap ..
  case powerSet | wakeArm | trailFreeze | trailRead | trailThaw => exact answers_serveEarly ..
  case ping | info | modelLoad | modelVerify | modelFree | ctxCreate | ctxUpdate | ctxSave | ctxRestore | ctxDestroy | ctxQuery |
      runSample | runAnneal | runTemper | runPause | runResume | runAbort | statsRead | tensorOp | accDrain | move | fill |
      entropyGet | dumpRead | joinConfig | barrier | fwStage | fwActivate | otpProgram | debugUnlock | attest =>
    exact answers_serve ..
  all_goals exact answers_next _

end Sys2Proof.Machine

open Sys2Proof Sys2Proof.Machine

/-- Settles O1: the queue of the state is a command and its rest, so the step is the command's effect by definition. -/
theorem stepRunsFront : Obligations.StepRunsFront := fun _ _ => rfl

/-- Settles O2: a step on a queue is the effect of its front command, which answers (`answers_exec`); on an empty one it counts one
RTC period. -/
theorem stepsNeverStop : Obligations.StepsNeverStop := by
  refine ⟨fun s => ?_, fun s hempty => ⟨idle s, ?_, rfl, rfl⟩⟩
  · unfold Safe step
    split
    · exact answers_next _
    · exact answers_exec ..
  · rw [step, hempty]
end

section
/-!
PROOFS. Replies (10 R304, R308, R310, R314, R318): what the reply of a session's command puts into its cache and onto its port, and
PING and INFO (11 R339, R340).
-/

namespace Sys2Proof.Machine

/-! ### A reply that is sent (10 R304) -/

theorem replyOut_sender (s : State) (e : Nat) (b : Bool) (x : Reply) :
    ∃ w : Sender, w.mac = macOf s e ∧ replyOut s e b x = .reply e b w x := by
  refine ⟨senderOf s e x, ?_, rfl⟩
  unfold senderOf
  split <;> rfl

/-- A reply to a port whose link is up, without CB_REPLY, leaves on that port and changes nothing else. -/
theorem sendReply_up {s : State} {x : Reply} (hcarrier : x.dest.carrier ≠ .leash) (hcb : regBit s 0x6050 5 = false)
    (hlink : (ethPort s x.dest.port).link = true) :
    sendReply s x = { s with out := replyOut s x.dest.port false x :: s.out } := by
  unfold sendReply
  split
  · exact absurd ‹_› hcarrier
  · simp [hcb, hlink]

/-- Over Ethernet a reply changes only what leaves the module and what waits for a link. -/
theorem sendReply_ethernet {s : State} {x : Reply} (hcarrier : x.dest.carrier ≠ .leash) :
    ∃ us o, sendReply s x = { s with unsent := us, out := o } := by
  unfold sendReply
  split
  · exact absurd ‹_› hcarrier
  · dsimp only
    repeat' split
    all_goals exact ⟨_, _, rfl⟩

@[simp] theorem sendReply_sessions (s : State) (x : Reply) : (sendReply s x).sessions = s.sessions := by
  obtain ⟨_, _, _, _, h⟩ := sendReply_only s x
  rw [h]

@[simp] theorem sendReply_taken (s : State) (x : Reply) : (sendReply s x).taken = s.taken := by
  obtain ⟨_, _, _, _, h⟩ := sendReply_only s x
  rw [h]

/-! ### The reply of a session's command (10 R308, R310, R314, R318) -/

/-- The reply of a command of session `k`, tagged under the session's key K_M. -/
def taggedReply (s : State) (r : Req) (k op : Nat) (st : Status) (d : Nat) (p : List Byte) (own : Nat) : Reply :=
  (mkReply s r op st d p own 0).withTag (session s k).kM

/-- A command is no longer among the taken ones. -/
def untaken (s : State) (r : Req) (op : Nat) : State :=
  { s with taken := s.taken.filter (fun t => !(t.r == r && t.opcode == op)) }

theorem mem_untaken {s : State} {r : Req} {op : Nat} {t : Taken} (h : t ∈ (untaken s r op).taken) : ¬ (t.r = r ∧ t.opcode = op) := by
  have hkept := (List.mem_filter.mp h).2
  simp only [Bool.not_eq_true', Bool.and_eq_false_iff, beq_eq_false_iff_ne] at hkept
  exact not_and_or.mpr hkept

section
variable (s : State) (r : Req) {k : Nat} (op : Nat) (st : Status) (d : Nat) (p : List Byte) (own : Nat)

/-- The reply of a command of an open session is cached and sent. -/
theorem reply_open (hr : r.session = some k) (hopen : (session s k).isOpen = true) :
    reply s r op st d p own = sendReply (cacheReply (untaken s r op) k (taggedReply s r k op st d p own))
      (taggedReply s r k op st d p own) := by
  have hopen' : (session (untaken s r op) k).isOpen = true := hopen
  change answer (untaken s r op) r op st d p own 0 = _
  unfold answer
  rw [hr]
  dsimp only
  rw [if_pos hopen']
  rfl

/-- The reply of a command of a closed session is discarded. -/
theorem reply_closed (hr : r.session = some k) (hclosed : (session s k).isOpen = false) :
    reply s r op st d p own = untaken s r op := by
  have hclosed' : ¬ (session (untaken s r op) k).isOpen = true := by rw [Bool.not_eq_true]; exact hclosed
  change answer (untaken s r op) r op st d p own 0 = _
  unfold answer
  rw [hr]
  dsimp only
  rw [if_neg hclosed']

/-- It enters the cache of its session, which keeps the most recent 32. -/
theorem reply_cache (hr : r.session = some k) (hopen : (session s k).isOpen = true) :
    (session (reply s r op st d p own) k).cache = (taggedReply s r k op st d p own :: (session s k).cache).take 32 := by
  rw [reply_open s r op st d p own hr hopen, session, sendReply_sessions, ← session, cacheReply, session_modSession, if_pos rfl]
  rfl

/-- Its tag covers its header and payload. -/
theorem taggedReply_tag : (taggedReply s r k op st d p own).tag =
    hmac384 (session s k).kM ((taggedReply s r k op st d p own).header ++ (taggedReply s r k op st d p own).payload) := rfl

/-- Over Ethernet a reply changes its session, the taken commands and what leaves the module alone. -/
theorem reply_ethernet (hcarrier : r.src.carrier ≠ .leash) :
    ∃ ss tk us o, reply s r op st d p own = { s with sessions := ss, taken := tk, unsent := us, out := o } := by
  change ∃ ss tk us o, answer (untaken s r op) r op st d p own 0 = _
  unfold answer
  split
  · obtain ⟨_, _, h⟩ := sendReply_ethernet (s := untaken s r op) (x := mkReply (untaken s r op) r op st d p own 0) hcarrier
    exact ⟨_, _, _, _, h⟩
  · split
    · rename_i k _ _
      obtain ⟨_, _, h⟩ := sendReply_ethernet (s := cacheReply (untaken s r op) k (taggedReply (untaken s r op) r k op st d p own))
        (x := taggedReply (untaken s r op) r k op st d p own) hcarrier
      exact ⟨_, _, _, _, h⟩
    · exact ⟨_, _, _, _, rfl⟩

end

/-! ### PING and INFO -/

theorem exec_ping {s : State} {r : Req} {p : List Byte} (hready : Ready s r 0x01 none none) (hlen : p.length ≤ 64) :
    exec (.ping r p) s = .next (reply (unqueue s r 0x01) r 0x01 .ok 0 p) := by
  have hchecks : firstErr [(decide (64 < p.length), badLength)] = none := by simp [firstErr, Nat.not_lt.mpr hlen]
  change execPing r p s = _
  rw [execPing, serve_ready hready, checked_pass hchecks]

theorem infoBytes_unqueue (s : State) (r : Req) (op : Nat) : infoBytes (unqueue s r op) = infoBytes s := by
  obtain ⟨_, _, _, h⟩ := unqueue_only s r op
  rw [h]
  rfl

theorem exec_info {s : State} {r : Req} (hready : Ready s r 0x02 none none) :
    exec (.info r []) s = .next (reply (unqueue s r 0x02) r 0x02 .ok 0 (infoBytes s)) := by
  change execInfo r [] s = _
  rw [execInfo, serve_ready hready, checked_pass rfl, infoBytes_unqueue]

theorem fit_length (n : Nat) (bs : List Byte) : (fit n bs).length = n := by
  simp only [fit, zeros, List.length_append, List.length_take, List.length_replicate]
  omega

theorem ascii_partNumber_length : (ascii "GN7-M384").length = 8 := by decide

/-- The fields of R340 fill 64 bytes. -/
theorem infoBytes_length (s : State) : (infoBytes s).length = 64 := by
  simp only [infoBytes, coreMapBytes, List.length_append, List.length_map, List.length_range, leBytes_length, fit_length,
    ascii_partNumber_length, zeros, List.length_replicate]

/-- They begin with the part number. -/
theorem infoBytes_take (s : State) : (infoBytes s).take 8 = ascii "GN7-M384" := by
  simp only [infoBytes, List.append_assoc]
  exact List.take_left' ascii_partNumber_length

end Sys2Proof.Machine

open Sys2Proof Sys2Proof.Machine

/-- Settles O6: the reply of an open session is cached and sent (`reply_open`, `reply_cache`), on a port that is up from that port's own
address (`sendReply_up`, `replyOut_sender`); that of a closed session is not (`reply_closed`). -/
theorem replyIsTaggedCachedAndSent : Obligations.ReplyIsTaggedCachedAndSent := by
  refine ⟨?sent, ?discarded, fun s r op st d p own => reply_ethernet s r op st d p own⟩
  case sent =>
    intro s r k op st d p own hr hopen hcarrier hcb hlink
    have hreply := reply_open s r op st d p own hr hopen
    have hsent := sendReply_up (s := cacheReply (untaken s r op) k (taggedReply s r k op st d p own))
      (x := taggedReply s r k op st d p own) hcarrier hcb hlink
    obtain ⟨w, hmac, hsender⟩ := replyOut_sender (cacheReply (untaken s r op) k (taggedReply s r k op st d p own)) r.src.port false
      (taggedReply s r k op st d p own)
    refine ⟨taggedReply s r k op st d p own, w, hmac, rfl, ?_, rfl, rfl, rfl, rfl, rfl, taggedReply_tag .., ?_,
      reply_cache s r op st d p own hr hopen, fun t ht => ?_⟩
    · change r.session.getD 0xFF = k
      rw [hr]
      rfl
    · rw [hreply, hsent, ← hsender]
      rfl
    · rw [hreply, sendReply_taken] at ht
      exact mem_untaken ht
  case discarded =>
    intro s r k op st d p own hr hclosed
    rw [reply_closed s r op st d p own hr hclosed]
    exact ⟨rfl, rfl⟩

/-- Settles O7: both commands pass their check and reply (`exec_ping`, `exec_info`), INFO with the bytes of its layout
(`infoBytes_length`, `infoBytes_take`). -/
theorem pingAndInfoReplyOk : Obligations.PingAndInfoReplyOk :=
  ⟨fun _ _ _ => exec_ping, fun s _ hready => ⟨exec_info hready, infoBytes_length s, infoBytes_take s⟩⟩
end

section
/-!
PROOFS. Sessions that close (10 R314, 17 R500): SESSION_CLOSE and the idle timeout, and what they leave of the other sessions.
-/

namespace Sys2Proof.Machine

/-! ### What a command of a session leaves of the other sessions -/

section
variable (s : State) {r : Req} {k j : Nat} (hr : r.session = some k) (hj : j ≠ k)
include hr hj

theorem session_unqueue_other (op : Nat) : session (unqueue s r op) j = session s j := by
  unfold unqueue
  dsimp only
  split
  · rw [hr]
    dsimp only
    rw [session_modSession, if_neg hj]
    rfl
  · rfl

theorem session_reply_other (op : Nat) (st : Status) (d : Nat) (p : List Byte) (own : Nat) :
    session (reply s r op st d p own) j = session s j := by
  cases hopen : (session s k).isOpen with
  | true =>
    rw [reply_open s r op st d p own hr hopen, session, sendReply_sessions, ← session, cacheReply, session_modSession, if_neg hj]
    rfl
  | false =>
    rw [reply_closed s r op st d p own hr hopen]
    rfl

end

/-! ### The closing (10 R314) -/

theorem session_closeSession_same (s : State) (k : Nat) : session (closeSession s k) k = {} := by
  have hgone : lookup (closeSession s k).sessions k = none := lookup_del_same s.sessions k
  rw [session, lookupD, hgone]
  rfl

theorem session_closeSession_other (s : State) {k j : Nat} (hj : j ≠ k) : session (closeSession s k) j = session s j := by
  have hkept : lookup (closeSession s k).sessions j = lookup s.sessions j := lookup_del_other s.sessions hj
  rw [session, lookupD, hkept, session, lookupD]

/-- The register path of a session that closes is gone (17 R500). -/
theorem closeSession_path (s : State) (k : Nat) : lookup (closeSession s k).paths k = none := lookup_del_same s.paths k

/-! ### The two rows -/

theorem exec_sessionClose {s : State} {r : Req} {k : Nat} (hr : r.session = some k)
    (hreplied : s.taken.any (fun t => t.r.session == some k) = false) (hready : Ready s r 0x04 none none) :
    exec (.sessionClose r []) s = .next (closeSession (reply (unqueue s r 0x04) r 0x04 .ok) k) := by
  change execSessionClose r [] s = _
  unfold execSessionClose
  rw [hr]
  dsimp only
  rw [if_neg (by rw [hreplied]; exact Bool.false_ne_true), serve_ready hready, checked_pass rfl]

theorem exec_sessionIdleTimeout {s : State} {k : Nat} (hk : k < 8) (hidle : idleExpired s k = true) :
    exec (.sessionIdleTimeout k) s = .next (closeSession s k) := by
  change execSessionIdleTimeout k s = _
  rw [execSessionIdleTimeout, if_pos ⟨hk, hidle⟩]

end Sys2Proof.Machine

open Sys2Proof Sys2Proof.Machine

/-- Settles O8: either row closes the session (`exec_sessionClose`, `exec_sessionIdleTimeout`), which erases its entry and its path and
no other entry (`session_closeSession_same`, `closeSession_path`, `session_closeSession_other`). -/
theorem sessionsClose : Obligations.SessionsClose := by
  refine ⟨?asked, ?idle⟩
  case asked =>
    intro s r k hr hreplied hready
    refine ⟨_, exec_sessionClose hr hreplied hready, ?_, closeSession_path .., fun j hj => ?_, ?_, ?_⟩
    · rw [session_closeSession_same]
    · rw [session_closeSession_other _ hj, session_reply_other _ hr hj, session_unqueue_other _ hr hj]
    · exact (reply_hbm ..).trans (unqueue_hbm ..)
    · exact (closeSession_regs ..).trans ((reply_regs ..).trans (unqueue_regs ..))
  case idle =>
    intro s k hk hidle
    refine ⟨_, exec_sessionIdleTimeout hk hidle, ?_, closeSession_path .., fun j hj => session_closeSession_other s hj, rfl⟩
    rw [session_closeSession_same]
end

section
/-!
PROOFS. The Ethernet front end (10 R302 to R330, 18 R533 to R535): a frame that passes the checks reaches its session's sequence check,
which admits its command or sends a cached reply again; the wait for a missing SEQ; and the other frames and events of the ports.
-/

namespace Sys2Proof.Machine

/-! ### A frame that passes check 1 (10 R302, R303) -/

/-- A frame that passes check 1 unmetered and without 802.1CB, and wakes nothing, is its packet alone. -/
theorem receiveFrame_passed {s : State} {f : Frame} (hon : frontEndOn s = true) (hlink : (ethPort s f.port).link = true)
    (hfcs : f.fcsOk = true) (hframe : frameOk s f = true) (hpoliced : policed s f = some s) (htags : f.rTags = [])
    (hwakes : frameWakes s f = false) : receiveFrame s f = framePacket s f := by
  simp [receiveFrame, hon, hlink, hfcs, hframe, hpoliced, htags, hwakes]

/-- In Run a frame that is no Whistle wakes nothing (15 R461). -/
theorem frameWakes_run {s : State} {f : Frame} (hframe : isWhistle f = false) (hst : s.power.st = .run)
    (hentering : s.power.entering = none) : frameWakes s f = false := by
  have hsleep : sleepState s = .run := by simp [sleepState, hentering, hst]
  simp [frameWakes, namesMe, hframe, hsleep]

theorem receiveFrame_fits {s : State} {f : Frame} {data : List Byte} (h : FrameFits s f data) :
    receiveFrame s f = receivePacket s (frameSource f) data (padded f data) := by
  obtain ⟨hon, hlink, hfcs, hframe, hpoliced, htags, hbody, hwhistle, hst, hentering⟩ := h
  rw [receiveFrame_passed hon hlink hfcs hframe hpoliced htags (frameWakes_run hwhistle hst hentering)]
  simp [framePacket, hwhistle, hbody]

/-- A raw frame's packet came from the port of the frame. -/
theorem frameSource_raw {f : Frame} {t : Nat} {data : List Byte} (hbody : f.body = .raw t data) :
    (frameSource f).carrier = .raw ∧ (frameSource f).port = f.port := by
  simp [frameSource, hbody]

/-! ### A packet that passes checks 2 to 6 (10 R307, R310, R319) -/

/-- The fields of a header read the same in the first bytes of the packet. -/
theorem slice_fit {bs : List Byte} {m off n : Nat} (hlen : m ≤ bs.length) (hoff : off + n ≤ m) :
    slice (fit m bs) off n = slice bs off n := by
  have hfit : fit m bs = bs.take m := by simp [fit, zeros, Nat.sub_eq_zero_of_le hlen]
  rw [hfit, slice, slice, List.drop_take, List.take_take, Nat.min_eq_left (by omega)]

section
variable {bs : List Byte} {m off : Nat} (hlen : m ≤ bs.length)
include hlen

theorem u8_fit (hoff : off + 1 ≤ m) : u8 (fit m bs) off = u8 bs off := congrArg leNat (slice_fit hlen hoff)

theorem u16_fit (hoff : off + 2 ≤ m) : u16 (fit m bs) off = u16 bs off := congrArg leNat (slice_fit hlen hoff)

theorem u32_fit (hoff : off + 4 ≤ m) : u32 (fit m bs) off = u32 bs off := congrArg leNat (slice_fit hlen hoff)

theorem w32_fit (hoff : off + 4 ≤ m) : w32 (fit m bs) off = w32 bs off := congrArg (BitVec.ofNat 32) (u32_fit hlen hoff)

end

/-- The command that a packet carries, in the modes in effect (10 R307, 17 R507). -/
def packetOf (s : State) (src : Source) (data : List Byte) (k op : Nat) (seq : Word) : Packet :=
  ⟨some k, op, seq, slice data 16 (u16 data 8), src, modesNow s⟩

/-- The flags of a tagged packet, and its RESEND bit. -/
theorem flags_tagged (resend : Bool) : (bitOf (1 + 2 * ofBool resend) 0 == 1) = true ∧ (bitOf (1 + 2 * ofBool resend) 1 == 1) = resend ∧
    1 + 2 * ofBool resend < 4 := by
  cases resend <;> decide

/-- A packet that passes the checks 2 to 6 goes on to check 7 in its session. -/
theorem receivePacket_fits {s : State} {src : Source} {data : List Byte} {k op : Nat} {seq : Word} {resend : Bool}
    {lengthOk : Nat → Bool} (h : PacketFits s data k op seq resend) (hlength : lengthOk data.length = true) :
    receivePacket s src data lengthOk = sequence s k (packetOf s src data k op seq) resend := by
  obtain ⟨hlen, hversion, hkind, hsession, hk, hop, hnew, hseq, hsize, hflags, hzero, hopen, htag⟩ := h
  obtain ⟨htagged, hresend, hflagged⟩ := flags_tagged resend
  have htotal : 16 + u16 data 8 + 48 = data.length := by omega
  have hcovered : data.length - 48 = 16 + u16 data 8 := by omega
  have hlong : ¬ data.length < 16 := by omega
  have hnumbered : k ≠ 0xFF := by omega
  have hheader : headerOk (fit 16 data) data.length lengthOk = true := by
    unfold headerOk
    simp (disch := omega) only [u8_fit, u16_fit, u32_fit]
    simp [hversion, hkind, hsession, hflags, hzero, hk, hsize, hflagged, hlength]
  unfold receivePacket
  simp (disch := omega) only [u8_fit, u16_fit, w32_fit]
  simp [hsession, hop, hseq, hflags, htagged, htotal, hheader, hlong, hk, hnumbered, hopen, hnew, hcovered, htag, hresend, packetOf]

/-! ### Check 7 (10 R315 to R318) -/

/-- A command of a session counts as its last use (10 R314). -/
def used (s : State) (k : Nat) : State := modSession s k (fun v => { v with lastUse := s.rtc })

theorem session_used (s : State) (k : Nat) : session (used s k) k = { session s k with lastUse := s.rtc } := by
  rw [used, session_modSession, if_pos rfl]

theorem session_used_other (s : State) {k j : Nat} (hj : j ≠ k) : session (used s k) j = session s j := by
  rw [used, session_modSession, if_neg hj]

/-- The next command of a session is consumed. -/
theorem sequence_next {s : State} {k : Nat} {p : Packet} {resend : Bool} (hseq : p.seq = (session s k).nextSeq) :
    sequence s k p resend = drainHeld 64 (consume (used s k) k p) k := by
  have hzero : (p.seq - (session (used s k) k).nextSeq).toInt = 0 := by
    rw [session_used, hseq]
    simp
  unfold sequence
  dsimp only
  rw [← used, if_pos hzero]

/-- A command whose SEQ is cached, sent again with RESEND, has its reply sent again. -/
theorem sequence_resent {s : State} {k : Nat} {p : Packet} {c : Reply} (hlow : -1024 ≤ (p.seq - (session s k).nextSeq).toInt)
    (hhigh : (p.seq - (session s k).nextSeq).toInt ≤ -1) (hlost : p.seq ∉ (session s k).lost)
    (hcached : (session s k).cache.find? (fun x => x.seq == p.seq) = some c) :
    sequence s k p true = sendReply (used s k) { c with dest := p.src } := by
  have hnext : (session (used s k) k).nextSeq = (session s k).nextSeq := by rw [session_used]
  have hseen : seenBefore (used s k) k p true = sendReply (used s k) { c with dest := p.src } := by
    simp [seenBefore, session_used, hlost, hcached]
  unfold sequence
  dsimp only
  rw [← used, hnext, if_neg (by omega), if_neg (by omega), if_pos ⟨hlow, hhigh⟩, hseen]

/-! ### Admission (10 R323, R326, R329) -/

/-- A session's command that finds the module in Run without a fatal error, and room and service in its queue. -/
structure Admits (s : State) (k : Nat) (p : Packet) : Prop where
  fatal : s.faults.fatal = none
  st : s.power.st = .run
  entering : s.power.entering = none
  assigned : assigned p.opcode = true
  room : (session s k).queue.length < 1024
  service : queuedService (session s k).queue + serviceOf p.opcode ≤ budget s

/-- A change of a session beside its queue leaves the admission of its commands. -/
theorem Admits.modSession {s : State} {k : Nat} {p : Packet} (h : Admits s k p) {f : Session → Session}
    (hqueue : (f (session s k)).queue = (session s k).queue) : Admits (modSession s k f) k p where
  fatal := h.fatal
  st := h.st
  entering := h.entering
  assigned := h.assigned
  room := by rw [session_modSession, if_pos rfl, hqueue]; exact h.room
  service := by rw [session_modSession, if_pos rfl, hqueue]; exact h.service

/-- What a command leaves that enters its session's queue: the modes in effect with it, NEXT_SEQ past it, and all but its session
as it was, but for a counter (10 R315, R323, 17 R507). -/
structure Queued (s : State) (k : Nat) (p : Packet) (t : State) : Prop where
  entry : session t k = { session s k with
    nextSeq := p.seq + 1
    lost := (session s k).lost.filter (· != p.seq)
    queue := (session s k).queue ++ [{ p with modes := modesNow s }] }
  others : ∀ j, j ≠ k → session t j = session s j
  out : t.out = s.out

/-- In Run an accepted command wakes nothing (15 R461). -/
theorem wakeQueued_run {s : State} (p : Packet) (hst : s.power.st = .run) (hentering : s.power.entering = none) :
    wakeQueued s p = s := by
  unfold wakeQueued wakeSource
  simp [hst, hentering]

/-- An accepted command enters its session's queue, and is counted. -/
theorem accept_run {s : State} {k : Nat} (p : Packet) (hst : s.power.st = .run) (hentering : s.power.entering = none) :
    accept s ⟨some k, p.seq, p.src⟩ p =
      bump64 (modSession s k (fun v => { v with queue := v.queue ++ [{ p with modes := modesNow s }] })) 0x6810 1 :=
  wakeQueued_run _ (by simpa using hst) (by simpa using hentering)

theorem session_bump64 (s : State) (a n k : Nat) : session (bump64 s a n) k = session s k := by
  rw [session, bump64_sessions, ← session]

theorem admitPacket_admits {s : State} {k : Nat} {p : Packet} (h : Admits s k p) :
    admitPacket s ⟨some k, p.seq, p.src⟩ p queueSize = accept s ⟨some k, p.seq, p.src⟩ p := by
  have hroom : ¬ queueSize ≤ (session s k).queue.length := Nat.not_le.mpr h.room
  exact (if_neg hroom).trans (if_neg (Nat.not_lt.mpr h.service))

/-- The SEQ of a session's next command is consumed (10 R315). -/
def seqConsumed (s : State) (k : Nat) (p : Packet) : State :=
  modSession s k (fun v => { v with nextSeq := p.seq + 1, lost := v.lost.filter (· != p.seq) })

/-- A command that is admitted when its turn comes enters its session's queue. -/
theorem consume_queued {s : State} {k : Nat} {p : Packet} (h : Admits s k p) : Queued s k p (consume s k p) := by
  have hconsumed : Admits (seqConsumed s k p) k p := h.modSession rfl
  have hpassed : consume s k p = accept (seqConsumed s k p) ⟨some k, p.seq, p.src⟩ p := by
    unfold consume
    dsimp only
    rw [← seqConsumed, if_neg (by simp [hconsumed.fatal]), if_neg (by simp [hconsumed.assigned]), admitPacket_admits hconsumed]
  rw [hpassed, accept_run p hconsumed.st hconsumed.entering]
  constructor
  case entry => rw [session_bump64, session_modSession, if_pos rfl, seqConsumed, session_modSession, if_pos rfl]; rfl
  case others => intro j hj; rw [session_bump64, session_modSession, if_neg hj, seqConsumed, session_modSession, if_neg hj]
  case out => rw [bump64_out]; rfl

/-! ### Held commands (10 R316) -/

theorem drainHeld_none {s : State} {k : Nat} (n : Nat) (h : (session s k).reorder = []) : drainHeld n s k = s := by
  cases n with
  | zero => rfl
  | succ n => simp [drainHeld, h]

/-- No command of a session is held any more. -/
def heldNone (s : State) (k : Nat) : State := modSession s k (fun v => { v with reorder := [] })

/-- The one held command proceeds when it is the next. -/
theorem drainHeld_next {s : State} {k : Nat} {p : Packet} (n : Nat) (hheld : (session s k).reorder = [p])
    (hseq : p.seq = (session s k).nextSeq) : drainHeld (n + 1) s k = drainHeld n (consume (heldNone s k) k p) k := by
  have hgone : modSession s k (fun v => { v with reorder := v.reorder.filter (fun q => q != p) }) = heldNone s k := by
    simp [modSession, heldNone, hheld]
  simp [drainHeld, hheld, hseq, hgone]

/-- The next SEQ of a session is lost. -/
def nextLost (s : State) (k : Nat) : State :=
  modSession s k (fun v => { v with nextSeq := v.nextSeq + 1, lost := (v.nextSeq :: v.lost).take 1024 })

/-- A missing SEQ below the one held longest is lost. -/
theorem passGap_lost {s : State} {k : Nat} {p : Packet} (n : Nat) (hheld : (session s k).reorder = [p])
    (hseq : p.seq ≠ (session s k).nextSeq) : passGap (n + 1) s k p.seq = passGap n (nextLost s k) k p.seq := by
  simp [passGap, hheld, hseq, Ne.symm hseq, nextLost]

theorem passGap_done {s : State} {k : Nat} {target : Word} (n : Nat) (hseq : (session s k).nextSeq = target) :
    passGap (n + 1) s k target = s := by
  simp [passGap, hseq]

/-- With one SEQ missing, the end of the wait declares it lost and lets the held command proceed. -/
theorem expireHeld_next {s : State} {k : Nat} {p : Packet} (hheld : (session s k).reorder = [p])
    (hseq : p.seq = (session s k).nextSeq + 1) :
    expireHeld s k = drainHeld 63 (consume (heldNone (nextLost s k) k) k p) k := by
  have hmissing : p.seq ≠ (session s k).nextSeq := by
    rw [hseq]
    simp
  have hlost : session (nextLost s k) k = { session s k with
      nextSeq := (session s k).nextSeq + 1, lost := ((session s k).nextSeq :: (session s k).lost).take 1024 } := by
    rw [nextLost, session_modSession, if_pos rfl]
  have hnext : (session (nextLost s k) k).nextSeq = p.seq := by rw [hlost, hseq]
  have hstill : (session (nextLost s k) k).reorder = [p] := by rw [hlost, hheld]
  unfold expireHeld
  rw [hheld]
  dsimp only
  rw [passGap_lost 63 hheld hmissing, passGap_done 62 hnext, drainHeld_next 63 hstill hnext.symm]

/-! ### The rows of frames (10 R302, R303, R316, R319, 15 R461, 18 R534) -/

theorem exec_frameReceived {s : State} {f : Frame} {data : List Byte} {k op : Nat} {seq : Word} {resend : Bool}
    (hframe : FrameFits s f data) (hpacket : PacketFits s data k op seq resend) :
    exec (.frameReceived f) s = .next (sequence s k (packetOf s (frameSource f) data k op seq) resend) := by
  change execFrameReceived f s = _
  rw [execFrameReceived, receiveFrame_fits hframe, receivePacket_fits hpacket (by simp [padded])]

theorem exec_ethernetWhistleFrame {s : State} {f : Frame} (hwhistle : isWhistle f = true) (hon : frontEndOn s = true)
    (hlink : (ethPort s f.port).link = true) (hfcs : f.fcsOk = true) (hframe : frameOk s f = true) (hpoliced : policed s f = some s)
    (htags : f.rTags = []) (hwakes : frameWakes s f = false) :
    exec (.ethernetWhistleFrame f) s = .next (dropDuplicate s) := by
  change execEthernetWhistleFrame f s = _
  rw [execEthernetWhistleFrame, if_pos hwhistle, receiveFrame_passed hon hlink hfcs hframe hpoliced htags hwakes, framePacket,
    if_pos hwhistle]

theorem exec_reorderWaitExpiry {s : State} {k : Nat} (hk : k < 8) (hopen : (session s k).isOpen = true) :
    exec (.reorderWaitExpiry k) s = .next (expireHeld s k) := by
  change execReorderWaitExpiry k s = _
  rw [execReorderWaitExpiry, if_pos ⟨hk, hopen⟩]

section
variable {s : State} {e : Nat} (hon : frontEndOn s = true) (hlink : (ethPort s e).link = true)
include hon hlink

theorem exec_arpRequest (mac ip : List Byte) {target : List Byte} (hset : allZero target = false) (htarget : target = ip4Of s) :
    exec (.arpRequest e mac ip target) s = .next { s with out := .arp e mac ip :: s.out } := by
  change execArpRequest e mac ip target s = _
  rw [execArpRequest, if_pos (by simp [hon, hlink, hset, ← htarget])]

theorem exec_neighborSolicitation (mac ip : List Byte) {target : List Byte} (hset : allZero target = false)
    (htarget : target = ip6Of s) :
    exec (.neighborSolicitation e mac ip target) s = .next { s with out := .neighborAdv e mac ip :: s.out } := by
  change execNeighborSolicitation e mac ip target s = _
  rw [execNeighborSolicitation, if_pos (by simp [hon, hlink, hset, ← htarget])]

theorem exec_gptpMessage (t : Nat) (henabled : regBit s 0x6050 7 = true) :
    exec (.gptpMessage e 0 t) s = .next { s with gptp := some (t, s.rtc) } := by
  change execGptpMessage e 0 t s = _
  rw [execGptpMessage, if_pos (by simp [hon, hlink, henabled])]

end

/-! ### Links and gate cycles (10 R304, 18 R533, R535) -/

/-- The port of a link that has come up. -/
def linkedPort (s : State) (e : Nat) (fast : Bool) (fec gptp : BitVec 2) (eye : Nat) : EthPort :=
  ⟨true, fast && regBit s (0x6000 + 0x10 * e) 1, fec, if regBit s 0x6050 7 then gptp else 0, eye⟩

/-- With no reply waiting, a link that comes up changes its port alone. -/
theorem exec_ethLinkUp {s : State} {e : Nat} (fast : Bool) (fec gptp : BitVec 2) (eye : Nat) (he : e < 2)
    (hon : frontEndOn s = true) (henabled : regBit s (0x6000 + 0x10 * e) 0 = true) (hunsent : s.unsent = []) :
    exec (.ethLinkUp e fast fec gptp eye) s = .next { s with eth := put s.eth e (linkedPort s e fast fec gptp eye) } := by
  change execEthLinkUp e fast fec gptp eye s = _
  unfold execEthLinkUp
  dsimp only
  rw [if_pos (by simp [hon, henabled, he]), ← linkedPort, flushUnsent]
  dsimp only
  rw [hunsent, List.filter_nil, each, List.foldl_nil, ← hunsent]

theorem ethPort_put_same (s : State) (e : Nat) (v : EthPort) : ethPort { s with eth := put s.eth e v } e = v := by
  rw [ethPort, lookupD, lookup_put_same]
  rfl

theorem ethPort_put_other (s : State) {e j : Nat} (v : EthPort) (hj : j ≠ e) :
    ethPort { s with eth := put s.eth e v } j = ethPort s j := by
  rw [ethPort, lookupD, lookup_put_other _ _ hj, ethPort, lookupD]

theorem ethPort_del_same (s : State) (e : Nat) : ethPort { s with eth := del s.eth e } e = {} := by
  rw [ethPort, lookupD, lookup_del_same]
  rfl

theorem ethPort_del_other (s : State) {e j : Nat} (hj : j ≠ e) : ethPort { s with eth := del s.eth e } j = ethPort s j := by
  rw [ethPort, lookupD, lookup_del_other _ hj, ethPort, lookupD]

/-- A gate control value that waits alone for its port's next cycle takes effect whole when the cycle starts. -/
theorem gateBoundary_alone {s : State} {e : Nat} {v : Word} (he : e < 2) (hheld : s.heldRegs = [(0x6055 + 4 * e, v)]) :
    gateBoundary s e = setReg { s with heldRegs := [] } (0x6054 + 4 * e) v.toNat := by
  have hmask : v.toNat &&& 0xFFFFFFFF = v.toNat := by
    rw [show 0xFFFFFFFF = 2 ^ 32 - 1 by decide, Nat.and_two_pow_sub_one_eq_mod, Nat.mod_eq_of_lt v.isLt]
  have hkey : (0x6055 + 4 * e) % 4 = 1 := by omega
  have hword : (0x6055 + 4 * e) / 4 * 4 = 0x6054 + 4 * e := by omega
  have hlist : ¬ 0x6054 + 4 * e = 0x605C := by omega
  simp [gateBoundary, applyHeld, each, applyBits, hheld, hkey, hword, hlist, hmask]

end Sys2Proof.Machine

open Sys2Proof Sys2Proof.Machine

/-- Settles O57: an open session's reply enters its cache of 32 (`reply_cache`), and a command that passes every check and repeats a
cached SEQ has that reply sent again (`exec_frameReceived`, `sequence_resent`), whose bytes do not name where it goes. -/
theorem cachedRepliesAreSentAgain : Obligations.CachedRepliesAreSentAgain := by
  refine ⟨?cached, ?resent⟩
  case cached =>
    intro s r k op st d p own hr hopen
    exact ⟨taggedReply s r k op st d p own, rfl, rfl, rfl, reply_cache s r op st d p own hr hopen⟩
  case resent =>
    intro s f data k op seq c hframe hpacket hlow hhigh hlost hcached hcb
    have ⟨_, hlink, _, _, _, _, hbody, _⟩ := hframe
    obtain ⟨hcarrier, hport⟩ := frameSource_raw hbody
    have hresent : sequence s k (packetOf s (frameSource f) data k op seq) true = sendReply (used s k) { c with dest := frameSource f } :=
      sequence_resent hlow hhigh hlost hcached
    have hsent : sendReply (used s k) { c with dest := frameSource f } = { used s k with
        out := replyOut (used s k) (frameSource f).port false { c with dest := frameSource f } :: s.out } :=
      sendReply_up (by simp [hcarrier]) hcb (by rw [hport]; exact hlink)
    have hrow := exec_frameReceived hframe hpacket
    rw [hresent, hsent, hport] at hrow
    have hcache : (session (used s k) k).cache = (session s k).cache := by rw [session_used]
    have hqueue : (session (used s k) k).queue = (session s k).queue := by rw [session_used]
    refine ⟨_, { c with dest := frameSource f }, hrow, rfl, rfl, rfl, hcache, hqueue⟩

/-- Settles O58: a command that passes the checks is consumed and queued (`exec_frameReceived`, `sequence_next`, `consume_queued`), also
behind a SEQ declared lost (`expireHeld_next`); each other frame and event has its row. -/
theorem framesReachTheirSession : Obligations.FramesReachTheirSession := by
  refine ⟨?command, ?expiry, ?whistle, ?address, ?time, ?up, ?down, ?gate⟩
  case command =>
    intro s f data k op seq hframe hpacket hseq hheld hfatal hassigned hroom hservice
    have ⟨_, _, _, _, _, _, _, _, hst, hentering⟩ := hframe
    have hadmits : Admits s k (packetOf s (frameSource f) data k op seq) := ⟨hfatal, hst, hentering, hassigned, hroom, hservice⟩
    obtain ⟨hsession, hothers, hout⟩ := consume_queued (s := used s k) (hadmits.modSession rfl)
    have hnone : (session (consume (used s k) k (packetOf s (frameSource f) data k op seq)) k).reorder = [] := by
      rw [hsession, session_used]
      exact hheld
    refine ⟨_, (exec_frameReceived hframe hpacket).trans
      (congrArg _ ((sequence_next hseq.symm).trans (drainHeld_none 64 hnone))), ?_, hout, ?_, fun j hj => ?_⟩
    · rw [hsession]
      rfl
    · rw [hsession, session_used]
      rfl
    · rw [hothers j hj, session_used_other s hj]
  case expiry =>
    intro s k p hk hopen hheld hseq hfatal hassigned hst hentering hroom hservice
    have hadmits : Admits s k p := ⟨hfatal, hst, hentering, hassigned, hroom, hservice⟩
    have hlost : Admits (nextLost s k) k p := hadmits.modSession rfl
    obtain ⟨hsession, -, -⟩ := consume_queued (s := heldNone (nextLost s k) k) (hlost.modSession rfl)
    rw [heldNone, session_modSession, if_pos rfl, nextLost, session_modSession, if_pos rfl, ← nextLost, ← heldNone] at hsession
    refine ⟨_, (exec_reorderWaitExpiry hk hopen).trans
      (congrArg _ ((expireHeld_next hheld hseq).trans (drainHeld_none 63 (by rw [hsession])))), ?_, ?_, ?_, ?_⟩ <;> rw [hsession]
    rfl
  case whistle =>
    intro s f hwhistle hon hlink hfcs hframe hpoliced htags hwakes
    exact ⟨_, exec_ethernetWhistleFrame hwhistle hon hlink hfcs hframe hpoliced htags hwakes, bump_sessions .., bump_openQueue ..,
      bump_out .., regVal_bump_same ..⟩
  case address =>
    exact fun s e mac ip target hon hlink hset =>
      ⟨exec_arpRequest hon hlink mac ip hset, exec_neighborSolicitation hon hlink mac ip hset⟩
  case time => exact fun s e t hon hlink henabled => exec_gptpMessage hon hlink t henabled
  case up =>
    intro s e eye fast fec gptp he hon henabled hunsent
    refine ⟨_, exec_ethLinkUp fast fec gptp eye he hon henabled hunsent, ?_, ?_, rfl, fun j hj => ethPort_put_other s _ hj⟩ <;>
      rw [ethPort_put_same] <;> rfl
  case down =>
    intro s e
    refine ⟨{ s with eth := del s.eth e }, rfl, ?_, rfl, fun j hj => ethPort_del_other s hj⟩
    rw [ethPort_del_same]
  case gate =>
    intro s e v he hheld
    have hrow : exec (.gateCycleStart e) s = .next (gateBoundary s e) := congrArg _ (if_pos he)
    rw [gateBoundary_alone he hheld] at hrow
    refine ⟨_, hrow, setReg_heldRegs .., ?_, fun a ha => regVal_setReg_other _ _ ha⟩
    rw [regVal_setReg_same, Nat.mod_eq_of_lt v.isLt]
end

section
/-!
PROOFS. Fatal errors and the Fetch dump (14 R447 to R452, 10 R329): what a fatal error stops and records, the dump that it begins, and
the bytes that DUMP_READ returns.
-/

namespace Sys2Proof.Machine

/-! ### The Trail stays thawed under memory events (14 R444) -/

theorem enqueueRec_frozen (s : State) (x : Rec) : (enqueueRec s x).trail.frozen = s.trail.frozen := by
  unfold enqueueRec
  split
  · rfl
  · split
    · rw [bump_trail]
    · rfl

theorem endInterval_frozen (s : State) (key : IntervalKey) : (endInterval s key).trail.frozen = s.trail.frozen := by
  unfold endInterval
  split
  · rfl
  · rw [enqueueRec_frozen]

theorem coalesce_frozen (s : State) (key : IntervalKey) (c v u : Nat) (d : List Byte) :
    (coalesce s key c v u d).trail.frozen = s.trail.frozen := by
  unfold coalesce
  split
  · rfl
  · split
    · rfl
    · exact endInterval_frozen s key

theorem memEvent_frozen (s : State) (u : MemUnit) (a k : Nat) : (memEvent s u a k).trail.frozen = s.trail.frozen := by
  rw [memEvent, memTrail, coalesce_frozen, recordLast, setReg_trail, setReg_trail]

theorem narrowWrite_frozen (s : State) (a : Nat) (bs : List Byte) : (narrowWrite s a bs).trail.frozen = s.trail.frozen := by
  unfold narrowWrite
  dsimp only
  split
  · rfl
  · split
    · rfl
    · exact (memEvent_frozen ..).trans (congrArg Trail.frozen (bump_trail ..))
    · exact (memEvent_frozen ..).trans (congrArg Trail.frozen (bump_trail ..))
    · rfl

theorem writeWords_trail (s : State) (a : Nat) (bs : List Byte) : (writeWords s a bs).trail = s.trail := by
  obtain ⟨_, _, _, h⟩ := writeWords_only s a bs
  rw [h]

theorem writeHbm_frozen (s : State) (a : Nat) (bs : List Byte) : (writeHbm s a bs).trail.frozen = s.trail.frozen := by
  simp only [writeHbm, narrowWrite_frozen, writeWords_trail]

/-! ### The dump that begins (14 R450, R451) -/

/-- The dump of a fatal error, or the one that KEEP_FIRST keeps, with one more error counted. -/
theorem beginDump_dump (s : State) (cause unit n : Nat) :
    (regBit s 0x2020 0 = true → s.faults.dump.kept = true →
      (beginDump s cause unit n).faults.dump = { s.faults.dump with later := s.faults.dump.later + 1 }) ∧
    (regBit s 0x2020 0 = false ∨ s.faults.dump.kept = false →
      (beginDump s cause unit n).faults.dump.writing = true ∧ (beginDump s cause unit n).faults.dump.cause = cause ∧
      (beginDump s cause unit n).faults.dump.unit = unit ∧
      (beginDump s cause unit n).faults.dump.number = s.faults.dump.number + 1) := by
  unfold beginDump
  dsimp only
  refine ⟨fun hfirst hkept => ?_, fun hnew => ?_⟩
  · rw [if_pos (by rw [hfirst, hkept]; rfl), writeHbm_faults]
  · have hbegins : ¬ (regBit s 0x2020 0 && s.faults.dump.kept) = true := by
      rcases hnew with h | h <;> simp [h]
    rw [if_neg hbegins]
    exact ⟨rfl, rfl, rfl, rfl⟩

/-- Beside the dump, a dump that begins leaves faults and power as they are, and the Trail as frozen as it was. -/
theorem beginDump_keeps (s : State) (cause unit n : Nat) :
    (beginDump s cause unit n).faults.fatal = s.faults.fatal ∧ (beginDump s cause unit n).power = s.power ∧
      (beginDump s cause unit n).trail.frozen = s.trail.frozen := by
  unfold beginDump
  dsimp only
  split
  · exact ⟨by rw [writeHbm_faults], by rw [writeHbm_power], writeHbm_frozen ..⟩
  · split
    · exact ⟨(congrArg Faults.fatal (writeHbm_faults s (fetchAddr 0xFC) (zeros 4)) :), writeHbm_power .., writeHbm_frozen ..⟩
    · exact ⟨rfl, rfl, rfl⟩

/-! ### The work that ends (10 R329) -/

/-- A state without what an answer changes. -/
def answersRest (s : State) : State := { s with sessions := [], unsent := [], ports := [], join := {}, out := [] }

theorem answersRest_answer (s : State) (r : Req) (op : Nat) (st : Status) (d : Nat) (p : List Byte) (own retry : Nat) :
    answersRest (answer s r op st d p own retry) = answersRest s := by
  obtain ⟨_, _, _, _, _, h⟩ := answer_only s r op st d p own retry
  rw [h]
  rfl

theorem answersRest_endQueue (s : State) (k : Nat) : answersRest (endQueue s k) = answersRest s :=
  (each_keeps answersRest (fun _ _ => answersRest_answer ..) _ _).trans rfl

/-- Every unreplied command is answered, and what has been taken is forgotten. -/
def allAnswered (s : State) : State :=
  let t := each s.taken { s with taken := [] } (fun s t => answer s t.r t.opcode .fatal 0 [] 0 0)
  each ((List.range 8).filter (fun k => !(session t k).queue.isEmpty)) t endQueue

theorem answersRest_allAnswered (s : State) : answersRest (allAnswered s) = answersRest { s with taken := [] } :=
  (each_keeps answersRest answersRest_endQueue _ _).trans (each_keeps answersRest (fun _ _ => answersRest_answer ..) _ _)

/-- The work in progress ends without a trace. -/
structure WorkEnded (s t : State) : Prop where
  taken : t.taken = []
  moves : t.moves = []
  fills : t.fills = []
  progs : t.progs = []
  drains : t.drains = []
  loads : t.loads = []
  faults : t.faults = s.faults
  power : t.power = s.power
  trail : t.trail = s.trail

theorem endWork_ended (s : State) : WorkEnded s (endWork s) := by
  have h := answersRest_allAnswered s
  exact ⟨congrArg (·.taken) h, rfl, rfl, rfl, rfl, rfl, congrArg (·.faults) h, congrArg (·.power) h, congrArg (·.trail) h⟩

theorem WorkEnded.inBand {s t : State} (h : WorkEnded s t) (b : Byte) : WorkEnded s (inBand t b) := by
  unfold Machine.inBand
  split
  · exact ⟨h.taken, h.moves, h.fills, h.progs, h.drains, h.loads, h.faults, h.power, h.trail⟩
  · exact h

/-! ### A fatal error (14 R447) -/

/-- The Trail is thawed and records a fatal error. -/
def fatalRecorded (s : State) (cause unit : Nat) : State :=
  event { s with trail := { s.trail with frozen := false } } 0x0700 3 unit 0 (leBytes 2 cause)

theorem fatalRecorded_faults (s : State) (cause unit : Nat) : (fatalRecorded s cause unit).faults = s.faults := event_faults ..

theorem fatalRecorded_power (s : State) (cause unit : Nat) : (fatalRecorded s cause unit).power = s.power := event_power ..

theorem fatalRecorded_frozen (s : State) (cause unit : Nat) : (fatalRecorded s cause unit).trail.frozen = false :=
  (event_trail_keeps ..).1

/-- KEEP_FIRST stays as it is. -/
theorem fatalRecorded_keepFirst (s : State) (cause unit : Nat) : regBit (fatalRecorded s cause unit) 0x2020 0 = regBit s 0x2020 0 :=
  congrArg (fun v => bitOf v 0 == 1) (regVal_event _ _ _ _ _ _ (by decide))

/-- The first fatal error has begun its dump. -/
def fatalDumping (s : State) (cause unit : Nat) : State :=
  let t := fatalRecorded s cause unit
  beginDump t cause unit (t.trail.head + t.trail.waiting.length)

theorem fatalDumping_keeps (s : State) (cause unit : Nat) :
    (fatalDumping s cause unit).power = s.power ∧ (fatalDumping s cause unit).trail.frozen = false := by
  obtain ⟨-, hpower, hfrozen⟩ := beginDump_keeps (fatalRecorded s cause unit) cause unit
    ((fatalRecorded s cause unit).trail.head + (fatalRecorded s cause unit).trail.waiting.length)
  exact ⟨hpower.trans (fatalRecorded_power ..), hfrozen.trans (fatalRecorded_frozen ..)⟩

theorem fatalDumping_dump (s : State) (cause unit : Nat) :
    (regBit s 0x2020 0 = true → s.faults.dump.kept = true →
      (fatalDumping s cause unit).faults.dump = { s.faults.dump with later := s.faults.dump.later + 1 }) ∧
    (regBit s 0x2020 0 = false ∨ s.faults.dump.kept = false →
      (fatalDumping s cause unit).faults.dump.writing = true ∧ (fatalDumping s cause unit).faults.dump.cause = cause ∧
      (fatalDumping s cause unit).faults.dump.unit = unit ∧
      (fatalDumping s cause unit).faults.dump.number = s.faults.dump.number + 1) := by
  have h := beginDump_dump (fatalRecorded s cause unit) cause unit
    ((fatalRecorded s cause unit).trail.head + (fatalRecorded s cause unit).trail.waiting.length)
  rwa [fatalRecorded_keepFirst, fatalRecorded_faults] at h

/-- The module is in the fatal state: fences and power sequences are over. -/
def fatalStopped (s : State) (cause unit : Nat) : State :=
  let t := fatalDumping s cause unit
  { t with
    faults := { t.faults with fatal := some (cause, unit), due := [] }
    power := { t.power with entering := none, exiting := false } }

theorem fatalStopped_power (s : State) (cause unit : Nat) :
    (fatalStopped s cause unit).power = { s.power with entering := none, exiting := false } := by
  rw [fatalStopped, (fatalDumping_keeps s cause unit).1]

theorem fatalStopped_frozen (s : State) (cause unit : Nat) : (fatalStopped s cause unit).trail.frozen = false :=
  (fatalDumping_keeps s cause unit).2

/-- The first fatal error stops the module and ends all work. -/
theorem fatalError_first {s : State} (cause unit : Nat) (hfatal : s.faults.fatal = none) :
    WorkEnded (fatalStopped s cause unit) (fatalError s cause unit) := by
  have hfirst : (fatalRecorded s cause unit).faults.fatal.isSome = false := by rw [fatalRecorded_faults, hfatal]; rfl
  unfold fatalError
  dsimp only
  rw [← fatalRecorded, if_neg (by rw [hfirst]; exact Bool.false_ne_true)]
  split
  · exact endWork_ended _
  · exact (endWork_ended _).inBand 1

/-- A later one only counts in a dump that is kept. -/
theorem fatalError_later {s : State} {c : Nat × Nat} (cause unit : Nat) (hfatal : s.faults.fatal = some c) :
    fatalError s cause unit = if regBit s 0x2020 0 && s.faults.dump.kept then beginDump (fatalRecorded s cause unit) cause unit 0
      else fatalRecorded s cause unit := by
  have hlater : (fatalRecorded s cause unit).faults.fatal.isSome = true := by rw [fatalRecorded_faults, hfatal]; rfl
  unfold fatalError
  dsimp only
  rw [← fatalRecorded, if_pos hlater, fatalRecorded_keepFirst, fatalRecorded_faults]

theorem exec_fatalError {s : State} (cause unit : Nat) (hoff : s.power.phase ≠ .off) (hreset : s.power.phase ≠ .reset) :
    exec (.fatalError cause unit) s = .next (fatalError s cause unit) :=
  congrArg _ (if_neg (not_or.mpr ⟨hoff, hreset⟩))

/-! ### The end of the dump (14 R450, R451) -/

/-- A state without what a write of HBM changes. -/
def memoryRest (s : State) : State := { s with regs := [], trail := {}, hbm := [], marks := [], writeBacks := [] }

theorem memoryRest_writeHbm (s : State) (a : Nat) (bs : List Byte) : memoryRest (writeHbm s a bs) = memoryRest s := by
  obtain ⟨_, _, _, _, _, h⟩ := writeHbm_only s a bs
  rw [h]
  rfl

/-- The dump that has been written is VALID and KEPT, of a size that its header fills first. -/
theorem exec_fetchDumpDone {s : State} (hwriting : s.faults.dump.writing = true) :
    ∃ (u : State) (n : Nat), memoryRest u = memoryRest s ∧ 256 ≤ n ∧ exec .fetchDumpDone s = .next { u with
      faults := { u.faults with
        dump := { s.faults.dump with writing := false, valid := true, kept := true, later := 0, size := n } } } := by
  have hrow : exec .fetchDumpDone s = execFetchDumpDone s := rfl
  rw [hrow]
  unfold execFetchDumpDone
  dsimp only
  rw [if_neg (by rw [hwriting]; decide)]
  refine ⟨_, _, ?_, ?_, rfl⟩
  · exact each_keeps memoryRest (fun _ _ => memoryRest_writeHbm ..) _ s
  · exact Nat.le_add_right ..

/-! ### DUMP_READ (11 R364, R366, 14 R452) -/

/-- Words that are read whole yield eight bytes each. -/
theorem readWords_length (n w : Nat) (cells : List Host.Cell) (last : Nat) (s : State) (h : (readWords n w cells last s).2.1 = true) :
    (readWords n w cells last s).1.length = 8 * n := by
  induction n generalizing w cells last s with
  | zero => rfl
  | succ n ih =>
    simp only [readWords] at h ⊢
    split at h
    case isTrue hhere =>
      rw [if_pos hhere]
      simp only [List.length_append, List.length_map, ih _ _ _ _ h, hhere.1]
      omega
    case isFalse => exact absurd h Bool.false_ne_true

theorem readPart_length (s : State) (a n : Nat) (h : (readPart s a n).2.1 = true) : (readPart s a n).1.length = n := by
  unfold readPart at h ⊢
  split at h
  case isTrue hzero => rw [if_pos hzero, hzero]; rfl
  case isFalse hpos =>
    rw [if_neg hpos]
    simp only [List.length_take, List.length_drop, readWords_length _ _ _ _ _ h]
    omega

theorem readHbm_length {s : State} {a n : Nat} {bs : List Byte} (h : (readHbm s a n).1 = some bs) : bs.length = n := by
  unfold readHbm at h
  dsimp only at h
  split at h
  · obtain rfl := Option.some.inj h
    exact readPart_length s a n ‹_›
  · exact absurd h (by simp)

/-- A part of the dump has the length asked for, also across two stacks. -/
theorem readDump_length {s : State} {o n : Nat} {bs : List Byte} (h : (readDump s o n).1 = some bs) : bs.length = n := by
  unfold readDump at h
  dsimp only at h
  split at h
  · exact readHbm_length h
  · obtain ⟨x, hx, hrest⟩ := Option.bind_eq_some_iff.mp h
    obtain ⟨y, hy, rfl⟩ := Option.map_eq_some_iff.mp hrest
    rw [List.length_append, readHbm_length hx, readHbm_length hy]
    omega

/-- A DUMP_READ in order, of a dump that is VALID and not being written, replies the part that it names. -/
theorem exec_dumpRead {s : State} {r : Req} {p bytes : List Byte} (hready : Ready s r 0x93 none none) (hlen : p.length = 16)
    (hzero : allZero (slice p 10 6) = true) (hlow : 1 ≤ u16 p 8) (hhigh : u16 p 8 ≤ 8192) (hvalid : s.faults.dump.valid = true)
    (hwritten : s.faults.dump.writing = false) (hinside : u64 p 0 + u16 p 8 ≤ s.faults.dump.size)
    (hread : (readDump (unqueue s r 0x93) (u64 p 0) (u16 p 8)).1 = some bytes) :
    exec (.dumpRead r p) s = .next (reply (readDump (unqueue s r 0x93) (u64 p 0) (u16 p 8)).2 r 0x93 .ok 0 bytes) := by
  have hrange : ¬ (u16 p 8 < 1 ∨ 8192 < u16 p 8) := by omega
  have hchecks : firstErr [(p.length != 16, badLength), (!allZero (slice p 10 6), badReserved),
      (decide (u16 p 8 < 1 ∨ 8192 < u16 p 8), badRange), (!s.faults.dump.valid || s.faults.dump.writing, .notReady, 0x0372),
      (decide (s.faults.dump.size < u64 p 0 + u16 p 8), badRange)] = none := by
    simp only [firstErr_cons, firstErr, hlen, hzero, hrange, hvalid, hwritten, Nat.not_lt.mpr hinside]
    rfl
  change execDumpRead r p s = _
  rw [execDumpRead, serve_ready hready]
  dsimp only
  rw [unqueue_faults, checked_pass hchecks, hread]

end Sys2Proof.Machine

open Sys2Proof Sys2Proof.Machine

/-- Settles O48: the first fatal error stops the module and ends its work (`fatalError_first`) and begins the dump (`beginDump_dump`), a
later one only counts in it (`fatalError_later`); the dump's end makes it VALID (`exec_fetchDumpDone`), and DUMP_READ replies its bytes
(`exec_dumpRead`, `readDump_length`). -/
theorem fatalErrorStopsAndDumps : Obligations.FatalErrorStopsAndDumps := by
  refine ⟨?first, ?later, ?written, ?read⟩
  case first =>
    intro s cause unit hoff hreset hfatal
    have hended := fatalError_first cause unit hfatal
    have hpower := hended.power.trans (fatalStopped_power s cause unit)
    have hdump : (fatalError s cause unit).faults.dump = (fatalDumping s cause unit).faults.dump :=
      (congrArg Faults.dump hended.faults :)
    obtain ⟨hkeeps, hbegins⟩ := fatalDumping_dump s cause unit
    have hstopped : (fatalError s cause unit).faults.fatal = some (cause, unit) := congrArg Faults.fatal hended.faults
    refine ⟨_, exec_fatalError cause unit hoff hreset, hstopped, congrArg Faults.due hended.faults, hended.taken, hended.moves,
      hended.fills, hended.progs, hended.drains, hended.loads, ?_, ?_, by rw [hpower], by rw [hpower], fun hrst => ?_, ?_, ?_⟩
    · rw [hended.trail, fatalStopped_frozen]
    · simp [engineOn, hstopped]
    · simp [alertN, hstopped, hpower, hrst, hoff]
    · rw [hdump]
      exact hbegins
    · rw [hdump]
      exact hkeeps
  case later =>
    intro s cause unit c hoff hreset hfatal
    refine ⟨_, exec_fatalError cause unit hoff hreset, ?_, fun hfirst hkept => ?_⟩ <;> rw [fatalError_later cause unit hfatal]
    · split
      · obtain ⟨hkeeps, -, -⟩ := beginDump_keeps (fatalRecorded s cause unit) cause unit 0
        rw [hkeeps, fatalRecorded_faults, hfatal]
      · rw [fatalRecorded_faults, hfatal]
    · obtain ⟨hkeeps, -⟩ := beginDump_dump (fatalRecorded s cause unit) cause unit 0
      rw [fatalRecorded_keepFirst, fatalRecorded_faults] at hkeeps
      rw [if_pos (by rw [hfirst, hkept]; rfl), hkeeps hfirst hkept]
  case written =>
    intro s hwriting
    obtain ⟨u, n, hrest, hsize, hrow⟩ := exec_fetchDumpDone hwriting
    exact ⟨_, hrow, rfl, hsize, congrArg (·.models) hrest, congrArg (·.ctxs) hrest, congrArg (·.sessions) hrest,
      congrArg (·.out) hrest⟩
  case read =>
    intro s r p bytes hready hlen hzero hlow hhigh hvalid hwritten hinside hread
    exact ⟨exec_dumpRead hready hlen hzero hlow hhigh hvalid hwritten hinside hread, readDump_length hread⟩
end

section
/-!
PROOFS. Register commands of several words (11 R342, R343, 17 R501, R504, R515): the words up to the first that fails, and the reply that
counts them.
-/

namespace Sys2Proof.Machine

/-! ### Words up to the first failure -/

/-- A read carries four bytes for each word read: all of the words where none failed, and fewer where one did. -/
theorem readMany_length (n : Nat) (s : State) (p a : Nat) (ind : Bool) :
    ((readMany n s p a ind).2.1 = none → (readMany n s p a ind).1.length = 4 * n) ∧
    ((readMany n s p a ind).2.1.isSome = true → (readMany n s p a ind).1.length < 4 * n) := by
  induction n generalizing s a with
  | zero => exact ⟨fun _ => rfl, fun h => absurd h Bool.false_ne_true⟩
  | succ n ih =>
    simp only [readMany]
    split
    · exact ⟨fun h => by simp at h, fun _ => by simp⟩
    · next v t _ =>
      obtain ⟨hall, hstop⟩ := ih t (a + 4)
      simp only [List.length_append, leBytes_length]
      exact ⟨fun h => by rw [hall h]; omega, fun h => by have := hstop h; omega⟩

/-- A write counts the words done: all of them where none failed, and fewer where one did. -/
theorem writeMany_count (ws : List Nat) (s : State) (p a : Nat) (ind : Bool) :
    ((writeMany ws s p a ind).2.1 = none → (writeMany ws s p a ind).1 = ws.length) ∧
    ((writeMany ws s p a ind).2.1.isSome = true → (writeMany ws s p a ind).1 < ws.length) := by
  induction ws generalizing s a with
  | nil => exact ⟨fun _ => rfl, fun h => absurd h Bool.false_ne_true⟩
  | cons w ws ih =>
    simp only [writeMany]
    split
    · exact ⟨fun h => by simp at h, fun _ => by simp⟩
    · next t _ =>
      obtain ⟨hall, hstop⟩ := ih t (a + 4)
      exact ⟨fun h => by rw [hall h, List.length_cons], fun h => Nat.succ_lt_succ (hstop h)⟩

theorem payloadWords_length {p : List Byte} {n : Nat} (hlen : p.length = 8 + 4 * n) : (payloadWords p).length = n := by
  rw [payloadWords, List.length_map, List.length_range, hlen]
  omega

/-! ### The rows -/

/-- The reply of a register read whose operands pass their checks. -/
def readAnswer (s : State) (r : Req) (k op : Nat) (p : List Byte) (ind : Bool) : State :=
  let got := readMany (u16 p 4) (loadInd s k (u32 p 0) ind) k (u32 p 0) ind
  reply got.2.2 r op (got.2.1.getD (.ok, 0)).1 (got.2.1.getD (.ok, 0)).2 (leBytes 4 (got.1.length / 4) ++ got.1)

/-- The reply of a register write whose operands pass their checks, after the command boundary of its end (17 R504). -/
def writeAnswer (s : State) (r : Req) (k op : Nat) (p : List Byte) (ind : Bool) : State :=
  let done := writeMany (payloadWords p) (loadInd s k (u32 p 0) ind) k (u32 p 0) ind
  reply (commandBoundary done.2.2) r op (done.2.1.getD (.ok, 0)).1 (done.2.1.getD (.ok, 0)).2 (leBytes 4 done.1)

section
variable {s : State} {r : Req} {p : List Byte} {k op : Nat} {ind : Bool} (hsession : r.session = some k)
  (hready : ReadyEarly s r op (earlyWords p ind) true) (hmin : 1 ≤ u16 p 4) (hmax : u16 p 4 ≤ 256) (hzero : allZero (slice p 6 2) = true)
include hsession hready hmin hmax hzero

theorem regReadCmd_accepted (hlen : p.length = 8) : regReadCmd r p op ind s = .next (readAnswer (unqueue s r op) r k op p ind) := by
  have hpass : firstErr [(p.length != 8, badLength), (!allZero (slice p 6 2), badReserved),
      (decide (u16 p 4 < 1 ∨ 256 < u16 p 4), badRange)] = none := by
    rw [decide_eq_false (by omega), hzero, hlen]
    rfl
  rw [regReadCmd, hsession]
  exact (serveEarly_ready hready).trans (congrArg Host.Outcome.next (checked_pass hpass))

theorem regWriteCmd_accepted (hlen : p.length = 8 + 4 * u16 p 4) :
    regWriteCmd r p op ind s = .next (writeAnswer (unqueue s r op) r k op p ind) := by
  have hpass : firstErr [(decide (p.length < 8) || p.length != 8 + 4 * u16 p 4, badLength), (!allZero (slice p 6 2), badReserved),
      (decide (u16 p 4 < 1 ∨ 256 < u16 p 4), badRange)] = none := by
    rw [decide_eq_false (p := u16 p 4 < 1 ∨ 256 < u16 p 4) (by omega), decide_eq_false (p := p.length < 8) (by omega), hzero,
      bne_eq_false_iff_eq.mpr hlen]
    rfl
  rw [regWriteCmd, hsession]
  exact (serveEarly_ready hready).trans (congrArg Host.Outcome.next (checked_pass hpass))

end

end Sys2Proof.Machine

open Sys2Proof Sys2Proof.Machine

/-- Settles O11: the rows of the two reads (`regReadCmd_accepted`) and of the two writes (`regWriteCmd_accepted`), whose words are counted
up to the first that fails (`readMany_length`, `writeMany_count`). -/
theorem regAccessesStopAtTheFirstFailure : Obligations.RegAccessesStopAtTheFirstFailure := by
  refine ⟨?reads, ?writes⟩
  case reads =>
    intro s r p k ind hsession hlen hmin hmax hzero op u got hready
    refine ⟨?_, readMany_length ..⟩
    have hrow : regReadCmd r p op ind s = _ := regReadCmd_accepted hsession hready hmin hmax hzero hlen
    cases ind
    · exact hrow
    · exact hrow
  case writes =>
    intro s r p k ind hsession hlen hmin hmax hzero op u done hready
    have hcount := writeMany_count (payloadWords p) (loadInd u k (u32 p 0) ind) k (u32 p 0) ind
    rw [payloadWords_length hlen] at hcount
    refine ⟨?_, hcount⟩
    have hrow : regWriteCmd r p op ind s = _ := regWriteCmd_accepted hsession hready hmin hmax hzero hlen
    cases ind
    · exact hrow
    · exact hrow
end

section
/-!
PROOFS. MOVE (11 R336, R359, R361, 12 R375, R391): the checks that an accepted MOVE passes, the bytes that a local one copies, and the
pieces that one over Leash sends.
-/

namespace Sys2Proof.Machine

/-! ### The checks -/

/-- The checks of the operands of a MOVE that no region decides, in their order. -/
def moveOperandChecks (s : State) (p : List Byte) : List (Bool × Status × Nat) :=
  [(decide (p.length < 32) || (u8 p 0 != 1 && p.length != 32), badLength),
   (!allZero (slice p 1 3), badReserved),
   (decide (5 < u8 p 0), badRange),
   ((u8 p 0 == 1 && u64 p 8 != 0) || (u8 p 0 == 2 && u64 p 16 != 0), badReserved),
   (u8 p 0 == 1 && u64 p 24 + 32 != p.length, badLength),
   ((u32 p 4 == bridge) == (u8 p 0 == 3) || (u8 p 0 == 2 && decide (8184 < u64 p 24)) ||
     (u8 p 0 == 3 && joined s && decide (s.join.count ≤ u32 p 4)), badRange)]

/-- The checks of its regions. -/
def moveRegionChecks (s : State) (p : List Byte) : List (Bool × Status × Nat) :=
  (if u8 p 0 = 0 ∨ u8 p 0 = 2 ∨ u8 p 0 = 3 ∨ u8 p 0 = 4 then regionChecks s (u64 p 8) (u64 p 24) 1 false else []) ++
  (if u8 p 0 = 0 ∨ u8 p 0 = 1 ∨ u8 p 0 = 5 then regionChecks s (u64 p 16) (u64 p 24) 1 true else []) ++
  (if u8 p 0 = 3 then [(!inMap (u64 p 16) (u64 p 24), badRegion)] else [])

/-- The checks of the links that it needs. -/
def moveLinkChecks (s : State) (p : List Byte) : List (Bool × Status × Nat) :=
  [(u8 p 0 == 3 && s.join.st == .incomplete, .joinIncomplete, 0x0350),
   (u8 p 0 == 3 && (!joined s || (routesTo s (u32 p 4)).isEmpty), .notReady, 0x0351),
   ((u8 p 0 == 4 || u8 p 0 == 5) && (bridgePort s).isNone, .notReady, 0x0351)]

def moveChecks (s : State) (p : List Byte) : List (Bool × Status × Nat) :=
  moveOperandChecks s p ++ (moveRegionChecks s p ++ moveLinkChecks s p)

section
variable {s : State} {p : List Byte}

theorem regionChecks_pass {a n align : Nat} {write : Bool} (h : RegionOk s a n align write) :
    firstErr (regionChecks s a n align write) = none :=
  firstErr_none (region_pass h)

theorem moveChecks_local (h : LocalMoveFits s p) : firstErr (moveChecks s p) = none := by
  obtain ⟨hkind, hzero, hmember, hcopy, hinline, hreply⟩ := h
  have hkinds : u8 p 0 = 0 ∨ u8 p 0 = 1 ∨ u8 p 0 = 2 := by omega
  simp only [moveChecks, moveOperandChecks, moveRegionChecks, moveLinkChecks, firstErr_append, firstErr_cons]
  rcases hkinds with hk | hk | hk
  · obtain ⟨hlen, hsrc, hdst⟩ := hcopy hk
    simp [hk, hlen, hzero, hmember, regionChecks_pass hsrc, regionChecks_pass hdst, firstErr]
  · obtain ⟨hlen, hsrc, hdst⟩ := hinline hk
    simp [hk, hlen, hzero, hmember, hsrc, Nat.add_comm, regionChecks_pass hdst, firstErr]
  · obtain ⟨hlen, hdst, hmax, hsrc⟩ := hreply hk
    simp [hk, hlen, hzero, hmember, hdst, hmax, regionChecks_pass hsrc, firstErr]

theorem moveChecks_remote (h : RemoteMoveFits s p) : firstErr (moveChecks s p) = none := by
  obtain ⟨hmin, hmax, hzero, hlen, hto, hput, hget⟩ := h
  have hkinds : u8 p 0 = 3 ∨ u8 p 0 = 4 ∨ u8 p 0 = 5 := by omega
  simp only [moveChecks, moveOperandChecks, moveRegionChecks, moveLinkChecks, firstErr_append, firstErr_cons]
  rcases hkinds with hk | hk | hk
  · obtain ⟨hmember, hjoin, hcount, hroutes, hsrc, hdst⟩ := hto hk
    simp [hk, hlen, hzero, hmember, hjoin, joined, hcount, hroutes, hdst, regionChecks_pass hsrc, firstErr]
  · obtain ⟨hmember, hport, hsrc⟩ := hput hk
    simp [hk, hlen, hzero, hmember, Option.isNone_eq_false_iff.mpr hport, regionChecks_pass hsrc, firstErr]
  · obtain ⟨hmember, hport, hdst⟩ := hget hk
    simp [hk, hlen, hzero, hmember, Option.isNone_eq_false_iff.mpr hport, regionChecks_pass hdst, firstErr]

end

/-- What a MOVE is checked against stays while its command leaves the queue. -/
theorem moveChecks_unqueue (s : State) (r : Req) (op : Nat) (p : List Byte) : moveChecks (unqueue s r op) p = moveChecks s p := by
  obtain ⟨_, _, _, h⟩ := unqueue_only s r op
  rw [h]
  rfl

/-! ### Acceptance -/

/-- The move that an accepted MOVE is. -/
def acceptedMove (r : Req) (p : List Byte) : Move :=
  { r := r, kind := u8 p 0, member := u32 p 4, src := u64 p 8, dst := u64 p 16, len := u64 p 24,
    data := if u8 p 0 = 1 then p.drop 32 else [], done := 0, bad := false, tags := [] }

/-- The ports on which the pieces of a MOVE over Leash may leave. -/
def moveRoutes (s : State) (p : List Byte) : List Nat := if u8 p 0 = 3 then routesTo s (u32 p 4) else (bridgePort s).toList

/-- What an accepted MOVE begins. -/
def begunMove (s : State) (r : Req) (p : List Byte) : State :=
  if u8 p 0 < 3 then { s with moves := s.moves ++ [acceptedMove r p] } else startRemote s (acceptedMove r p) (moveRoutes s p)

/-- The row of a MOVE that passes its checks. -/
theorem exec_move {s : State} {r : Req} {p : List Byte} (hready : Ready s r 0x60 none none) (hpass : firstErr (moveChecks s p) = none) :
    exec (.move r p) s = .next (begunMove (hold (unqueue s r 0x60) r 0x60 none none) r p) := by
  rw [← moveChecks_unqueue s r 0x60] at hpass
  rw [moveChecks, ← List.append_assoc, moveRegionChecks, ← List.append_assoc, ← List.append_assoc] at hpass
  change execMove r p s = _
  rw [execMove, serve_ready hready]
  exact congrArg Host.Outcome.next (checked_pass hpass)

/-! ### The completion of a local MOVE -/

theorem findMove_r {s : State} {r : Req} {m : Move} (h : findMove s r = some m) : m.r = r := by
  simpa using List.find?_some h

/-- The move of a command has left its place. -/
def dropMove (s : State) (r : Req) : State := { s with moves := s.moves.filter (fun x => !(x.r == r)) }

/-- The bytes that a local MOVE carries, whether all could be read, and the state after the read. -/
def localBytes (s : State) (m : Move) : List Byte × Bool × State :=
  if m.kind = 1 then (m.data, true, s) else readPart s m.src m.len

/-- The bytes have been written, unless they leave with the reply, and the move is over. -/
def localMoved (s : State) (m : Move) : State :=
  dropMove (if m.kind = 2 then (localBytes s m).2.2 else writeHbm (localBytes s m).2.2 m.dst (localBytes s m).1) m.r

theorem exec_moveComplete {s : State} {r : Req} {m : Move} (hfind : findMove s r = some m) (hlocal : m.kind < 3) :
    exec (.moveComplete r) s = .next (reply (localMoved s m) r 0x60 (if (localBytes s m).2.1 then .ok else .dataError)
      (if (localBytes s m).2.1 then 0 else 0x0307)
      (leBytes 8 (localBytes s m).1.length ++ (if m.kind = 2 then (localBytes s m).1 else []))) := by
  have hrow : exec (.moveComplete r) s = .next (if (localBytes s m).2.1 then
      reply (localMoved s m) r 0x60 .ok 0 (leBytes 8 (localBytes s m).1.length ++ (if m.kind = 2 then (localBytes s m).1 else []))
      else reply (localMoved s m) r 0x60 .dataError 0x0307
        (leBytes 8 (localBytes s m).1.length ++ (if m.kind = 2 then (localBytes s m).1 else []))) := by
    change execMoveComplete r s = _
    rw [execMoveComplete, hfind]
    exact congrArg Host.Outcome.next (if_neg (Nat.not_le_of_lt hlocal))
  rw [hrow]
  split
  · rfl
  · rfl

/-- The read changes registers, the Trail and the write-backs that are due alone. -/
theorem localBytes_only (s : State) (m : Move) :
    ∃ x y z, (localBytes s m).2.2 = { s with regs := x, trail := y, writeBacks := z } := by
  unfold localBytes
  split
  · exact ⟨s.regs, s.trail, s.writeBacks, rfl⟩
  · exact readPart_only ..

theorem localMoved_keeps (s : State) (m : Move) :
    (localMoved s m).moves = s.moves.filter (fun x => !(x.r == m.r)) ∧ (localMoved s m).out = s.out := by
  obtain ⟨x, y, z, hread⟩ := localBytes_only s m
  unfold localMoved dropMove
  split
  · rw [hread]; exact ⟨rfl, rfl⟩
  · rw [writeHbm_moves, writeHbm_out, hread]; exact ⟨rfl, rfl⟩

theorem localMoved_reply {s : State} {m : Move} (hreply : m.kind = 2) :
    (localMoved s m).hbm = s.hbm ∧ (localMoved s m).marks = s.marks := by
  obtain ⟨x, y, z, hread⟩ := localBytes_only s m
  rw [localMoved, if_pos hreply, hread]
  exact ⟨rfl, rfl⟩

theorem localMoved_written {s : State} {m : Move} (hwrites : m.kind ≠ 2) : Written s (localMoved s m) m.dst (localBytes s m).1 := by
  obtain ⟨x, y, z, hread⟩ := localBytes_only s m
  rw [localMoved, if_neg hwrites]
  exact (writeHbm_written (localBytes s m).2.2 m.dst (localBytes s m).1).of_ctxView (by rw [hread]; rfl) rfl

/-! ### The pieces of a MOVE over Leash (12 R391) -/

theorem piecesOf_length (n : Nat) : (piecesOf n).length = (n + 4095) / 4096 := by simp [piecesOf]

/-- A fold that sends a message and notes a tag for each piece: it changes ports, output and join alone, and notes every piece. -/
theorem foldl_pieces {f : State × Move → Nat × Nat → State × Move}
    (hstate : ∀ acc p, ∃ x y z, (f acc p).1 = { acc.1 with ports := x, out := y, join := z })
    (hmove : ∀ acc p, ∃ t, (f acc p).2 = { acc.2 with tags := acc.2.tags ++ [(t, p)] }) (ps : List (Nat × Nat)) (acc : State × Move) :
    (∃ x y z, (ps.foldl f acc).1 = { acc.1 with ports := x, out := y, join := z }) ∧
    ∃ ts, (ps.foldl f acc).2 = { acc.2 with tags := acc.2.tags ++ ts } ∧ ts.map (·.2) = ps := by
  induction ps generalizing acc with
  | nil => exact ⟨⟨acc.1.ports, acc.1.out, acc.1.join, rfl⟩, [], by simp, rfl⟩
  | cons p ps ih =>
    obtain ⟨x, y, z, hsent⟩ := hstate acc p
    obtain ⟨t, hnoted⟩ := hmove acc p
    obtain ⟨⟨x', y', z', hall⟩, ts, htags, hps⟩ := ih (f acc p)
    rw [hsent] at hall
    rw [hnoted] at htags
    exact ⟨⟨x', y', z', hall⟩, (t, p) :: ts, by rw [List.foldl_cons, htags, List.append_assoc]; rfl, by rw [List.map_cons, hps]⟩

theorem sendPieces_pieces (s : State) (m : Move) (routes : List Nat) (ps : List (Nat × Nat)) :
    (∃ x y z, (sendPieces s m routes ps).1 = { s with ports := x, out := y, join := z }) ∧
    ∃ ts, (sendPieces s m routes ps).2 = { m with tags := m.tags ++ ts } ∧ ts.map (·.2) = ps := by
  refine foldl_pieces (fun acc p => ?_) (fun acc p => ⟨_, rfl⟩) ps (s, m)
  obtain ⟨x, y, hsent⟩ := sendMsg_only (newTag acc.1).2 (routes.getD (p.1 / 4096 % max 1 routes.length) 0) _
  exact ⟨x, y, _, hsent⟩

theorem finishIfDone_waits (s : State) {m : Move} (h : m.tags ≠ []) : finishIfDone s m = s :=
  if_neg (by simpa using h)

/-- A MOVE over Leash whose source can be read stands in progress, with a tag for each of its pieces. -/
theorem startRemote_pieces {s : State} {m : Move} (routes : List Nat) (hsome : 0 < m.len) (hnew : m.tags = [])
    (hread : m.kind ≠ 5 → (readPart s m.src m.len).2.1 = true) :
    ∃ v, (startRemote s m routes).moves = s.moves ++ [v] ∧ (startRemote s m routes).hbm = s.hbm ∧ v.r = m.r ∧ v.done = m.done ∧
      v.tags.map (·.2) = piecesOf m.len := by
  obtain ⟨bytes, u, hgot, hlen, hu⟩ : ∃ bytes u, (if m.kind = 5 then ([], true, s) else readPart s m.src m.len) = (bytes, true, u) ∧
      (if m.kind = 5 then m.len else bytes.length) = m.len ∧ (u.moves, u.hbm) = (s.moves, s.hbm) := by
    by_cases hfetch : m.kind = 5
    · exact ⟨[], s, if_pos hfetch, if_pos hfetch, rfl⟩
    · obtain ⟨_, _, _, honly⟩ := readPart_only s m.src m.len
      refine ⟨(readPart s m.src m.len).1, (readPart s m.src m.len).2.2, ?_, ?_, by rw [honly]⟩
      · rw [if_neg hfetch, ← hread hfetch]
      · rw [if_neg hfetch, readPart_length _ _ _ (hread hfetch)]
  have hrow : startRemote s m routes =
      finishIfDone { (sendPieces u { m with data := bytes, bad := false } routes (piecesOf m.len)).1 with
        moves := (sendPieces u { m with data := bytes, bad := false } routes (piecesOf m.len)).1.moves ++
          [(sendPieces u { m with data := bytes, bad := false } routes (piecesOf m.len)).2] }
        (sendPieces u { m with data := bytes, bad := false } routes (piecesOf m.len)).2 := by
    rw [startRemote, hgot, hlen]
    rfl
  have hsent := sendPieces_pieces u { m with data := bytes, bad := false } routes (piecesOf m.len)
  generalize sendPieces u { m with data := bytes, bad := false } routes (piecesOf m.len) = sent at hrow hsent
  obtain ⟨t, v⟩ := sent
  obtain ⟨⟨_, _, _, ht⟩, ts, hv, hps⟩ := hsent
  obtain rfl : t = _ := ht
  obtain rfl : v = _ := hv
  have hwaits : m.tags ++ ts ≠ [] := by
    rw [hnew]
    rintro rfl
    have hnone := congrArg List.length hps
    rw [piecesOf_length, List.map_nil, List.length_nil] at hnone
    omega
  rw [hrow, finishIfDone_waits _ hwaits]
  obtain ⟨hmoves, hhbm⟩ := Prod.mk.inj hu
  exact ⟨_, congrArg (· ++ _) hmoves, hhbm, rfl, rfl, by rw [hnew]; exact hps⟩

theorem readHbm_isSome (s : State) (a n : Nat) : (readHbm s a n).1.isSome = (readPart s a n).2.1 := by
  unfold readHbm
  dsimp only
  split
  · next h => rw [h]; rfl
  · next h => rw [Bool.eq_false_iff.mpr h]; rfl

end Sys2Proof.Machine

open Sys2Proof Sys2Proof.Machine

/-- Settles O37: an accepted MOVE passes its checks (`moveChecks_local`, `moveChecks_remote`) and takes its place (`exec_move`); the
completion of a local one (`exec_moveComplete`) writes what it read as every write of HBM does (`localMoved_written`); one over Leash
waits for the answers to its pieces (`startRemote_pieces`). -/
theorem movesCopyBytes : Obligations.MovesCopyBytes := by
  refine ⟨⟨?accepted, ?completed⟩, ?remote⟩
  case accepted =>
    intro s r p hready hfits
    refine ⟨_, acceptedMove r p, exec_move hready (moveChecks_local hfits), ?_⟩
    rw [begunMove, if_pos hfits.1]
    exact ⟨by simp, rfl, rfl, rfl, rfl, rfl, fun hinline => if_pos hinline, by simp, by simp⟩
  case completed =>
    intro s r m hfind hlocal got
    obtain ⟨hmoves, hout⟩ := localMoved_keeps s m
    rw [findMove_r hfind] at hmoves
    exact ⟨localMoved s m, exec_moveComplete hfind hlocal, hmoves, hout, localMoved_reply, localMoved_written⟩
  case remote =>
    intro s r p hready hfits hsome hread
    have hremote : ¬ u8 p 0 < 3 := Nat.not_lt_of_le hfits.1
    have hrow := exec_move hready (moveChecks_remote hfits)
    have hheld : u8 p 0 ≠ 5 → (readPart (hold (unqueue s r 0x60) r 0x60 none none) (u64 p 8) (u64 p 24)).2.1 = true := by
      intro hk
      rw [← readHbm_isSome, readHbm_congr (hold_hbm ..) (hold_marks ..), readHbm_isSome, hread hk]
    have hmoves : (hold (unqueue s r 0x60) r 0x60 none none).moves = s.moves := by simp
    have hhbm : (hold (unqueue s r 0x60) r 0x60 none none).hbm = s.hbm := by simp
    generalize hold (unqueue s r 0x60) r 0x60 none none = u at hrow hheld hmoves hhbm
    obtain ⟨v, hqueued, hkept, hr, hdone, hpieces⟩ := startRemote_pieces (m := acceptedMove r p) (moveRoutes u p) hsome rfl hheld
    rw [begunMove, if_neg hremote] at hrow
    refine ⟨_, v, hrow, hqueued.trans (by rw [hmoves]), hr, hdone, ?_, hpieces, hkept.trans hhbm⟩
    rw [← piecesOf_length, ← List.length_map (f := (·.2)), hpieces]
    rfl
end

section
/-!
PROOFS. Wake sources (11 R362, 15 R459, R461 to R463): the exit that a source begins, the pins and sensors that sources change, and
WAKE_ARM.
-/

namespace Sys2Proof.Machine

/-! ### What the training of ports leaves alone (12 R382, R400, 15 R464) -/

/-- A register that no due value names keeps its value over a boundary. -/
theorem regVal_applyHeld (s : State) {due : Nat → Bool} (mask : Nat → Nat) {a : Nat} (h : ∀ k, due k = true → a ≠ k / 4 * 4) :
    regVal (applyHeld s due mask) a = regVal s a := by
  refine List.foldlRecOn (motive := fun t => regVal t a = regVal s a) _ _ rfl (fun t ht e he => ?_)
  exact (regVal_setReg_other t _ (h e.1 (List.mem_filter.mp he).2)).trans ht

theorem applyHeld_power (s : State) (due : Nat → Bool) (mask : Nat → Nat) : (applyHeld s due mask).power = s.power :=
  each_keeps State.power (fun _ _ => setReg_power ..) _ _

theorem startTraining_power (s : State) (n : Nat) : (startTraining s n).power = s.power := by
  rw [startTraining, trainingBoundary, applyHeld_power, modPort_power]
  split
  · exact bump_power ..
  · rfl

/-- Training writes registers of the links alone. -/
theorem regVal_startTraining (s : State) (n : Nat) {a : Nat} (ha : a < 0x8000) : regVal (startTraining s n) a = regVal s a := by
  have hheld (k : Nat) (hk : (k == portReg n 0 + 1) = true) : a ≠ k / 4 * 4 := by
    rw [eq_of_beq hk, portReg]
    omega
  rw [startTraining, trainingBoundary, regVal_applyHeld _ _ hheld]
  split
  · exact regVal_bump_other s 1 (by unfold portReg; omega)
  · rfl

theorem startPorts_power (s : State) : (startPorts s).power = s.power := each_keeps State.power startTraining_power _ s

theorem regVal_startPorts (s : State) {a : Nat} (ha : a < 0x8000) : regVal (startPorts s) a = regVal s a :=
  each_keeps (regVal · a) (fun _ _ => regVal_startTraining _ _ ha) _ s

/-! ### The exit (15 R461, R464) -/

theorem markWake_power (s : State) (codes : List Nat) : (markWake s codes).power = s.power :=
  each_keeps State.power (fun _ _ => orReg_power ..) codes s

theorem beginExit_power (s : State) (code : Nat) :
    (beginExit s code).power = { s.power with exiting := true, wake := code, lastWake := code } := by
  unfold beginExit
  dsimp only
  split
  · rw [startPorts_power, markWake_power]
  · rw [markWake_power]

/-- The exit marks its source among the events. -/
theorem beginExit_event (s : State) {code : Nat} (hcode : code ≤ 32) : regBit (beginExit s code) 0x1004 (code - 1) = true := by
  have hmarked : regBit (markWake s [code]) 0x1004 (code - 1) = true := regBit_orReg_same s 0x1004 (by omega)
  unfold beginExit
  dsimp only
  split
  · rw [regBit, regVal_startPorts _ (by omega)]
    exact hmarked
  · exact hmarked

/-- A wake source begins the exit of a module that sleeps. -/
theorem wakeSource_asleep {s : State} (h : Asleep s) (code : Nat) (inWindow : Bool) : wakeSource s code inWindow = beginExit s code := by
  obtain ⟨hfatal, hentering, hrun, hexiting, -, -⟩ := h
  simp [wakeSource, hfatal, hentering, hrun, hexiting]

theorem exitBegun_beginExit (s : State) {code : Nat} (hcode : code ≤ 32) : ExitBegun s (beginExit s code) code := by
  have hpower := beginExit_power s code
  exact ⟨by rw [hpower], by rw [hpower], by rw [hpower], by rw [hpower], beginExit_event s hcode⟩

/-- The training of a port leaves an exit as it began. -/
theorem ExitBegun.startTraining {s t : State} {code : Nat} (h : ExitBegun s t code) (n : Nat) :
    ExitBegun s (startTraining t n) code := by
  simpa only [ExitBegun, startTraining_power, regBit, regVal_startTraining t n (show 0x1004 < 0x8000 by omega)] using h

/-- A wake source leaves the sensors and the level of WAKE_N. -/
theorem wakeSource_pins (s : State) (code : Nat) (inWindow : Bool) :
    (wakeSource s code inWindow).power.sensors = s.power.sensors ∧ (wakeSource s code inWindow).power.wakeN = s.power.wakeN := by
  unfold wakeSource
  split
  · exact ⟨rfl, rfl⟩
  · split
    · split
      · exact ⟨rfl, rfl⟩
      · split
        · dsimp only; rw [markWake_power]; exact ⟨rfl, rfl⟩
        · rw [markWake_power]; exact ⟨rfl, rfl⟩
    · split
      · exact ⟨rfl, rfl⟩
      · split
        · rw [markWake_power]; exact ⟨rfl, rfl⟩
        · rw [beginExit_power]; exact ⟨rfl, rfl⟩

/-! ### The rows of the sources -/

theorem exec_wakeNAssert {s : State} (hoff : s.power.phase ≠ .off) (hreset : s.power.phase ≠ .reset) :
    exec .wakeNAssert s = .next (wakeSource { s with power := { s.power with wakeN := true } } 4 false) := by
  change execWakeNAssert s = _
  unfold execWakeNAssert
  split
  · contradiction
  · contradiction
  · rfl

theorem exec_rtcAlarm {s : State} (halarm : alarmPresent s = true) : exec .rtcAlarm s = .next (wakeSource s 5 false) :=
  congrArg Host.Outcome.next (if_pos halarm)

theorem exec_thermalWake {n : Nat} (s : State) (temp : Int) (hn : n < 24) : exec (.thermalWake n temp) s =
    .next (if thermalPresent (setSensor s n temp) then wakeSource (setSensor s n temp) 6 false else setSensor s n temp) :=
  congrArg Host.Outcome.next (if_pos hn)

theorem sensor_setSensor (s : State) (n : Nat) (temp : Int) : sensor (setSensor s n temp) n = ⟨reading s n temp, true⟩ := by
  simp [sensor, setSensor, lookupD]

/-- Activity on a lane is a wake source, and may begin the training of its port. -/
theorem exec_leashActivity (s : State) {n lane : Nat} (inWindow : Bool) (hn : n < 4) (hlane : lane < 8) :
    exec (.leashActivity n lane inWindow) s = .next (wakeSource s 3 inWindow) ∨
    exec (.leashActivity n lane inWindow) s = .next (startTraining (wakeSource s 3 inWindow) n) := by
  change execLeashActivity n lane inWindow s = _ ∨ execLeashActivity n lane inWindow s = _
  rw [execLeashActivity, if_pos ⟨hn, hlane⟩]
  dsimp only
  split
  · exact .inr rfl
  · exact .inl rfl

/-- The row of WAKE_ARM with operands in range. -/
theorem exec_wakeArm {s : State} {r : Req} {p : List Byte} (hready : ReadyEarly s r 0x81 true true) (hlen : p.length = 16)
    (hzero : allZero (slice p 9 7) = true) (htherm : u8 p 8 ≤ 105) (halarm : u64 p 0 = 0 ∨ s.rtc < u64 p 0) :
    exec (.wakeArm r p) s = .next (reply { unqueue s r 0x81 with
      power := { (unqueue s r 0x81).power with alarm := w64 p 0, thermWake := u8 p 8 } } r 0x81 .ok 0 (leBytes 8 s.rtc)) := by
  have hpass : firstErr [(p.length != 16, badLength), (!allZero (slice p 9 7), badReserved),
      ((u64 p 0 != 0 && decide (u64 p 0 ≤ (unqueue s r 0x81).rtc)) || decide (105 < u8 p 8), badRange)] = none := by
    have hlate : (u64 p 0 != 0 && decide (u64 p 0 ≤ s.rtc)) = false := by
      rcases halarm with h | h
      · simp [h]
      · simp [h]
    rw [unqueue_rtc, hlate, decide_eq_false (Nat.not_lt_of_le htherm), hzero, hlen]
    rfl
  change execWakeArm r p s = _
  rw [execWakeArm, serveEarly_ready hready, ← unqueue_rtc s r 0x81]
  exact congrArg Host.Outcome.next (checked_pass hpass)

end Sys2Proof.Machine

open Sys2Proof Sys2Proof.Machine

/-- Settles O42: each source's row is a wake source (`exec_wakeNAssert`, `exec_rtcAlarm`, `exec_thermalWake`, `exec_leashActivity`), and a
wake source begins the exit of a sleeping module (`wakeSource_asleep`, `exitBegun_beginExit`); levels and sensors stay as the row took
them (`wakeSource_pins`). -/
theorem wakeSourcesBeginTheExit : Obligations.WakeSourcesBeginTheExit := by
  refine ⟨?wakeN, ?alarm, ?thermal, ?leash, fun _ => rfl, ?level, ?conversion, ?arm⟩
  case wakeN =>
    intro s hasleep
    have ⟨_, _, _, _, hoff, hreset⟩ := hasleep
    refine ⟨_, exec_wakeNAssert hoff hreset, ?_⟩
    rw [wakeSource_asleep (s := { s with power := { s.power with wakeN := true } }) hasleep]
    exact exitBegun_beginExit { s with power := { s.power with wakeN := true } } (by omega)
  case alarm =>
    intro s hasleep halarm
    refine ⟨_, exec_rtcAlarm halarm, ?_⟩
    rw [wakeSource_asleep hasleep]
    exact exitBegun_beginExit s (by omega)
  case thermal =>
    intro s n temp hasleep hn hpresent
    refine ⟨_, exec_thermalWake s temp hn, ?_⟩
    rw [if_pos hpresent, wakeSource_asleep (s := setSensor s n temp) hasleep]
    exact exitBegun_beginExit (setSensor s n temp) (by omega)
  case leash =>
    intro s n lane inWindow hasleep hn hlane
    have hbegun : ExitBegun s (wakeSource s 3 inWindow) 3 := by
      rw [wakeSource_asleep hasleep]
      exact exitBegun_beginExit s (by omega)
    rcases exec_leashActivity s inWindow hn hlane with hrow | hrow
    · exact ⟨_, hrow, hbegun⟩
    · exact ⟨_, hrow, hbegun.startTraining n⟩
  case level =>
    intro s hoff hreset
    exact ⟨_, exec_wakeNAssert hoff hreset, (wakeSource_pins ..).2⟩
  case conversion =>
    intro s n temp hn
    refine ⟨_, exec_thermalWake s temp hn, ?_⟩
    split
    · rw [← sensor_setSensor s n temp, sensor, (wakeSource_pins ..).1]
      rfl
    · exact sensor_setSensor s n temp
  case arm =>
    intro s r p hready hlen hzero htherm halarm
    exact exec_wakeArm hready hlen hzero htherm halarm
end

section
/-!
PROOFS. The Trail (11 R364, R366, 14 R439 to R445): freezing and thawing, the records that a read returns, and the records that are
written, spilled and closed.
-/

namespace Sys2Proof.Machine

/-! ### The ring stays under memory events (14 R420, R442) -/

theorem enqueueRec_ring (s : State) (x : Rec) : (enqueueRec s x).trail.ring = s.trail.ring := by
  unfold enqueueRec
  split
  · rfl
  · split
    · rw [bump_trail]
    · rfl

theorem endInterval_ring (s : State) (key : IntervalKey) : (endInterval s key).trail.ring = s.trail.ring := by
  unfold endInterval
  split
  · rfl
  · rw [enqueueRec_ring]

theorem coalesce_ring (s : State) (key : IntervalKey) (c v u : Nat) (d : List Byte) :
    (coalesce s key c v u d).trail.ring = s.trail.ring := by
  unfold coalesce
  split
  · rfl
  · split
    · rfl
    · exact endInterval_ring s key

theorem recordLast_trail (s : State) (u : MemUnit) (a k : Nat) : (recordLast s u a k).trail = s.trail := by
  rw [recordLast, setReg_trail, setReg_trail]

theorem memEvent_ring (s : State) (u : MemUnit) (a k : Nat) : (memEvent s u a k).trail.ring = s.trail.ring := by
  rw [memEvent, memTrail, coalesce_ring, recordLast_trail]

theorem corrected_ring (s : State) (u : MemUnit) (a : Nat) (first : Bool) : (corrected s u a first).trail.ring = s.trail.ring := by
  have hlast : ∀ t : State, (if first then recordLast t u (eventAddr u a) kindCorrected else t).trail = t.trail := by
    intro t
    split
    · exact recordLast_trail ..
    · rfl
  have hring : (memTrail (if first then recordLast (bump s 0x48014 1) u (eventAddr u a) kindCorrected else bump s 0x48014 1) u
      (eventAddr u a) kindCorrected).trail.ring = s.trail.ring :=
    (coalesce_ring ..).trans (by rw [hlast, bump_trail])
  unfold corrected
  dsimp only
  generalize memTrail _ u (eventAddr u a) kindCorrected = t at hring ⊢
  cases u with
  | other c k => exact hring
  | _ =>
    dsimp only
    split
    · exact hring
    · exact hring

theorem badRead_ring (s : State) (u : MemUnit) (a : Nat) (m : Option WordClass) : (badRead s u a m).trail.ring = s.trail.ring := by
  unfold badRead
  dsimp only
  split
  · rw [memEvent_ring, bump_trail]
  · rw [memEvent_ring, bump_trail]
  · rw [memEvent_ring, bump_trail, bump_trail]
  · rw [memEvent_ring, bump_trail]

theorem readWords_ring (n w : Nat) (cells : List Host.Cell) (last : Nat) (s : State) :
    (readWords n w cells last s).2.2.trail.ring = s.trail.ring := by
  induction n generalizing w cells last s with
  | zero => rfl
  | succ n ih =>
    simp only [readWords]
    split
    · rw [ih]
      split
      · rfl
      · exact corrected_ring ..
    · exact badRead_ring ..

theorem readHbm_ring (s : State) (a n : Nat) : (readHbm s a n).2.trail.ring = s.trail.ring := by
  unfold readHbm readPart
  split
  · rfl
  · exact readWords_ring ..

/-! ### TRAIL_FREEZE and TRAIL_THAW (14 R444) -/

/-- A freeze discards what waits and counts it as missed. -/
theorem freeze_trail {s : State} (h : s.trail.frozen = false) : (freeze s).trail = { s.trail with
    frozen := true, waiting := [], missed := min (s.trail.missed + s.trail.waiting.length) 0xFFFFFFFF } := by
  simp [freeze, h, Trail.miss]

/-- A freeze leaves the records held as they are. -/
theorem freeze_held (s : State) : (freeze s).trail.head = s.trail.head ∧ (freeze s).trail.oldest = s.trail.oldest := by
  unfold freeze
  split
  · exact ⟨rfl, rfl⟩
  · exact ⟨rfl, rfl⟩

theorem exec_trailFreeze {s : State} {r : Req} (hready : ReadyEarly s r 0x90 true true) : exec (.trailFreeze r []) s =
    .next (reply (freeze (unqueue s r 0x90)) r 0x90 .ok 0 (leBytes 8 s.trail.head ++ leBytes 8 s.trail.oldest)) := by
  obtain ⟨hhead, holdest⟩ := freeze_held (unqueue s r 0x90)
  change execTrailFreeze r [] s = _
  rw [execTrailFreeze, serveEarly_ready hready]
  rw [checked_pass (by rfl)]
  dsimp only
  rw [hhead, holdest, unqueue_trail]

theorem exec_trailThaw {s : State} {r : Req} (hready : ReadyEarly s r 0x92 true true) : exec (.trailThaw r []) s =
    .next (reply (thaw (unqueue s r 0x92)) r 0x92 .ok 0 (leBytes 4 (if s.trail.frozen then s.trail.missed else 0))) := by
  change execTrailThaw r [] s = _
  rw [execTrailThaw, serveEarly_ready hready]
  rw [checked_pass (by rfl), unqueue_trail]

/-- The record that a thaw leaves. -/
def thawRec (s : State) : Rec := newRec s 0x0800 0 unitHandler 0 s.trail.missed false []

theorem thaw_trail {s : State} (h : s.trail.frozen = true) (hwaiting : s.trail.waiting = []) :
    (thaw s).trail = { s.trail with frozen := false, missed := 0, waiting := [thawRec s] } := by
  simp [thaw, h, enqueueRec, hwaiting, thawRec, newRec, trailTime]

/-! ### TRAIL_READ (11 R366, 14 R440) -/

theorem bytes_length (x : Rec) : x.bytes.length = 64 := by
  simp [Rec.bytes, leBytes_length, fit_length, zeros]

theorem recordAt_length (s : State) (seq : Nat) : (recordAt s seq).1.length = 64 := by
  unfold recordAt
  split
  · split
    · exact bytes_length _
    · rfl
  · cases h : (readHbm s (spillAddr seq) 64).1 with
    | none => simp [h, zeros]
    | some bs => simp [h, readHbm_length h]

theorem recordAt_ring (s : State) (seq : Nat) : (recordAt s seq).2.trail.ring = s.trail.ring := by
  unfold recordAt
  split
  · split
    · rfl
    · rfl
  · exact readHbm_ring ..

/-- A record of the ring is returned as it is. -/
theorem recordAt_held {s : State} {seq : Nat} {x : Rec} (hheld : s.trail.ringFirst ≤ seq)
    (hx : s.trail.ring.find? (fun y => y.seq == seq) = some x) : (recordAt s seq).1 = x.bytes := by
  rw [recordAt, if_pos hheld, hx]

theorem recordsFrom_length (n seq : Nat) (s : State) : (recordsFrom n seq s).1.length = 64 * n := by
  induction n generalizing seq s with
  | zero => rfl
  | succ n ih =>
    simp only [recordsFrom, List.length_append, recordAt_length, ih]
    omega

theorem recordsFrom_ring (n seq : Nat) (s : State) : (recordsFrom n seq s).2.trail.ring = s.trail.ring := by
  induction n generalizing seq s with
  | zero => rfl
  | succ n ih => exact (ih ..).trans (recordAt_ring ..)

/-- The first record that a read returns is the one it names. -/
theorem recordsFrom_take {n : Nat} (hn : 1 ≤ n) (seq : Nat) (s : State) : (recordsFrom n seq s).1.take 64 = (recordAt s seq).1 := by
  obtain ⟨n, rfl⟩ := Nat.exists_eq_add_of_le' hn
  exact List.take_left' (recordAt_length s seq)

theorem exec_trailRead {s : State} {r : Req} {p : List Byte} (hready : ReadyEarly s r 0x91 (trailOnDie s p) (trailOnDie s p))
    (hlen : p.length = 16) (hzero : allZero (slice p 10 6) = true) (hmin : 1 ≤ u16 p 8) (hmax : u16 p 8 ≤ 127)
    (hfrozen : s.trail.frozen = true) (hsome : s.trail.oldest ≠ 0) (hfirst : s.trail.oldest ≤ u64 p 0)
    (hlast : u64 p 0 + u16 p 8 ≤ s.trail.head + 1) : exec (.trailRead r p) s =
      .next (reply (recordsFrom (u16 p 8) (u64 p 0) (unqueue s r 0x91)).2 r 0x91 .ok 0
        (recordsFrom (u16 p 8) (u64 p 0) (unqueue s r 0x91)).1) := by
  have hpass : firstErr [(p.length != 16, badLength), (!allZero (slice p 10 6), badReserved),
      (decide (u16 p 8 < 1 ∨ 127 < u16 p 8), badRange),
      (decide ((unqueue s r 0x91).trail.oldest = 0 ∨ u64 p 0 < (unqueue s r 0x91).trail.oldest ∨
        (unqueue s r 0x91).trail.head < u64 p 0 + u16 p 8 - 1), (.badParam, 0x0371)),
      (!(unqueue s r 0x91).trail.frozen, (.notReady, 0x0370))] = none := by
    rw [unqueue_trail, decide_eq_false (p := u16 p 8 < 1 ∨ 127 < u16 p 8) (by omega), decide_eq_false (by omega), hfrozen, hzero, hlen]
    rfl
  change execTrailRead r p s = _
  rw [execTrailRead, serveEarly_ready hready]
  exact congrArg Host.Outcome.next (checked_pass hpass)

/-! ### TRAIL_RECORD_WRITE (14 R439, R443) -/

/-- An event leaves the ones that wait. -/
def withWaiting (s : State) (ws : List Rec) : State := { s with trail := { s.trail with waiting := ws } }

theorem exec_trailRecordWrite {s : State} {ws : List Rec} {x : Rec} (hthawed : s.trail.frozen = false)
    (hwaiting : s.trail.waiting = ws ++ [x]) : exec .trailRecordWrite s = .next (writeRec (withWaiting s ws) x) := by
  change execTrailRecordWrite s = _
  rw [execTrailRecordWrite, nextWaiting, hwaiting, List.getLast?_concat, List.dropLast_concat]
  exact congrArg Host.Outcome.next (if_neg (by rw [hthawed]; exact Bool.false_ne_true))

theorem writeRec_room {s : State} (x : Rec) (hroom : s.trail.ring.length < 4096) : writeRec s x = { s with trail := { s.trail with
    head := s.trail.head + 1, ring := { x with seq := s.trail.head + 1 } :: s.trail.ring } } := by
  unfold writeRec
  dsimp only
  rw [if_neg (fun h => absurd h.1 (Nat.not_le_of_lt hroom)), List.take_of_length_le (by rw [List.length_cons]; omega)]

theorem writeRec_full {s : State} (x : Rec) (hfull : 4096 ≤ s.trail.ring.length) (hwait : 4096 ≤ s.trail.unspilled)
    (hspill : regBit s 0x3000 0 = true) : writeRec s x = bump s 0x301C 1 :=
  if_pos ⟨hfull, hspill, hwait⟩

/-! ### TRAIL_SPILL (14 R439, R445) -/

/-- A write of whole words writes nothing at its edges. -/
theorem writeHbm_whole (s : State) {a : Nat} {bs : List Byte} (ha : a % 8 = 0) (hlen : bs.length % 8 = 0) :
    writeHbm s a bs = writeWords s a bs := by
  have hedge (t : State) (b : Nat) : narrowWrite t b [] = t := rfl
  have hall : bs.length / 8 * 8 = bs.length := by omega
  unfold writeHbm
  simp [ha, hall, hedge]

theorem spillAddr_range (seq : Nat) :
    spillAddr seq % 64 = 0 ∧ spillBase ≤ spillAddr seq ∧ spillAddr seq + 64 ≤ spillBase + spillSize := by
  unfold spillAddr spillBase spillSize
  omega

/-- A record is copied into its place of the spill region. -/
def spillRec (s : State) (x : Rec) : State := writeHbm s (spillAddr x.seq) x.bytes

theorem spillRec_trail (s : State) (x : Rec) : (spillRec s x).trail = s.trail := by
  obtain ⟨_, _, _, h⟩ := writeWords_only s (spillAddr x.seq) x.bytes
  have := spillAddr_range x.seq
  rw [spillRec, writeHbm_whole s (by omega) (by rw [bytes_length]), h]

theorem peek_spillRec_in (s : State) (x : Rec) {k : Nat} (hk : k < 64) : peek (spillRec s x) (spillAddr x.seq + k) = x.bytes[k]? := by
  have := spillAddr_range x.seq
  obtain ⟨hin, -⟩ := writeWords_peek s (spillAddr x.seq) x.bytes (by omega) (by rw [bytes_length])
  rw [spillRec, writeHbm_whole s (by omega) (by rw [bytes_length])]
  exact hin k (by rw [bytes_length]; exact hk)

theorem peek_spillRec_out (s : State) (x : Rec) {b : Nat} (hb : b < spillAddr x.seq ∨ spillAddr x.seq + 64 ≤ b) :
    peek (spillRec s x) b = peek s b := by
  obtain ⟨-, hout⟩ := writeHbm_written s (spillAddr x.seq) x.bytes
  exact hout b (by rw [bytes_length]; exact hb)

/-- Records copied outside a byte leave it. -/
theorem peek_spilled_out {b : Nat} (xs : List Rec) (s : State) (hb : ∀ x ∈ xs, b < spillAddr x.seq ∨ spillAddr x.seq + 64 ≤ b) :
    peek (each xs s spillRec) b = peek s b :=
  List.foldlRecOn (motive := fun t => peek t b = peek s b) xs spillRec rfl
    (fun t ht x hx => (peek_spillRec_out t x (hb x hx)).trans ht)

/-- Records with places of their own all stand in them once they are copied. -/
theorem peek_spilled_in {xs : List Rec} (hplaces : xs.Pairwise (fun x y => spillAddr x.seq ≠ spillAddr y.seq)) (s : State) {x : Rec}
    (hx : x ∈ xs) {k : Nat} (hk : k < 64) : peek (each xs s spillRec) (spillAddr x.seq + k) = x.bytes[k]? := by
  induction xs generalizing s with
  | nil => exact absurd hx List.not_mem_nil
  | cons y ys ih =>
    obtain ⟨hfirst, hrest⟩ := List.pairwise_cons.mp hplaces
    rcases List.mem_cons.mp hx with rfl | hlater
    · refine (peek_spilled_out ys (spillRec s x) (fun y hy => ?_)).trans (peek_spillRec_in s x hk)
      have := hfirst y hy
      have := spillAddr_range x.seq
      have := spillAddr_range y.seq
      omega
    · exact ih hrest (spillRec s y) hlater

/-- The records of the ring that wait to be spilled, oldest first. -/
def spillDue (s : State) : List Rec := (s.trail.ring.filter (fun x => s.trail.spilled < x.seq)).reverse

theorem exec_trailSpill {s : State} (hspill : regBit s 0x3000 0 = true) (hthawed : s.trail.frozen = false) (hhbm : hbmState s = 2) :
    exec .trailSpill s = .next { each (spillDue s) s spillRec with trail := { s.trail with spilled := s.trail.head } } := by
  have htrail : (each (spillDue s) s spillRec).trail = s.trail := each_keeps State.trail spillRec_trail _ s
  have hrow : exec .trailSpill s = .next { each (spillDue s) s spillRec with
      trail := { (each (spillDue s) s spillRec).trail with spilled := (each (spillDue s) s spillRec).trail.head } } :=
    congrArg Host.Outcome.next (if_pos (by rw [hspill, hthawed, hhbm]; rfl))
  rw [hrow, htrail]

/-! ### TRAIL_INTERVAL_END (14 R442) -/

theorem exec_trailIntervalEnd {s : State} {key : IntervalKey} {i : Interval}
    (hfind : s.trail.intervals.find? (fun j => j.key == key) = some i) (hended : ended s i.opened (intervalMs key) = true)
    (hthawed : s.trail.frozen = false) (hroom : s.trail.waiting.length < 64) :
    exec (.trailIntervalEnd key) s = .next { s with trail := { s.trail with
      intervals := s.trail.intervals.filter (fun j => !(j.key == key)), waiting := { i.first with count := i.count } :: s.trail.waiting } } := by
  change execTrailIntervalEnd key s = _
  rw [execTrailIntervalEnd, hfind]
  simp [hended, endInterval, hfind, enqueueRec, hthawed, Interval.record, Nat.not_le_of_lt hroom]

end Sys2Proof.Machine

open Sys2Proof Sys2Proof.Machine

/-- Settles O47: what a freeze and a thaw leave (`freeze_trail`, `thaw_trail`), the records that a read returns (`exec_trailRead`,
`recordsFrom_length`), and the records that are written (`writeRec_room`, `writeRec_full`), spilled (`exec_trailSpill`,
`peek_spilled_in`) and closed (`exec_trailIntervalEnd`). -/
theorem trailKeepsItsRecords : Obligations.TrailKeepsItsRecords := by
  refine ⟨⟨?freezes, ?thaws, ?thawed, ?reads⟩, ?writes, ?spills, ?closes⟩
  case freezes =>
    intro s r hready hthawed
    refine ⟨_, exec_trailFreeze hready, ?_⟩
    rw [freeze_trail (by rw [unqueue_trail, hthawed]), unqueue_trail]
  case thaws =>
    intro s r hready hfrozen hwaiting
    refine ⟨_, thawRec (unqueue s r 0x92), (exec_trailThaw hready).trans (by rw [hfrozen]; rfl), ?_, rfl, ?_⟩
    · rw [thaw_trail (by rw [unqueue_trail, hfrozen]) (by rw [unqueue_trail, hwaiting]), unqueue_trail]
    · rw [thawRec, newRec, unqueue_trail]
  case thawed =>
    intro s r hready hthawed
    rw [exec_trailThaw hready, thaw, if_neg (by rw [unqueue_trail, hthawed]; exact Bool.false_ne_true), hthawed]
    rfl
  case reads =>
    intro s r p hready hlen hzero hmin hmax hfrozen hsome hfirst hlast got
    refine ⟨exec_trailRead hready hlen hzero hmin hmax hfrozen hsome hfirst hlast, recordsFrom_length .., ?_, fun x hheld hx => ?_⟩
    · exact (recordsFrom_ring ..).trans (by rw [unqueue_trail])
    · rw [← unqueue_trail s r 0x91] at hheld hx
      exact (recordsFrom_take hmin ..).trans (recordAt_held hheld hx)
  case writes =>
    intro s ws x hthawed hwaiting
    refine ⟨fun hroom => ?_, fun hfull hwait hspill => ⟨_, exec_trailRecordWrite hthawed hwaiting, ?_, ?_⟩⟩
    · exact (exec_trailRecordWrite hthawed hwaiting).trans (congrArg Host.Outcome.next (writeRec_room (s := withWaiting s ws) x hroom))
    · rw [writeRec_full (s := withWaiting s ws) x hfull hwait hspill, bump_trail]
      rfl
    · rw [writeRec_full (s := withWaiting s ws) x hfull hwait hspill, regVal_bump_same]
      rfl
  case spills =>
    intro s hspill hthawed hhbm
    refine ⟨_, exec_trailSpill hspill hthawed hhbm, rfl, fun a ha => ?_, ?_⟩
    · refine peek_spilled_out (spillDue s) s (fun x _ => ?_)
      have := spillAddr_range x.seq
      omega
    · intro xs hplaces x hx k hk
      exact peek_spilled_in (List.pairwise_reverse.mpr (hplaces.imp Ne.symm)) s (List.mem_reverse.mpr hx) hk
  case closes =>
    intro s key i hfind hended hthawed hroom
    exact exec_trailIntervalEnd hfind hended hthawed hroom
end

section
/-!
PROOFS. The privileged commands (16 R483 to R494): what the judgment of a token leaves, and what each command does once its token has
been judged.
-/

namespace Sys2Proof.Machine

/-! ### Judging a token (16 R485, R486, R497) -/

/-- Reading a token, and judging it, may renew the challenge; what the privileged commands act on stays. -/
structure PrivilegedKept (s t : State) : Prop where
  otp : t.sec.otp = s.sec.otp
  slotA : t.sec.slotA = s.sec.slotA
  slotB : t.sec.slotB = s.sec.slotB
  bootB : t.sec.bootB = s.sec.bootB
  staged : t.sec.staged = s.sec.staged
  features : t.sec.debug = s.sec.debug
  power : t.power = s.power
  faults : t.faults = s.faults

theorem PrivilegedKept.trans {s t u : State} (h : PrivilegedKept s t) (g : PrivilegedKept t u) : PrivilegedKept s u :=
  ⟨g.otp.trans h.otp, g.slotA.trans h.slotA, g.slotB.trans h.slotB, g.bootB.trans h.bootB, g.staged.trans h.staged,
    g.features.trans h.features, g.power.trans h.power, g.faults.trans h.faults⟩

/-- A state with the same security, power and faults. -/
theorem PrivilegedKept.of_eq {s t : State} (hsec : t.sec = s.sec) (hpower : t.power = s.power) (hfaults : t.faults = s.faults) :
    PrivilegedKept s t := by
  constructor <;> simp only [hsec, hpower, hfaults]

theorem privilegedKept_drawChallenge (s : State) : PrivilegedKept s (drawChallenge s) := by
  unfold drawChallenge
  dsimp only
  split
  · exact .of_eq rfl rfl rfl
  · split
    · constructor <;> rfl
    · exact .of_eq rfl rfl rfl

theorem privilegedKept_renewChallenge (s : State) : PrivilegedKept s (renewChallenge s) :=
  .trans (t := { s with sec := { s.sec with challenge := none } }) (by constructor <;> rfl) (privilegedKept_drawChallenge _)

theorem privilegedKept_event (s : State) (c v u x : Nat) (d : List Byte) : PrivilegedKept s (event s c v u x d) :=
  .of_eq (event_sec ..) (event_power ..) (event_faults ..)

theorem privilegedKept_judgeToken (s : State) (token : List Byte) (u : TokenUse) : PrivilegedKept s (judgeToken s token u).2 := by
  unfold judgeToken
  split
  · dsimp only
    split
    · exact (privilegedKept_event ..).trans (privilegedKept_renewChallenge _)
    · exact privilegedKept_event ..
  · exact (privilegedKept_event ..).trans (privilegedKept_renewChallenge _)

theorem privilegedKept_readHbm (s : State) (a n : Nat) : PrivilegedKept s (readHbm s a n).2 :=
  .of_eq (readHbm_sec ..) (readHbm_power ..) (readHbm_faults ..)

theorem privilegedKept_readToken (s : State) (a : Nat) : PrivilegedKept s (readToken s a).2 := by
  unfold readToken
  dsimp only
  split
  · exact privilegedKept_readHbm ..
  · split
    · exact (privilegedKept_readHbm ..).trans (privilegedKept_readHbm ..)
    · exact privilegedKept_readHbm ..

theorem privilegedKept_tokenRead {s v : State} {a : Nat} {region : Option (Nat × Nat)} {token bytes : List Byte}
    (h : TokenRead s a region token bytes v) : PrivilegedKept s v := by
  obtain ⟨w, htoken, hdata⟩ := h
  have hw : PrivilegedKept s w := by simpa [htoken] using privilegedKept_readToken s a
  cases region with
  | none =>
    obtain ⟨-, rfl⟩ := Prod.mk.inj hdata
    exact hw
  | some d =>
    have hv : PrivilegedKept w v := by
      have := privilegedKept_readHbm w d.1 d.2
      rwa [show readHbm w d.1 d.2 = (some bytes, v) from hdata] at this
    exact hw.trans hv

/-- What a privileged command acts on once its token has been judged is what it was when the command left its queue. -/
theorem privilegedKept_judged {s v : State} {a : Nat} {region : Option (Nat × Nat)} {token bytes : List Byte}
    (h : TokenRead s a region token bytes v) (u : TokenUse) : PrivilegedKept s (judgeToken v token u).2 :=
  (privilegedKept_tokenRead h).trans (privilegedKept_judgeToken v token u)

/-- What a token is presented for. -/
def useOf (op arg : Nat) (region : Option (Nat × Nat)) (bytes : List Byte) : TokenUse :=
  ⟨op, arg, if region.isSome then sha384 bytes else zeros 48⟩

/-- A command whose token and data have been read runs when the token is accepted, and is denied when it is not. -/
theorem withToken_read {s v : State} {a : Nat} {region : Option (Nat × Nat)} {token bytes : List Byte}
    (h : TokenRead s a region token bytes v) (r : Req) (op arg : Nat) (ok : State → List Byte → State) :
    withToken s r op a arg region ok =
      if (judgeToken v token (useOf op arg region bytes)).1 then ok (judgeToken v token (useOf op arg region bytes)).2 bytes
      else reply (judgeToken v token (useOf op arg region bytes)).2 r op .accessDenied 0x0390 := by
  obtain ⟨w, htoken, hdata⟩ := h
  cases region with
  | none =>
    obtain ⟨hbytes, rfl⟩ := Prod.mk.inj hdata
    obtain rfl := Option.some.inj hbytes
    simp only [withToken, htoken]
    rfl
  | some d =>
    have hread : readHbm w d.1 d.2 = (some bytes, v) := hdata
    simp only [withToken, htoken, hread]
    rfl

theorem tokenRegion_pass {s : State} {a : Nat} (h : RegionOk s a 392 64 false) : firstErr (tokenRegion s a) = none :=
  regionChecks_pass h

/-- The checks of a region look at the memory map alone. -/
theorem RegionOk.unqueue {s : State} {a n align : Nat} {write : Bool} (h : RegionOk s a n align write) (r : Req) (op : Nat) :
    RegionOk (unqueue s r op) a n align write := by
  obtain ⟨x, y, z, e⟩ := unqueue_only s r op
  rw [e]
  exact h

/-! ### FW_STAGE (16 R483) -/

/-- FW_STAGE clears STAGED before it does anything else. -/
def unstaged (s : State) : State := { s with sec := { s.sec with staged := false } }

theorem RegionOk.unstaged {s : State} {a n align : Nat} {write : Bool} (h : RegionOk s a n align write) :
    RegionOk (unstaged s) a n align write := h

/-- An FW_STAGE whose token has been accepted. -/
def stageAccepted (r : Req) (s : State) (img : List Byte) : State :=
  if !imageOk s.sec.otp img then reply s r 0xE0 .badParam 0x0392
  else if imageVersion img < s.sec.otp.rollback then reply s r 0xE0 .accessDenied 0x0391
  else reply (stageImage s img) r 0xE0 .ok

theorem exec_fwStage {s v : State} {r : Req} {p token img : List Byte} (hready : Ready s r 0xE0 none none) (hlen : p.length = 24)
    (hmax : u64 p 16 ≤ maxImage) (htoken : RegionOk s (u64 p 0) 392 64 false) (himage : RegionOk s (u64 p 8) (u64 p 16) 64 false)
    (hread : TokenRead (unstaged (unqueue s r 0xE0)) (u64 p 0) (some (u64 p 8, u64 p 16)) token img v) :
    exec (.fwStage r p) s = .next (
      if (judgeToken v token ⟨0xE0, 0, sha384 img⟩).1 then stageAccepted r (judgeToken v token ⟨0xE0, 0, sha384 img⟩).2 img
      else reply (judgeToken v token ⟨0xE0, 0, sha384 img⟩).2 r 0xE0 .accessDenied 0x0390) := by
  have hpass : firstErr ([(p.length != 24, badLength), (decide (maxImage < u64 p 16), badRange)] ++
      tokenRegion (unstaged (unqueue s r 0xE0)) (u64 p 0) ++
      regionChecks (unstaged (unqueue s r 0xE0)) (u64 p 8) (u64 p 16) 64 false) = none := by
    rw [firstErr_append, firstErr_append, tokenRegion_pass (htoken.unqueue r 0xE0).unstaged,
      regionChecks_pass (himage.unqueue r 0xE0).unstaged]
    simp [firstErr_cons, firstErr, hlen, Nat.not_lt.mpr hmax]
  change execFwStage r p s = _
  rw [execFwStage, serve_ready hready]
  exact congrArg Host.Outcome.next ((checked_pass hpass).trans (withToken_read hread r 0xE0 0 (stageAccepted r)))

theorem stageAccepted_ok {s : State} {img : List Byte} (r : Req) (hok : imageOk s.sec.otp img = true)
    (hversion : s.sec.otp.rollback ≤ imageVersion img) : stageAccepted r s img = reply (stageImage s img) r 0xE0 .ok := by
  rw [stageAccepted, hok, if_neg (by decide), if_neg (Nat.not_lt.mpr hversion)]

theorem stageImage_staged (s : State) (img : List Byte) : (stageImage s img).sec.staged = true := by
  unfold stageImage
  split
  · rfl
  · rfl

/-- The slot that did not boot takes the image, the other keeps its own. -/
theorem stageImage_slots (s : State) (img : List Byte) :
    if s.sec.bootB then (stageImage s img).sec.slotA = img ∧ (stageImage s img).sec.slotB = s.sec.slotB
    else (stageImage s img).sec.slotB = img ∧ (stageImage s img).sec.slotA = s.sec.slotA := by
  unfold stageImage
  split
  · exact ⟨rfl, rfl⟩
  · exact ⟨rfl, rfl⟩

/-! ### FW_ACTIVATE (16 R483) -/

/-- The staged slot boots at the next reset, which MODE 1 begins. -/
def activated (r : Req) (mode : Nat) (s : State) : State :=
  let t := reply { s with sec := { s.sec with activate := true } } r 0xE1 .ok
  if mode = 1 then { t with power := { t.power with resetDue := some 2 } } else t

/-- An FW_ACTIVATE whose token has been accepted. -/
def activateAccepted (r : Req) (mode : Nat) (s : State) (_ : List Byte) : State :=
  if !s.sec.staged then reply s r 0xE1 .notReady 0x0393
  else if mode = 1 ∧ workInProgress s then reply s r 0xE1 .contextBusy 0x0360
  else activated r mode s

theorem exec_fwActivate {s v : State} {r : Req} {p token : List Byte} (hready : Ready s r 0xE1 none none) (hlen : p.length = 16)
    (hzero : allZero (slice p 9 7) = true) (hmode : u8 p 8 ≤ 1) (htoken : RegionOk s (u64 p 0) 392 64 false)
    (hread : TokenRead (unqueue s r 0xE1) (u64 p 0) none token [] v) :
    exec (.fwActivate r p) s = .next (
      if (judgeToken v token ⟨0xE1, u8 p 8, zeros 48⟩).1 then
        activateAccepted r (u8 p 8) (judgeToken v token ⟨0xE1, u8 p 8, zeros 48⟩).2 []
      else reply (judgeToken v token ⟨0xE1, u8 p 8, zeros 48⟩).2 r 0xE1 .accessDenied 0x0390) := by
  have hpass : firstErr ([(p.length != 16, badLength), (!allZero (slice p 9 7), badReserved), (decide (1 < u8 p 8), badRange)] ++
      tokenRegion (unqueue s r 0xE1) (u64 p 0)) = none := by
    rw [firstErr_append, tokenRegion_pass (htoken.unqueue r 0xE1)]
    simp [firstErr_cons, firstErr, hlen, hzero, Nat.not_lt.mpr hmode]
  change execFwActivate r p s = _
  rw [execFwActivate, serve_ready hready]
  exact congrArg Host.Outcome.next ((checked_pass hpass).trans (withToken_read hread r 0xE1 (u8 p 8) (activateAccepted r (u8 p 8))))

theorem activateAccepted_ok {s : State} (r : Req) {mode : Nat} (bs : List Byte) (hstaged : s.sec.staged = true)
    (hidle : mode = 1 → workInProgress s = false) : activateAccepted r mode s bs = activated r mode s := by
  rw [activateAccepted, hstaged, if_neg (by decide), if_neg (by rintro ⟨hmode, hwork⟩; rw [hidle hmode] at hwork; cases hwork)]

theorem activated_activate (r : Req) (mode : Nat) (s : State) : (activated r mode s).sec.activate = true := by
  unfold activated
  dsimp only
  split
  · rw [reply_sec]
  · rw [reply_sec]

theorem activated_resetDue (r : Req) (mode : Nat) (s : State) :
    (activated r mode s).power.resetDue = if mode = 1 then some 2 else s.power.resetDue := by
  unfold activated
  dsimp only
  split
  · rfl
  · rw [reply_power]

/-! ### OTP_PROGRAM (16 R489) -/

/-- A fence generation that is due is written before the field. -/
def fenceFirst (s : State) : State :=
  if s.faults.otpPending.isSome ∧ gensUsed s.sec.otp < 4 then fenceOtpWritten s false else s

/-- OTP_PROGRAM of FIELD 0x20 blows DEBUG_DISABLE. -/
def debugDisabled (r : Req) (f : Nat) (s : State) : State :=
  reply (event { s with sec := { s.sec with otp := { s.sec.otp with debugDisable := true } } } 0x0A05 0 unitSecurity 0
    (leBytes 2 f ++ [0, 0])) r 0xE2 .ok

/-- OTP_PROGRAM of another FIELD writes the next generation. -/
def generationProgrammed (r : Req) (f : Nat) (d : List Byte) (s : State) : State :=
  reply (event { s with sec := { s.sec with otp := writeGeneration s.sec.otp false (applyField f d) } } 0x0A05 0 unitSecurity 0
    (leBytes 2 f ++ leBytes 1 (gensUsed s.sec.otp + 1) ++ [0])) r 0xE2 .ok

/-- An OTP_PROGRAM whose token has been accepted. -/
def programAccepted (r : Req) (f : Nat) (s : State) (d : List Byte) : State :=
  let t := fenceFirst s
  if !fieldValueOk f d then reply t r 0xE2 .badParam 0x0306
  else if f = 0x20 then if t.sec.otp.debugDisable then reply t r 0xE2 .badParam 0x0394 else debugDisabled r f t
  else if 4 ≤ gensUsed t.sec.otp then reply t r 0xE2 .badParam 0x0394 else generationProgrammed r f d t

theorem exec_otpProgram {s v : State} {r : Req} {p token d : List Byte} {len : Nat} (hready : Ready s r 0xE2 none none)
    (hlen : p.length = 24) (hzero : allZero (slice p 10 6) = true) (hfield : fieldLength (u16 p 8) = some len)
    (htoken : RegionOk s (u64 p 0) 392 64 false) (hdata : RegionOk s (u64 p 16) len 64 false)
    (hread : TokenRead (unqueue s r 0xE2) (u64 p 0) (some (u64 p 16, len)) token d v) :
    exec (.otpProgram r p) s = .next (
      if (judgeToken v token ⟨0xE2, u16 p 8, sha384 d⟩).1 then
        programAccepted r (u16 p 8) (judgeToken v token ⟨0xE2, u16 p 8, sha384 d⟩).2 d
      else reply (judgeToken v token ⟨0xE2, u16 p 8, sha384 d⟩).2 r 0xE2 .accessDenied 0x0390) := by
  have hpass : firstErr ([(p.length != 24, badLength), (!allZero (slice p 10 6), badReserved),
      ((fieldLength (u16 p 8)).isNone, .badParam, 0x0394)] ++ tokenRegion (unqueue s r 0xE2) (u64 p 0) ++
      regionChecks (unqueue s r 0xE2) (u64 p 16) len 64 false) = none := by
    rw [firstErr_append, firstErr_append, tokenRegion_pass (htoken.unqueue r 0xE2), regionChecks_pass (hdata.unqueue r 0xE2)]
    simp [firstErr_cons, firstErr, hlen, hzero, hfield]
  change execOtpProgram r p s = _
  rw [execOtpProgram, serve_ready hready]
  dsimp only
  rw [hfield] at hpass ⊢
  exact congrArg Host.Outcome.next ((checked_pass hpass).trans (withToken_read hread r 0xE2 (u16 p 8) (programAccepted r (u16 p 8))))

theorem fenceFirst_none {s : State} (h : s.faults.otpPending = none) : fenceFirst s = s :=
  if_neg (fun ⟨hdue, _⟩ => by rw [h] at hdue; cases hdue)

theorem programAccepted_generation {s : State} {f : Nat} {d : List Byte} (r : Req) (hvalue : fieldValueOk f d = true)
    (hdue : s.faults.otpPending = none) (hfield : f ≠ 0x20) (hroom : gensUsed s.sec.otp < 4) :
    programAccepted r f s d = generationProgrammed r f d s := by
  rw [programAccepted, fenceFirst_none hdue]
  rw [hvalue, if_neg (by decide), if_neg hfield, if_neg (Nat.not_le.mpr hroom)]

theorem programAccepted_debugDisable {s : State} {f : Nat} {d : List Byte} (r : Req) (hvalue : fieldValueOk f d = true)
    (hdue : s.faults.otpPending = none) (hfield : f = 0x20) (hintact : s.sec.otp.debugDisable = false) :
    programAccepted r f s d = debugDisabled r f s := by
  rw [programAccepted, fenceFirst_none hdue]
  rw [hvalue, if_neg (by decide), if_pos hfield, hintact, if_neg (by decide)]

theorem generationProgrammed_otp (r : Req) (f : Nat) (d : List Byte) (s : State) :
    (generationProgrammed r f d s).sec.otp = writeGeneration s.sec.otp false (applyField f d) := by
  rw [generationProgrammed, reply_sec, event_sec]

theorem debugDisabled_otp (r : Req) (f : Nat) (s : State) :
    (debugDisabled r f s).sec.otp = { s.sec.otp with debugDisable := true } := by
  rw [debugDisabled, reply_sec, event_sec]

/-! ### DEBUG_UNLOCK (16 R494) -/

/-- A fuse is blown and the features are unlocked. -/
def unlocked (features : Nat) (s : State) : State := { s with sec := { s.sec with
  otp := { s.sec.otp with debugUnlocks := s.sec.otp.debugUnlocks + 1 }
  debug := s.sec.debug ||| BitVec.ofNat 4 features
  debugUnlocked := true } }

/-- A DEBUG_UNLOCK whose token has been accepted. -/
def unlockAccepted (r : Req) (features : Nat) (s : State) (_ : List Byte) : State :=
  if 32 ≤ s.sec.otp.debugUnlocks then reply s r 0xE3 .accessDenied 0x0390
  else reply (event (unlocked features s) 0x0A06 1 unitSecurity 0 (leBytes 4 features ++ leBytes 1 (s.sec.otp.debugUnlocks + 1))) r 0xE3 .ok

theorem exec_debugUnlock {s v : State} {r : Req} {p token : List Byte} (hready : Ready s r 0xE3 none none) (hlen : p.length = 16)
    (hzero : allZero (slice p 12 4) = true) (hfeatures : u32 p 8 ≤ 15) (htoken : RegionOk s (u64 p 0) 392 64 false)
    (hread : TokenRead (unqueue s r 0xE3) (u64 p 0) none token [] v) :
    exec (.debugUnlock r p) s = .next (
      if (judgeToken v token ⟨0xE3, u32 p 8, zeros 48⟩).1 then
        unlockAccepted r (u32 p 8) (judgeToken v token ⟨0xE3, u32 p 8, zeros 48⟩).2 []
      else reply (judgeToken v token ⟨0xE3, u32 p 8, zeros 48⟩).2 r 0xE3 .accessDenied 0x0390) := by
  have hpass : firstErr ([(p.length != 16, badLength), (!allZero (slice p 12 4), badReserved), (decide (15 < u32 p 8), badRange)] ++
      tokenRegion (unqueue s r 0xE3) (u64 p 0)) = none := by
    rw [firstErr_append, tokenRegion_pass (htoken.unqueue r 0xE3)]
    simp [firstErr_cons, firstErr, hlen, hzero, Nat.not_lt.mpr hfeatures]
  change execDebugUnlock r p s = _
  rw [execDebugUnlock, serve_ready hready]
  exact congrArg Host.Outcome.next ((checked_pass hpass).trans (withToken_read hread r 0xE3 (u32 p 8) (unlockAccepted r (u32 p 8))))

theorem unlockAccepted_sec {s : State} {features : Nat} (r : Req) (bs : List Byte) (hfuses : s.sec.otp.debugUnlocks < 32) :
    (unlockAccepted r features s bs).sec = (unlocked features s).sec := by
  rw [unlockAccepted, if_neg (Nat.not_le.mpr hfuses), reply_sec, event_sec]

/-! ### ATTEST (16 R491) -/

theorem exec_attest {s : State} {r : Req} {p : List Byte} (hready : Ready s r 0xE4 none none) (hlen : p.length = 52)
    (hzero : allZero (slice p 48 4) = true) (hent : s.ent.st ≠ .failed) :
    exec (.attest r p) s = .next (queueDraw (hold (unqueue s r 0xE4) r 0xE4 none none) ⟨.attest r p, 48, []⟩) := by
  have hpass : firstErr [(p.length != 52, badLength), (!allZero (slice p 48 4), badReserved)] = none := by
    simp [firstErr_cons, firstErr, hlen, hzero]
  change execAttest r p s = _
  rw [execAttest, serve_ready hready, checked_pass hpass, unqueue_ent, if_neg hent]
  rfl

end Sys2Proof.Machine

open Sys2Proof Sys2Proof.Machine

/-- Settles O59: a token that has been read is judged (`withToken_read`), the judgment leaves what the commands act on
(`privilegedKept_judged`), and each command does its own work under a token that is accepted. -/
theorem privilegedCommandsNeedTheirToken : Obligations.PrivilegedCommandsNeedTheirToken := by
  refine ⟨?stage, ?activate, ?program, ?unlock, ?attest⟩
  case stage =>
    intro s v r p token img hready hlen hmax htoken himage hread j
    have hsec : (unstaged (unqueue s r 0xE0)).sec = { s.sec with staged := false } := by rw [unstaged, unqueue_sec]
    have hread : TokenRead (unstaged (unqueue s r 0xE0)) (u64 p 0) (some (u64 p 8, u64 p 16)) token img v := by
      rw [unstaged, unqueue_sec]
      exact hread
    have hexec := exec_fwStage hready hlen hmax htoken himage hread
    have hkept : PrivilegedKept (unstaged (unqueue s r 0xE0)) j.2 := privilegedKept_judged hread _
    have hotp : j.2.sec.otp = s.sec.otp := by rw [hkept.otp, hsec]
    refine ⟨fun hyes hok hversion => ⟨stageImage j.2 img, ?_, stageImage_staged .., ?_⟩, fun hno => ⟨?_, ?_⟩⟩
    · rw [hexec, if_pos hyes, stageAccepted_ok r (by rw [hotp, hok]) (by rw [hotp]; exact hversion)]
    · simpa only [hkept.bootB, hkept.slotA, hkept.slotB, hsec] using stageImage_slots j.2 img
    · rw [hexec, if_neg (by rw [hno]; decide)]
    · rw [hkept.staged, hsec]
  case activate =>
    intro s v r p token hready hlen hzero hmode htoken hread j
    have hexec := exec_fwActivate hready hlen hzero hmode htoken hread
    have hkept : PrivilegedKept (unqueue s r 0xE1) j.2 := privilegedKept_judged hread _
    refine ⟨fun hyes hstaged hidle => ⟨activated r (u8 p 8) j.2, ?_, activated_activate .., ?_⟩, fun hno => ?_⟩
    · rw [hexec, if_pos hyes, activateAccepted_ok r [] (by rw [hkept.staged, unqueue_sec, hstaged]) hidle]
    · rw [activated_resetDue, hkept.power, unqueue_power]
    · rw [hexec, if_neg (by rw [hno]; decide)]
  case program =>
    intro s v r p token d len hready hlen hzero hfield htoken hdata hread j
    have hexec := exec_otpProgram hready hlen hzero hfield htoken hdata hread
    have hkept : PrivilegedKept (unqueue s r 0xE2) j.2 := privilegedKept_judged hread _
    have hotp : j.2.sec.otp = s.sec.otp := by rw [hkept.otp, unqueue_sec]
    refine ⟨fun hyes hvalue hdue => ?_, fun hno => ?_⟩
    · rw [hexec, if_pos hyes]
      have hnone : j.2.faults.otpPending = none := by rw [hkept.faults, unqueue_faults, hdue]
      refine ⟨fun hother hroom => ⟨_, rfl, ?_⟩, fun hthis hintact => ⟨_, rfl, ?_⟩⟩
      · rw [programAccepted_generation r hvalue hnone hother (by rw [hotp]; exact hroom), generationProgrammed_otp, hotp]
      · rw [programAccepted_debugDisable r hvalue hnone hthis (by rw [hotp, hintact]), debugDisabled_otp, hotp]
    · rw [hexec, if_neg (by rw [hno]; decide)]
  case unlock =>
    intro s v r p token hready hlen hzero hfeatures htoken hread j
    have hexec := exec_debugUnlock hready hlen hzero hfeatures htoken hread
    have hkept : PrivilegedKept (unqueue s r 0xE3) j.2 := privilegedKept_judged hread _
    have hotp : j.2.sec.otp = s.sec.otp := by rw [hkept.otp, unqueue_sec]
    refine ⟨fun hyes hfuses => ⟨_, hexec.trans (congrArg _ (if_pos hyes)), ?_⟩, fun hno => ?_⟩
    · rw [unlockAccepted_sec r [] (by rw [hotp]; exact hfuses)]
      refine ⟨rfl, ?_, ?_⟩
      · rw [unlocked, hkept.features, unqueue_sec]
      · rw [unlocked, hotp]
    · rw [hexec, if_neg (by rw [hno]; decide)]
  case attest =>
    intro s r p hready hlen hzero hent
    exact ⟨_, exec_attest hready hlen hzero hent, by simp [queueDraw], by simp [queueDraw]⟩
end

section
/-!
PROOFS. The Leash transmitter and receiver (12 R374 to R381, R387): what sending and accepting flits leaves, and the state in which a
message that arrives whole is handled.
-/

namespace Sys2Proof.Machine

/-! ### Ports as a map -/

theorem port_setPort_same (s : State) (n : Nat) (v : Port) : port (setPort s n v) n = v := by
  simp [port, setPort, lookupD]

theorem port_setPort_other (s : State) {n k : Nat} (v : Port) (h : k ≠ n) : port (setPort s n v) k = port s k := by
  simp [port, setPort, lookupD, lookup_put_other _ _ h]

theorem port_modPort_same (s : State) (n : Nat) (f : Port → Port) : port (modPort s n f) n = f (port s n) := port_setPort_same ..

theorem mem_of_lookup {α : Type} {m : Map α} {k : Nat} {v : α} (h : lookup m k = some v) : (k, v) ∈ m := by
  induction m with
  | nil => cases h
  | cons e m ih =>
    obtain ⟨j, w⟩ := e
    unfold lookup at h
    split at h
    · next hkey =>
      obtain rfl := Option.some.inj h
      exact hkey ▸ List.mem_cons_self
    · exact List.mem_cons_of_mem _ (ih h)

theorem mem_put {α : Type} {m : Map α} {k : Nat} {v : α} {e : Nat × α} (h : e ∈ put m k v) : e = (k, v) ∨ e ∈ m := by
  induction m with
  | nil => exact .inl (List.mem_singleton.mp h)
  | cons d m ih =>
    obtain ⟨j, w⟩ := d
    unfold put at h
    split at h
    · rcases List.mem_cons.mp h with rfl | hrest
      · exact .inr List.mem_cons_self
      · exact (ih hrest).imp_right (List.mem_cons_of_mem _)
    · split at h
      · exact (List.mem_cons.mp h).imp_right (List.mem_cons_of_mem _)
      · exact List.mem_cons.mp h

/-- A port is the default one or stands among the ports. -/
theorem port_default_or_mem (s : State) (n : Nat) : port s n = {} ∨ (n, port s n) ∈ s.ports := by
  unfold port lookupD
  cases h : lookup s.ports n with
  | none => exact .inl rfl
  | some p => exact .inr (mem_of_lookup h)

/-! ### What sending and accepting flits leaves (12 R375 to R381) -/

/-- Of a port: its state, the other end that it is joined to, and the arrivals held for barriers. -/
def linkView (p : Port) : LinkState × Bool × Option LinkParams × List LeashMsg := (p.st, p.partnerJoined, p.partner, p.barrierMsgs)

/-- What sending and accepting flits may change: the ports, but not what `linkView` shows of them, and what leaves the module. -/
structure Sends (s t : State) : Prop where
  only : t = { s with ports := t.ports, out := t.out }
  view : ∀ k, linkView (port t k) = linkView (port s k)
  held : ∀ e ∈ t.ports, e.2.barrierMsgs = [] ∨ ∃ d ∈ s.ports, d.2.barrierMsgs = e.2.barrierMsgs

theorem Sends.refl (s : State) : Sends s s := ⟨rfl, fun _ => rfl, fun e he => .inr ⟨e, he, rfl⟩⟩

theorem Sends.trans {s t u : State} (h : Sends s t) (g : Sends t u) : Sends s u where
  only := by rw [g.only, h.only]
  view k := (g.view k).trans (h.view k)
  held e he := by
    rcases g.held e he with hnone | ⟨d, hd, hsame⟩
    · exact .inl hnone
    · rw [← hsame]
      exact h.held d hd

theorem Sends.each {α : Type} {f : State → α → State} (h : ∀ s a, Sends s (f s a)) (l : List α) (s : State) : Sends s (each l s f) :=
  List.foldlRecOn (motive := Sends s) l f (.refl s) (fun t ht a _ => ht.trans (h t a))

theorem Sends.withOut {s t : State} (h : Sends s t) (out : List Out) : Sends s { t with out := out } :=
  ⟨by rw [h.only], h.view, h.held⟩

theorem Sends.setPort (s : State) (n : Nat) {v : Port} (h : linkView v = linkView (port s n)) : Sends s (setPort s n v) where
  only := rfl
  view k := by
    by_cases hk : k = n
    · rw [hk, port_setPort_same, h]
    · rw [port_setPort_other s v hk]
  held e he := by
    have hheld : v.barrierMsgs = (port s n).barrierMsgs := congrArg (fun x => x.2.2.2) h
    rcases mem_put he with rfl | hold
    · rcases port_default_or_mem s n with hdefault | hmem
      · exact .inl (hheld.trans (by rw [hdefault]))
      · exact .inr ⟨_, hmem, hheld.symm⟩
    · exact .inr ⟨e, hold, rfl⟩

theorem Sends.modPort (s : State) (n : Nat) {f : Port → Port} (h : ∀ p, linkView (f p) = linkView p) : Sends s (modPort s n f) :=
  .setPort s n (h _)

theorem sends_freeFlits (s : State) (n vl k : Nat) : Sends s (freeFlits s n vl k) := .modPort s n (fun _ => rfl)

theorem sends_sendFlit (s : State) (n : Nat) (o : Outgoing) : Sends s (sendFlit s n o) := by
  unfold sendFlit
  dsimp only
  split
  · refine (Sends.setPort s n ?_).withOut _
    rfl
  · refine .trans ((Sends.setPort s n ?_).withOut _) (sends_freeFlits ..)
    rfl

theorem sends_pumpFlits (k : Nat) (s : State) (n : Nat) : Sends s (pumpFlits k s n) := by
  induction k generalizing s with
  | zero => exact .refl s
  | succ k ih =>
    unfold pumpFlits
    split
    · exact .refl s
    · exact (sends_sendFlit ..).trans (ih _)

theorem sends_firstWhistle (s : State) (n : Nat) : Sends s (firstWhistle s n) := by
  unfold firstWhistle
  split
  · refine (Sends.modPort s n (fun _ => ?_)).withOut _
    rfl
  · exact .refl s

theorem sends_queueMsg (s : State) (n : Nat) (m : LeashMsg) (origin : Option Nat) : Sends s (queueMsg s n m origin) := by
  refine .trans (.modPort s n (fun _ => ?_)) (.trans (sends_firstWhistle _ n) (sends_pumpFlits ..))
  rfl

theorem sends_sendMsg (s : State) (n : Nat) (m : LeashMsg) : Sends s (sendMsg s n m) := sends_queueMsg ..

theorem sends_sendTo (s : State) (dest : Nat) (m : LeashMsg) : Sends s (sendTo s dest m) := by
  unfold sendTo
  split
  · exact sends_sendMsg ..
  · exact .refl s

theorem sends_sendRound (s : State) (b : Barrier) : Sends s (sendRound s b) := sends_sendTo ..

theorem sends_sendCtrl (s : State) (n : Nat) (nak : Bool) (notice : Nat) : Sends s (sendCtrl s n nak notice) := by
  refine (Sends.setPort s n ?_).withOut _
  rfl

theorem sends_acceptFlits (s : State) (m : LeashMsg) (k : Nat) : Sends s (acceptFlits s m k) := by
  unfold acceptFlits
  extract_lets t u
  have ht : Sends s t := .modPort s m.port (fun _ => rfl)
  have hu : Sends s u := by
    unfold u
    split
    · exact ht
    · exact ht.trans (sends_freeFlits ..)
  split
  · exact hu.trans (sends_sendCtrl ..)
  · exact hu

theorem sends_afterFlits (s : State) (m : LeashMsg) : Sends s (afterFlits s m) := by
  unfold afterFlits setPartial
  refine .trans (sends_acceptFlits ..) (.modPort _ m.port (fun _ => ?_))
  rfl

section
variable {s t : State} (h : Sends s t)
include h

theorem Sends.join : t.join = s.join := by rw [h.only]

theorem Sends.gptp : t.gptp = s.gptp := by rw [h.only]

theorem Sends.rtc : t.rtc = s.rtc := by rw [h.only]

theorem Sends.eth : t.eth = s.eth := by rw [h.only]

theorem Sends.hbm : t.hbm = s.hbm := by rw [h.only]

theorem Sends.taken : t.taken = s.taken := by rw [h.only]

theorem Sends.st (k : Nat) : (port t k).st = (port s k).st := congrArg (fun x => x.1) (h.view k)

theorem Sends.partnerJoined (k : Nat) : (port t k).partnerJoined = (port s k).partnerJoined := congrArg (fun x => x.2.1) (h.view k)

theorem Sends.barrierMsgs (k : Nat) : (port t k).barrierMsgs = (port s k).barrierMsgs := congrArg (fun x => x.2.2.2) (h.view k)

theorem Sends.joinedPorts : joinedPorts t = joinedPorts s := by
  simp only [Machine.joinedPorts, h.partnerJoined]

theorem Sends.routesTo (dest : Nat) : routesTo t dest = routesTo s dest := by
  simp only [Machine.routesTo, h.joinedPorts, h.st, h.join]

theorem Sends.destKnown (m : LeashMsg) : destKnown t m = destKnown s m := by
  simp only [Machine.destKnown, joined, h.partnerJoined, h.join]

theorem Sends.messageOk (m : LeashMsg) : messageOk t m = messageOk s m := by
  simp only [Machine.messageOk, h.destKnown]

theorem Sends.hasGrandmaster : hasGrandmaster t = hasGrandmaster s := by
  rw [Machine.hasGrandmaster, h.eth, Machine.hasGrandmaster]

theorem Sends.trailTime : trailTime t = trailTime s := by
  unfold Machine.trailTime
  rw [h.gptp, h.rtc]

end

/-! ### A message that arrives whole (12 R378, R379, R398) -/

section
variable {s : State} {kind : Nat} {m : LeashMsg}

/-- All flits of a message that arrives whole are accepted. -/
theorem Arrives.acceptedOf (h : Arrives s kind m) : acceptedOf s m = runFlits m := by
  obtain ⟨-, -, hfirst, hlen, hroom, hseq, -⟩ := h
  have hrun : runFlits m = flitsOf (dataLen m) := by rw [runFlits, if_pos hfirst, hlen]
  have hsome : 1 ≤ flitsOf (dataLen m) := Nat.le_add_right ..
  rw [Machine.acceptedOf, if_neg (by rintro (hbad | hfull) <;> omega)]
  split
  · omega
  · rfl

theorem Arrives.joinRun (h : Arrives s kind m) : joinRun s m (runFlits m) = some m := by
  obtain ⟨-, -, hfirst, -, -, -, -⟩ := h
  rw [Machine.joinRun, if_pos hfirst]
  simp only [if_true]

/-- A message that arrives whole is handled by the row of its kind once its flits are accepted. -/
theorem receiveMsg_arrives (h : Arrives s kind m) (f : LeashMsg → State → State) : receiveMsg s kind m f = f m (afterFlits s m) := by
  have haccepted := h.acceptedOf
  have hjoined := h.joinRun
  obtain ⟨hactive, hkind, hfirst, hlen, -, -, hok⟩ := h
  have hrun : runFlits m = flitsOf (dataLen m) := by rw [runFlits, if_pos hfirst, hlen]
  have hsome : runFlits m ≠ 0 := by
    rw [hrun, flitsOf]
    omega
  have harrived : arrived (acceptFlits s m (runFlits m)) m f = f m (afterFlits s m) := by
    rw [arrived, if_neg (by omega)]
    exact if_pos (((sends_afterFlits s m).messageOk m).trans hok)
  unfold receiveMsg
  rw [hactive, hkind, haccepted]
  simp [hsome, hjoined, harrived]

end

end Sys2Proof.Machine
end

section
/-!
PROOFS. Barriers and time over Leash (11 R368, 12 R389).
-/

namespace Sys2Proof.Machine

/-! ### What barriers read of the join (12 R389) -/

section
variable {s t : State} (hjoin : t.join = s.join)
include hjoin

theorem roundsOf_congr (scope : Nat) : roundsOf t scope = roundsOf s scope := by
  rw [roundsOf, hjoin, roundsOf]

theorem noticeFor_congr (id : Word) (scope : Nat) (m : LeashMsg) : noticeFor t id scope m = noticeFor s id scope m := by
  simp only [noticeFor, roundSource, roundsOf_congr hjoin, hjoin]

theorem heldRounds_congr (hports : t.ports = s.ports) (id : Word) (scope : Nat) : heldRounds t id scope = heldRounds s id scope := by
  have hnotice : noticeFor t id scope = noticeFor s id scope := funext (noticeFor_congr hjoin id scope)
  rw [heldRounds, hports, hnotice, heldRounds]

end

/-! ### A barrier's rounds (12 R389) -/

/-- A barrier that has completed its round. -/
def nextRound (b : Barrier) : Barrier := { b with round := b.round + 1 }

/-- A barrier ends. -/
def dropBarrier (s : State) (id : Word) : State :=
  { s with join := { s.join with barriers := s.join.barriers.filter (fun x => x.id != id) } }

/-- A barrier waits for the arrival of its round. -/
theorem advance_waits {k : Nat} {s : State} {b : Barrier} (hround : b.round < roundsOf s b.scope) (hunseen : b.round ∉ b.seen) :
    advance k s b = s := by
  cases k with
  | zero => rfl
  | succ k => rw [advance, if_neg (Nat.not_le.mpr hround), if_neg (by rwa [List.contains_iff_mem])]

/-- The arrival of a round that is not the last moves the barrier to the next, whose notice is sent. -/
theorem advance_round {k : Nat} {s : State} {b : Barrier} (hround : b.round + 1 < roundsOf s b.scope) (hseen : b.round ∈ b.seen) :
    advance (k + 1) s b = advance k (sendRound (setBarrier s (nextRound b)) (nextRound b)) (nextRound b) := by
  rw [advance, if_neg (by omega), if_pos (by rwa [List.contains_iff_mem])]
  exact congrArg (advance k · (nextRound b)) (if_pos hround)

/-- The arrival of the last round leaves nothing to send. -/
theorem advance_last {k : Nat} {s : State} {b : Barrier} (hround : b.round + 1 = roundsOf s b.scope) (hseen : b.round ∈ b.seen) :
    advance (k + 1) s b = advance k (setBarrier s (nextRound b)) (nextRound b) := by
  rw [advance, if_neg (by omega), if_pos (by rwa [List.contains_iff_mem])]
  exact congrArg (advance k · (nextRound b)) (if_neg (Nat.not_lt.mpr (Nat.le_of_eq hround.symm)))

/-- A barrier past its last round is released with the time. -/
theorem advance_release {k : Nat} {s : State} {b : Barrier} (hround : roundsOf s b.scope ≤ b.round) :
    advance (k + 1) s b = barrierReply (dropBarrier s b.id) b .ok 0 (leBytes 8 (trailTime s).1 ++ zeros 8) := by
  rw [advance, if_pos hround]
  rfl

/-- A barrier set twice is what it was set to last. -/
theorem setBarrier_twice (s : State) {b c : Barrier} (hid : b.id = c.id) : setBarrier (setBarrier s b) c = setBarrier s c := by
  have hsame (x : Barrier) : (if (if x.id == b.id then b else x).id == c.id then c else if x.id == b.id then b else x) =
      if x.id == c.id then c else x := by
    by_cases hx : x.id = c.id
    · simp [hx, hid]
    · simp [hx, hid]
  simp only [setBarrier, List.map_map, Function.comp_def, hsame]

theorem dropBarrier_setBarrier (s : State) (b : Barrier) : dropBarrier (setBarrier s b) b.id = dropBarrier s b.id := by
  have hkeep (xs : List Barrier) : (xs.map (fun x => if x.id == b.id then b else x)).filter (fun x => x.id != b.id) =
      xs.filter (fun x => x.id != b.id) := by
    induction xs with
    | nil => rfl
    | cons x xs ih =>
      rw [List.map_cons, List.filter_cons, List.filter_cons, ih]
      by_cases hx : x.id = b.id
      · simp [hx]
      · simp [hx]
  simp only [dropBarrier, setBarrier, hkeep]

/-! ### Entering a barrier (11 R368) -/

/-- A member has entered a barrier: it stands among the others, and the arrivals held for its ID are taken. -/
def entered (s : State) (b : Barrier) : State := { s with
  join := { s.join with barriers := s.join.barriers ++ [b] }
  ports := s.ports.map (fun e => (e.1, { e.2 with barrierMsgs := e.2.barrierMsgs.filter (fun m => m.tag != b.id) })) }

/-- A barrier that no arrival was held for sends its first round and waits. -/
theorem enterBarrier_waits {s : State} {id : Word} {scope : Nat} (r : Option Req) (hheld : heldRounds s id scope = [])
    (hrounds : 0 < roundsOf s scope) :
    enterBarrier s id scope r = sendRound (entered s ⟨id, scope, r, 0, []⟩) ⟨id, scope, r, 0, []⟩ := by
  have hsent := sends_sendRound (entered s ⟨id, scope, r, 0, []⟩) ⟨id, scope, r, 0, []⟩
  have hwait : advance 20 (sendRound (entered s ⟨id, scope, r, 0, []⟩) ⟨id, scope, r, 0, []⟩) ⟨id, scope, r, 0, []⟩ =
      sendRound (entered s ⟨id, scope, r, 0, []⟩) ⟨id, scope, r, 0, []⟩ :=
    advance_waits (by rw [roundsOf_congr hsent.join]; exact hrounds) List.not_mem_nil
  rw [enterBarrier, hheld, ← hwait]
  exact congrArg (advance 20 · _) (if_pos hrounds)

theorem exec_barrier {s : State} {r : Req} {p : List Byte} (hready : Ready s r 0xA1 none none) (hlen : p.length = 16)
    (hzero : allZero (slice p 12 4) = true) (hscope : u32 p 4 ≤ 18) (hnew : s.join.barriers.any (fun b => b.id == w32 p 0) = false)
    (hjoined : joined s = true) (hmembers : 2 ^ u32 p 4 ≤ s.join.count) (hwhole : s.join.st ≠ .incomplete)
    (hroom : s.join.barriers.length < 16) :
    exec (.barrier r p) s = .next (enterBarrier (hold (unqueue s r 0xA1) r 0xA1 none none) (w32 p 0) (u32 p 4) (some r)) := by
  have hjoin : (unqueue s r 0xA1).join = s.join := unqueue_join ..
  have hjoined' : joined (unqueue s r 0xA1) = true := by rw [joined, hjoin, ← joined, hjoined]
  have hpass : firstErr [(p.length != 16, badLength), (!allZero (slice p 12 4), badReserved),
      (decide (18 < u32 p 4) || s.join.barriers.any (fun b => b.id == w32 p 0), badRange),
      (!joined (unqueue s r 0xA1), Status.notReady, 0x0380),
      (decide (s.join.count < 2 ^ min (u32 p 4) 19), badRange),
      (s.join.st == .incomplete, .joinIncomplete, 0x0350)] = none := by
    have hmin : min (u32 p 4) 19 = u32 p 4 := by omega
    simp [firstErr_cons, firstErr, hlen, hzero, Nat.not_lt.mpr hscope, hnew, hjoined', hmin, Nat.not_lt.mpr hmembers,
      hwhole]
  change execBarrier r p s = _
  rw [execBarrier, serve_ready hready]
  dsimp only
  rw [hjoin, checked_pass hpass, hjoin, if_neg (Nat.not_le.mpr hroom)]

/-- A command that is held stands among the taken ones. -/
theorem taken_hold (s : State) (r : Req) (op : Nat) (c m : Option Nat) (md : Modes) :
    ∃ x ∈ (hold s r op c m md).taken, x.r = r ∧ x.opcode = op := by
  unfold hold
  split
  · next hany =>
    obtain ⟨x, hx, hsame⟩ := List.any_eq_true.mp hany
    obtain ⟨hr, hop⟩ := Bool.and_eq_true_iff.mp hsame
    exact ⟨x, hx, eq_of_beq hr, eq_of_beq hop⟩
  · exact ⟨_, List.mem_append_right _ (List.mem_singleton.mpr rfl), rfl, rfl⟩

/-! ### An arrival notice (12 R389) -/

/-- An arrival has been seen by a barrier. -/
def sawArrival (b : Barrier) (m : LeashMsg) : Barrier := { b with seen := b.seen ++ [u8 m.data 4] }

/-- An arrival for a barrier is held, or counts for it. -/
def takeNotice (m : LeashMsg) (s : State) : State :=
  match s.join.barriers.find? (fun b => b.id == m.tag) with
  | some b => if noticeFor s b.id b.scope m then advance 20 (setBarrier s (sawArrival b m)) (sawArrival b m) else s
  | none =>
    if (port s m.port).barrierMsgs.length < 64 then
      modPort s m.port (fun p => { p with barrierMsgs := p.barrierMsgs ++ [m] })
    else s

theorem exec_barrierMessage {s : State} {m : LeashMsg} (h : Arrives s 6 m) :
    exec (.barrierMessage m) s = .next (takeNotice m (afterFlits s m)) :=
  congrArg Host.Outcome.next (receiveMsg_arrives h takeNotice)

section
variable {s : State} {m : LeashMsg} {b : Barrier}

theorem takeNotice_held (hfind : s.join.barriers.find? (fun b => b.id == m.tag) = none) (hroom : (port s m.port).barrierMsgs.length < 64) :
    takeNotice m s = modPort s m.port (fun p => { p with barrierMsgs := p.barrierMsgs ++ [m] }) := by
  rw [takeNotice, hfind]
  exact if_pos hroom

theorem takeNotice_counted (hfind : s.join.barriers.find? (fun b => b.id == m.tag) = some b)
    (hnotice : noticeFor s b.id b.scope m = true) : takeNotice m s = advance 20 (setBarrier s (sawArrival b m)) (sawArrival b m) := by
  rw [takeNotice, hfind]
  exact if_pos hnotice

variable (hround : u8 m.data 4 = b.round)
include hround

theorem round_mem_sawArrival : (sawArrival b m).round ∈ (sawArrival b m).seen :=
  List.mem_append_right _ (List.mem_singleton.mpr hround.symm)

/-- The arrival of a round that is not the last moves the barrier to the next, and that waits. -/
theorem advance_sawArrival (hmore : b.round + 1 < roundsOf s b.scope) (hunseen : b.round + 1 ∉ b.seen) (k : Nat) :
    advance (k + 1) (setBarrier s (sawArrival b m)) (sawArrival b m) =
      sendRound (setBarrier s (nextRound (sawArrival b m))) (nextRound (sawArrival b m)) := by
  have hsent := sends_sendRound (setBarrier s (nextRound (sawArrival b m))) (nextRound (sawArrival b m))
  have hnext : b.round + 1 ∉ b.seen ++ [u8 m.data 4] := by
    simp [hunseen, hround]
  rw [advance_round (s := setBarrier s (sawArrival b m)) (b := sawArrival b m) hmore (round_mem_sawArrival hround),
    setBarrier_twice s (b := sawArrival b m) (c := nextRound (sawArrival b m)) rfl]
  exact advance_waits (by rw [roundsOf_congr hsent.join]; exact hmore) hnext

/-- The arrival of the last round releases the barrier. -/
theorem advance_sawArrival_last (hlast : b.round + 1 = roundsOf s b.scope) (k : Nat) :
    advance (k + 2) (setBarrier s (sawArrival b m)) (sawArrival b m) =
      barrierReply (dropBarrier s b.id) b .ok 0 (leBytes 8 (trailTime s).1 ++ zeros 8) := by
  rw [advance_last (s := setBarrier s (sawArrival b m)) (b := sawArrival b m) hlast (round_mem_sawArrival hround),
    setBarrier_twice s (b := sawArrival b m) (c := nextRound (sawArrival b m)) rfl,
    advance_release (s := setBarrier s (nextRound (sawArrival b m))) (b := nextRound (sawArrival b m)) (Nat.le_of_eq hlast.symm)]
  exact congrArg (barrierReply · b .ok 0 _) (dropBarrier_setBarrier s (nextRound (sawArrival b m)))

end

/-! ### TIME (12 R389) -/

/-- The delay of a link that a TIME message gives. -/
def delayOf (m : LeashMsg) (s : State) : Nat :=
  if hasGrandmaster s then (trailTime s).1 - u64 m.data 0 else Config.linkDelay m.port

/-- The delay of a link is kept. -/
def setDelay (s : State) (n d : Nat) : State := { s with join := { s.join with linkDelay := put s.join.linkDelay n d } }

theorem Sends.setDelay_join {s t : State} (h : Sends s t) (n d : Nat) : (setDelay t n d).join = (setDelay s n d).join := by
  rw [setDelay, h.join, setDelay]

/-- A TIME message gives the delay of its link, and member 0's time to a member without a grandmaster. -/
def takeTime (m : LeashMsg) (s : State) : State :=
  if !hasGrandmaster s && s.join.self != 0 && (m.srcMember == 0 || (routesTo s 0).contains m.port) then
    { setDelay s m.port (delayOf m s) with gptp := some (u64 m.data 0 + delayOf m s, s.rtc) }
  else setDelay s m.port (delayOf m s)

theorem exec_time {s : State} {m : LeashMsg} (h : Arrives s 7 m) : exec (.time m) s = .next (takeTime m (afterFlits s m)) :=
  congrArg Host.Outcome.next (receiveMsg_arrives h takeTime)

theorem takeTime_grandmaster {s : State} (m : LeashMsg) (h : hasGrandmaster s = true) :
    takeTime m s = setDelay s m.port ((trailTime s).1 - u64 m.data 0) := by
  simp [takeTime, delayOf, h]

/-- A member without a grandmaster measures the delay of the link, and follows the time of member 0. -/
theorem takeTime_follows {s : State} (m : LeashMsg) (h : hasGrandmaster s = false) :
    (takeTime m s).join = (setDelay s m.port (Config.linkDelay m.port)).join ∧
    (takeTime m s).gptp = if s.join.self ≠ 0 ∧ (m.srcMember = 0 ∨ m.port ∈ routesTo s 0) then
      some (u64 m.data 0 + Config.linkDelay m.port, s.rtc) else s.gptp := by
  have hdelay : delayOf m s = Config.linkDelay m.port := if_neg (by rw [h]; decide)
  rw [takeTime, h, hdelay]
  by_cases hfollows : s.join.self ≠ 0 ∧ (m.srcMember = 0 ∨ m.port ∈ routesTo s 0)
  · rw [if_pos hfollows, if_pos (by simpa using hfollows)]
    exact ⟨rfl, rfl⟩
  · rw [if_neg hfollows, if_neg (by simpa using hfollows)]
    exact ⟨rfl, rfl⟩

/-! ### TIME_SEND (12 R389) -/

/-- The message that carries this member's time over a port. -/
def timeMsg (s : State) (n : Nat) : LeashMsg := leashMsg s n 3 0x07 ((memberAt s n).getD 0) 0 0 (leBytes 8 (trailTime s).1)

/-- This member's time leaves on a port. -/
def sendTime (s : State) (n : Nat) : State := sendMsg s n (timeMsg s n)

theorem exec_timeSend (s : State) :
    exec .timeSend s = .next (each ((joinedPorts s).filter (fun n => (port s n).st == .active && serdesOn s)) s sendTime) := rfl

/-- A message that is to leave, none of its flits sent. -/
def outgoing (n : Nat) (m : LeashMsg) : Outgoing := ⟨{ m with port := n }, 0, none, 0⟩

/-- The transmitter sends the one flit of a message that waits alone. -/
theorem pump_single {s : State} {n : Nat} {o : Outgoing} (hactive : (port s n).st = .active) (hjoined : (port s n).partnerJoined = true)
    (hwaiting : (port s n).waiting = [o]) (hreplay : (port s n).replay = []) (hcredit : outstanding (port s n) 3 = 0)
    (hvl : o.msg.vl = 3) (hnew : o.next = 0) (hlen : flitsOf o.msg.data.length = 1) : pump s n = sendFlit s n o := by
  have hgo : canSend (port s n) o = true := by simp [canSend, hvl, hcredit, vlBuffer, hactive, hjoined, hreplay]
  have hnext : nextOut s n (port s n) = some o := by simp [nextOut, vlOrder, hwaiting, hvl, hgo]
  have hcount : ((port s n).waiting.map (fun o => flitsOf o.msg.data.length - o.next)).sum = 1 := by simp [hwaiting, hlen, hnew]
  rw [pump, hcount]
  simp only [pumpFlits, hnext]

/-- A message of one flit that finds nothing before it on a joined ACTIVE port leaves at once. -/
theorem sendMsg_single {s : State} {n : Nat} {m : LeashMsg} (hactive : (port s n).st = .active) (hjoined : (port s n).partnerJoined = true)
    (hwaiting : (port s n).waiting = []) (hreplay : (port s n).replay = []) (hvl : m.vl = 3) (hcredit : outstanding (port s n) 3 = 0)
    (hlen : flitsOf m.data.length = 1) : (sendMsg s n m).out = .flit n (msgFlit m 0 (port s n).txSeq) :: s.out := by
  generalize ht : modPort s n (fun p => { p with waiting := p.waiting ++ [outgoing n m] }) = t
  have hport : port t n = { port s n with waiting := [outgoing n m] } := by
    rw [← ht, port_modPort_same, hwaiting, List.nil_append]
  have hwhistle : firstWhistle t n = t := if_neg (by simp [hport, hactive])
  have hsend : sendMsg s n m = sendFlit t n (outgoing n m) := by
    have hpump : sendMsg s n m = pump (firstWhistle t n) n := by
      rw [← ht]
      rfl
    rw [hpump, hwhistle]
    exact pump_single (by rw [hport, hactive]) (by rw [hport, hjoined]) (by rw [hport]) (by rw [hport, hreplay])
      (by rw [hport, ← hcredit]; rfl) hvl rfl hlen
  have hseq : (port t n).txSeq = (port s n).txSeq := by rw [hport]
  rw [hsend, ← hseq, ← show t.out = s.out by rw [← ht]; rfl]
  rfl

theorem sendTime_out {s : State} {n : Nat} (hactive : (port s n).st = .active) (hjoined : (port s n).partnerJoined = true)
    (hwaiting : (port s n).waiting = []) (hreplay : (port s n).replay = []) (hcredit : outstanding (port s n) 3 = 0) :
    (sendTime s n).out = .flit n (msgFlit (timeMsg s n) 0 (port s n).txSeq) :: s.out :=
  sendMsg_single hactive hjoined hwaiting hreplay rfl hcredit (by rw [timeMsg, leashMsg, leBytes_length, flitsOf])

end Sys2Proof.Machine

open Sys2Proof Sys2Proof.Machine

/-- Settles O53: a barrier that is entered waits (`enterBarrier_waits`), an arrival moves it on (`advance_sawArrival`) or releases it
(`advance_sawArrival_last`), and time comes (`takeTime_follows`) and leaves (`sendTime_out`). -/
theorem barriersAndTime : Obligations.BarriersAndTime := by
  refine ⟨?enters, fun s m harrives => ⟨?held, ?next, ?released⟩, ?timeout, ?time, ?timeSend⟩
  case enters =>
    intro s r p hready hlen hzero hscope hnew hjoined hmembers hwhole hroom hheld hrounds
    generalize hs' : hold (unqueue s r 0xA1) r 0xA1 none none = s'
    have hjoin : s'.join = s.join := by rw [← hs', hold_join, unqueue_join]
    have hports : s'.ports = s.ports := by rw [← hs', hold_ports, unqueue_ports]
    have hexec := exec_barrier hready hlen hzero hscope hnew hjoined hmembers hwhole hroom
    rw [hs', enterBarrier_waits (some r) (by rw [heldRounds_congr hjoin hports, hheld]) (by rw [roundsOf_congr hjoin]; exact hrounds)]
      at hexec
    have hsent := sends_sendRound (entered s' ⟨w32 p 0, u32 p 4, some r, 0, []⟩) ⟨w32 p 0, u32 p 4, some r, 0, []⟩
    refine ⟨_, hexec, ?_, ?_⟩
    · rw [hsent.join, ← hjoin]
      rfl
    · rw [hsent.taken]
      change ∃ x ∈ s'.taken, _
      rw [← hs']
      exact taken_hold ..
  case held =>
    intro hfind hroom
    have hsent := sends_afterFlits s m
    rw [exec_barrierMessage harrives, takeNotice_held (by rw [hsent.join, hfind]) (by rw [hsent.barrierMsgs]; exact hroom)]
    refine ⟨_, rfl, ?_, hsent.join⟩
    rw [port_modPort_same, ← hsent.barrierMsgs]
  case next =>
    intro b hfind hnotice hround hmore hunseen
    have hsent := sends_afterFlits s m
    have hid : b.id = m.tag := by simpa using List.find?_some hfind
    rw [exec_barrierMessage harrives, takeNotice_counted (by rw [hsent.join, hfind]) (by rw [noticeFor_congr hsent.join, hnotice]),
      advance_sawArrival hround (by rw [roundsOf_congr hsent.join]; exact hmore) hunseen]
    refine ⟨_, rfl, ?_⟩
    rw [(sends_sendRound ..).join, ← hid, ← hsent.join, setBarrier, nextRound, sawArrival, hround]
  case released =>
    intro b r hfind hr hnotice hround hlast
    have hsent := sends_afterFlits s m
    have hid : b.id = m.tag := by simpa using List.find?_some hfind
    rw [exec_barrierMessage harrives, takeNotice_counted (by rw [hsent.join, hfind]) (by rw [noticeFor_congr hsent.join, hnotice]),
      advance_sawArrival_last hround (by rw [roundsOf_congr hsent.join]; exact hlast), barrierReply, hr, hsent.trailTime]
    refine ⟨_, rfl, ?_⟩
    rw [← hid, ← hsent.join]
    rfl
  case timeout =>
    intro s b r hfind hr
    refine ⟨dropBarrier s b.id, ?_, rfl⟩
    change execBarrierTimeout b.id s = _
    rw [execBarrierTimeout, hfind]
    dsimp only
    rw [barrierReply, hr]
    rfl
  case time =>
    intro s m harrives
    have hsent := sends_afterFlits s m
    refine ⟨_, exec_time harrives, fun hmaster => ?_, fun hmaster => ?_⟩
    · rw [takeTime_grandmaster m (hsent.hasGrandmaster.trans hmaster), hsent.setDelay_join, hsent.trailTime]
      exact ⟨rfl, hsent.gptp⟩
    · obtain ⟨hjoin, hgptp⟩ := takeTime_follows m (hsent.hasGrandmaster.trans hmaster)
      rw [hjoin, hgptp, hsent.setDelay_join, hsent.join, hsent.routesTo, hsent.rtc, hsent.gptp]
      exact ⟨rfl, rfl⟩
  case timeSend =>
    intro s
    have hsent := Sends.each (f := sendTime) (fun s n => sends_sendMsg ..)
      ((joinedPorts s).filter (fun n => (port s n).st == .active && serdesOn s)) s
    refine ⟨_, exec_timeSend s, hsent.join, hsent.gptp, hsent.hbm, fun n hports hactive hserdes hwaiting hreplay hcredit => ?_⟩
    have hjoined : (port s n).partnerJoined = true := by
      have hmem : n ∈ joinedPorts s := by rw [hports]; exact List.mem_singleton_self n
      exact (List.mem_filter.mp hmem).2
    have hone : (joinedPorts s).filter (fun n => (port s n).st == .active && serdesOn s) = [n] := by
      simp [hports, hactive, hserdes]
    rw [hone]
    exact sendTime_out hactive hjoined hwaiting hreplay hcredit
end

section
/-!
PROOFS. Joining (11 R367, 12 R385, R393): JOIN_CONFIG, the wait for the members, and the joined self-test.
-/

namespace Sys2Proof.Machine

/-! ### Zero bytes -/

/-- A part of zero bytes is zero. -/
theorem allZero_part {bs cs : List Byte} (h : allZero bs = true) (hpart : ∀ x ∈ cs, x ∈ bs) : allZero cs = true :=
  List.all_eq_true.mpr (fun x hx => List.all_eq_true.mp h x (hpart x hx))

theorem allZero_drop {bs : List Byte} (h : allZero bs = true) (n : Nat) : allZero (bs.drop n) = true :=
  allZero_part h (fun _ => List.mem_of_mem_drop)

theorem allZero_slice {bs : List Byte} (h : allZero bs = true) (off n : Nat) : allZero (slice bs off n) = true :=
  allZero_part (allZero_drop h off) (fun _ => List.mem_of_mem_take)

theorem leNat_allZero {bs : List Byte} (h : allZero bs = true) : leNat bs = 0 := by
  induction bs with
  | nil => rfl
  | cons b bs ih =>
    obtain ⟨hb, hbs⟩ := Bool.and_eq_true_iff.mp h
    rw [leNat, ih hbs, eq_of_beq hb]
    rfl

/-! ### The checks of JOIN_CONFIG (11 R367) -/

/-- What JOIN_CONFIG checks. -/
def joinChecks (s : State) (p : List Byte) : List (Bool × Status × Nat) :=
  [(p.length != 16, badLength), (!allZero (slice p 2 2), badReserved), (decide (2 < u8 p 0), badRange),
    (u8 p 0 != 1 && !allZero (p.drop 1), badReserved),
    (u8 p 0 == 1 && !joinRange s (u8 p 1) (u32 p 8) (u32 p 12), badRange),
    (u8 p 0 != 0 && joinBusy s, .contextBusy, 0x0360)]

theorem joinChecks_unqueue (s : State) (r : Req) (op : Nat) (p : List Byte) : joinChecks (unqueue s r op) p = joinChecks s p := by
  obtain ⟨_, _, _, h⟩ := unqueue_only s r op
  rw [h]
  rfl

theorem joinBytes_unqueue (s : State) (r : Req) (op : Nat) : joinBytes (unqueue s r op) = joinBytes s := by
  obtain ⟨_, _, _, h⟩ := unqueue_only s r op
  rw [h]
  rfl

section
variable {s : State} {p : List Byte} (hlen : p.length = 16)
include hlen

theorem joinChecks_read (hzero : allZero p = true) : firstErr (joinChecks s p) = none := by
  have haction : u8 p 0 = 0 := leNat_allZero (allZero_slice hzero 0 1)
  have htail : allZero p.tail = true := by rw [← List.drop_one, allZero_drop hzero]
  simp [joinChecks, firstErr_cons, firstErr, hlen, allZero_slice hzero, haction, htail]

theorem joinChecks_set (haction : u8 p 0 = 1) (hzero : allZero (slice p 2 2) = true)
    (hrange : joinRange s (u8 p 1) (u32 p 8) (u32 p 12) = true) (hfree : joinBusy s = false) : firstErr (joinChecks s p) = none := by
  simp [joinChecks, firstErr_cons, firstErr, hlen, hzero, haction, hrange, hfree]

theorem joinChecks_leave (haction : u8 p 0 = 2) (hzero : allZero (p.drop 1) = true) (hfree : joinBusy s = false) :
    firstErr (joinChecks s p) = none := by
  have hreserved : allZero (slice p 2 2) = true := by
    have hslice := allZero_slice hzero 1 2
    rwa [slice, List.drop_drop] at hslice
  rw [List.drop_one] at hzero
  simp [joinChecks, firstErr_cons, firstErr, hlen, hreserved, haction, hzero, hfree]

end

/-! ### What JOIN_CONFIG does (11 R367, 12 R385, R393) -/

/-- An ACTIVE port sends the LEAVE notice. -/
def leaveNotice (s : State) (n : Nat) : State := if (port s n).st == .active then sendCtrl s n false 2 else s

/-- The module is SINGLE again; what it knows to be lost stays. -/
def single (s : State) : State :=
  { s with join := { nextTag := s.join.nextTag, lost := s.join.lost, lostFirst := s.join.lostFirst } }

/-- LEAVE. -/
def joinLeft (s : State) : State := unjoinPorts (dropSlots (single (each (joinedPorts s) s leaveNotice)) .join)

/-- The join that a SET enters. -/
def joinOfSet (r : Req) (p : List Byte) (s : State) : Join :=
  { nextTag := s.join.nextTag, st := .joining, topology := u8 p 1, systemId := w32 p 4, count := u32 p 8, self := u32 p 12,
    setReq := some r }

/-- SET, before a self-test starts. -/
def joinSet (r : Req) (p : List Byte) (s : State) : State :=
  retrainMembers (giveSlots (unjoinPorts (hold { s with join := joinOfSet r p s } r 0xA0 none none)) .join (forwardPaths (u8 p 1)))

/-- A JOIN_CONFIG that passes its checks reads the join, leaves it or sets it. -/
theorem exec_joinConfig {s : State} {r : Req} {p : List Byte} (hready : Ready s r 0xA0 none none)
    (hpass : firstErr (joinChecks s p) = none) : exec (.joinConfig r p) s = .next (
      if u8 p 0 = 0 then reply (unqueue s r 0xA0) r 0xA0 .ok 0 (joinBytes (unqueue s r 0xA0))
      else if u8 p 0 = 2 then reply (joinLeft (unqueue s r 0xA0)) r 0xA0 .ok 0 (joinBytes (joinLeft (unqueue s r 0xA0)))
      else startSelfTest (joinSet r p (unqueue s r 0xA0))) := by
  rw [← joinChecks_unqueue s r 0xA0] at hpass
  change execJoinConfig r p s = _
  rw [execJoinConfig, serve_ready hready]
  exact congrArg Host.Outcome.next (checked_pass hpass)

/-! ### LEAVE (12 R393) -/

theorem sends_leaveNotice (s : State) (n : Nat) : Sends s (leaveNotice s n) := by
  unfold leaveNotice
  split
  · exact sends_sendCtrl ..
  · exact .refl s

theorem out_leaveNotice {s : State} {x : Out} (h : x ∈ s.out) (n : Nat) : x ∈ (leaveNotice s n).out := by
  unfold leaveNotice
  split
  · exact List.mem_cons_of_mem _ h
  · exact h

theorem out_leaveNotices {s : State} {x : Out} (h : x ∈ s.out) (l : List Nat) : x ∈ (each l s leaveNotice).out :=
  List.foldlRecOn (motive := fun t => x ∈ t.out) l leaveNotice h (fun _ ht n _ => out_leaveNotice ht n)

/-- A LEAVE notice goes out on every ACTIVE port named. -/
theorem leaveNotices_sent {l : List Nat} {s : State} {n : Nat} (hn : n ∈ l) (hactive : (port s n).st = .active) :
    ∃ f : CtrlFlit, Out.ctrl n f ∈ (each l s leaveNotice).out ∧ f.notice = 2 := by
  induction l generalizing s with
  | nil => exact absurd hn List.not_mem_nil
  | cons k l ih =>
    rcases List.mem_cons.mp hn with rfl | hrest
    · have hsent : leaveNotice s n = sendCtrl s n false 2 := if_pos (by rw [hactive]; rfl)
      refine ⟨ctrlFlit (port s n) false 2, out_leaveNotices ?_ l, rfl⟩
      rw [hsent]
      exact List.mem_cons_self
    · exact ih hrest (by rw [(sends_leaveNotice s k).st, hactive])

theorem partnerJoined_unjoinPorts (s : State) (n : Nat) : (port (unjoinPorts s) n).partnerJoined = false := by
  rw [port, unjoinPorts, lookupD, lookup_map s.ports (fun p => ({ p with partnerJoined := false } : Port))]
  cases lookup s.ports n with
  | none => rfl
  | some p => rfl

theorem joinLeft_join (s : State) : (joinLeft s).join = (single s).join := by
  have hsent : Sends s (each (joinedPorts s) s leaveNotice) := Sends.each sends_leaveNotice _ s
  change (single _).join = _
  rw [single, hsent.join, single]

theorem unjoinPorts_single_out (s : State) : (unjoinPorts (dropSlots (single s) .join)).out = s.out := rfl

theorem joinLeft_out (s : State) : (joinLeft s).out = (each (joinedPorts s) s leaveNotice).out := unjoinPorts_single_out _

/-! ### SET (12 R385, R393) -/

theorem applyHeld_ports (s : State) (due : Nat → Bool) (mask : Nat → Nat) : (applyHeld s due mask).ports = s.ports :=
  each_keeps State.ports (fun _ _ => setReg_ports ..) _ _

theorem applyHeld_join (s : State) (due : Nat → Bool) (mask : Nat → Nat) : (applyHeld s due mask).join = s.join :=
  each_keeps State.join (fun _ _ => setReg_join ..) _ _

theorem startTraining_join (s : State) (n : Nat) : (startTraining s n).join = s.join := by
  rw [startTraining, trainingBoundary, applyHeld_join, modPort_join]
  split
  · exact bump_join ..
  · rfl

/-- Training leaves what the ends of a port have agreed. -/
theorem startTraining_partnerJoined (s : State) (n k : Nat) : (port (startTraining s n) k).partnerJoined = (port s k).partnerJoined := by
  have hport (t : State) (ht : t.ports = s.ports) : port t = port s := by
    unfold port
    rw [ht]
  have hbump : port (if (port s n).everActive then bump s (portReg n 0x2C) 1 else s) = port s := by
    split
    · exact hport _ (bump_ports ..)
    · rfl
  unfold startTraining trainingBoundary
  dsimp only
  generalize (if (port s n).everActive = true then bump s (portReg n 0x2C) 1 else s) = t at hbump
  rw [port, applyHeld_ports, ← port]
  by_cases hk : k = n
  · rw [hk, port_modPort_same, hbump]
  · rw [modPort, port_setPort_other _ _ hk, hbump]

theorem joinSet_join (r : Req) (p : List Byte) (s : State) : (joinSet r p s).join = joinOfSet r p s := by
  have htrained (t : State) : (retrainMembers t).join = t.join := each_keeps State.join startTraining_join _ t
  rw [joinSet, htrained]
  exact hold_join ..

/-- No port is joined after a SET. -/
theorem joinSet_partnerJoined (r : Req) (p : List Byte) (s : State) (n : Nat) : (port (joinSet r p s) n).partnerJoined = false := by
  have htrained (t : State) : (port (retrainMembers t) n).partnerJoined = (port t n).partnerJoined :=
    each_keeps (fun t => (port t n).partnerJoined) (fun t k => startTraining_partnerJoined t k n) _ t
  rw [joinSet, htrained]
  exact partnerJoined_unjoinPorts _ n

/-! ### The joined self-test starts (12 R393) -/

/-- 1 MiB of SELFTEST traffic leaves on a port. -/
def selfTestTraffic (s : State) (n : Nat) : State :=
  each (List.range 256) s (fun s _ => sendMsg s n (leashMsg s n 0 0x09 ((memberAt s n).getD 0) 0 0 (zeros 4096)))

/-- A barrier of the self-test is entered. -/
def enterSelfBarrier (s : State) (k : Nat) : State := enterBarrier s (selfBarrierId k) 0 none

/-- The self-test runs, and its traffic has left. -/
def selfTestSent (s : State) : State :=
  each (joinedPorts s) { s with join := { s.join with selfTest := true, selfBytes := 0 } } selfTestTraffic

theorem startSelfTest_ready {s : State} (hjoining : s.join.st = .joining) (hidle : s.join.selfTest = false) (hready : joinReady s = true) :
    startSelfTest s = each (List.range 16) (selfTestSent s) enterSelfBarrier :=
  if_pos ⟨hjoining, hidle, hready⟩

theorem startSelfTest_waits {s : State} (h : joinReady s = false) : startSelfTest s = s :=
  if_neg (fun ⟨_, _, hready⟩ => by rw [h] at hready; cases hready)

theorem sends_selfTestTraffic (s : State) (n : Nat) : Sends s (selfTestTraffic s n) := Sends.each (fun _ _ => sends_sendMsg ..) _ s

theorem sends_selfTestSent (s : State) :
    Sends { s with join := { s.join with selfTest := true, selfBytes := 0 } } (selfTestSent s) :=
  Sends.each sends_selfTestTraffic _ _

/-- A join whose ports are not joined waits for its members, unless it has no other member. -/
theorem joinReady_unjoined {s : State} (hports : ∀ n, (port s n).partnerJoined = false) (htopology : s.join.topology ≠ 0) :
    joinReady s = false := by
  simp [joinReady, portPassed, hports, htopology]

/-! ### The barriers of the self-test (12 R389, R393) -/

/-- Of the join, the barriers alone may differ. -/
def BarriersOnly (s t : State) : Prop := t.join = { s.join with barriers := t.join.barriers }

theorem BarriersOnly.trans {s t u : State} (h : BarriersOnly s t) (g : BarriersOnly t u) : BarriersOnly s u := by
  unfold BarriersOnly at *
  rw [g, h]

theorem Sends.barriersOnly {s t : State} (h : Sends s t) : BarriersOnly s t := by
  rw [BarriersOnly, h.join]

theorem advance_barriersOnly {b : Barrier} (hnone : b.r = none) (k : Nat) (s : State) : BarriersOnly s (advance k s b) := by
  induction k generalizing s b with
  | zero => rfl
  | succ k ih =>
    unfold advance
    split
    · rw [barrierReply, hnone]
      rfl
    · split
      · refine BarriersOnly.trans (t := setBarrier s (nextRound b)) rfl (BarriersOnly.trans ?_ (ih (b := nextRound b) hnone _))
        split
        · exact (sends_sendRound ..).barriersOnly
        · rfl
      · rfl

theorem enterSelfBarrier_barriersOnly (s : State) (k : Nat) : BarriersOnly s (enterSelfBarrier s k) := by
  refine BarriersOnly.trans ?_ (advance_barriersOnly rfl 20 _)
  split
  · exact BarriersOnly.trans rfl (sends_sendRound (entered s ⟨selfBarrierId k, 0, none, 0, heldRounds s (selfBarrierId k) 0⟩) _).barriersOnly
  · rfl

theorem enterSelfBarriers_barriersOnly (l : List Nat) (s : State) : BarriersOnly s (each l s enterSelfBarrier) :=
  List.foldlRecOn (motive := BarriersOnly s) l enterSelfBarrier rfl (fun t ht k _ => ht.trans (enterSelfBarrier_barriersOnly t k))

/-- The barrier that the self-test enters, and that waits for its first arrival. -/
def selfBarrier (k : Nat) : Barrier := ⟨selfBarrierId k, 0, none, 0, []⟩

/-- Nothing is held for a barrier when no port holds an arrival notice for it. -/
theorem heldRounds_eq_nil {s : State} {id : Word} {scope : Nat} :
    heldRounds s id scope = [] ↔ ∀ e ∈ s.ports, ∀ m ∈ e.2.barrierMsgs, noticeFor s id scope m = false := by
  simp [heldRounds, List.filter_eq_nil_iff]

theorem Sends.heldRounds {s t : State} (h : Sends s t) {id : Word} {scope : Nat} (hnone : heldRounds s id scope = []) :
    heldRounds t id scope = [] := by
  refine heldRounds_eq_nil.mpr (fun e he m hm => ?_)
  rw [noticeFor_congr h.join]
  rcases h.held e he with hempty | ⟨d, hd, hsame⟩
  · rw [hempty] at hm
    exact absurd hm List.not_mem_nil
  · exact heldRounds_eq_nil.mp hnone d hd m (hsame ▸ hm)

theorem heldRounds_entered {s : State} {id : Word} {scope : Nat} (hnone : heldRounds s id scope = []) (b : Barrier) :
    heldRounds (entered s b) id scope = [] := by
  refine heldRounds_eq_nil.mpr (fun e he m hm => ?_)
  obtain ⟨d, hd, rfl⟩ := List.mem_map.mp he
  exact heldRounds_eq_nil.mp hnone d hd m (List.mem_filter.mp hm).1

/-- Barriers that no arrival was held for wait for their first. -/
theorem enterSelfBarriers_wait {l : List Nat} {s : State} (hrounds : 0 < roundsOf s 0) (hheld : ∀ k ∈ l, heldRounds s (selfBarrierId k) 0 = []) :
    (each l s enterSelfBarrier).join.barriers = s.join.barriers ++ l.map selfBarrier := by
  induction l generalizing s with
  | nil => exact (List.append_nil _).symm
  | cons k l ih =>
    have hsent := sends_sendRound (entered s (selfBarrier k)) (selfBarrier k)
    have hfirst : enterSelfBarrier s k = sendRound (entered s (selfBarrier k)) (selfBarrier k) :=
      enterBarrier_waits none (hheld k List.mem_cons_self) hrounds
    have hrest := ih (s := enterSelfBarrier s k)
      (by rw [hfirst, roundsOf_congr hsent.join]; exact hrounds)
      (fun j hj => by rw [hfirst]; exact hsent.heldRounds (heldRounds_entered (hheld j (List.mem_cons_of_mem _ hj)) _))
    refine hrest.trans ?_
    rw [hfirst, hsent.join, List.map_cons, ← List.singleton_append, ← List.append_assoc]
    rfl

/-- A join of more than one member has rounds. -/
theorem roundsOf_pos {s : State} (h : 1 < s.join.count) : 0 < roundsOf s 0 := by
  rw [roundsOf, if_pos rfl]
  cases hfind : (List.range 19).find? (fun n => s.join.count ≤ 2 ^ n) with
  | none => decide
  | some n =>
    have hfits : s.join.count ≤ 2 ^ n := by simpa using List.find?_some hfind
    refine Nat.pos_of_ne_zero (fun hzero => ?_)
    rw [show n = 0 from hzero] at hfits
    omega

/-- A join of one member has no rounds. -/
theorem roundsOf_alone {s : State} (h : s.join.count = 1) : roundsOf s 0 = 0 := by
  rw [roundsOf, h]
  rfl

/-- The barrier that the self-test enters, with the arrivals held for it. -/
def selfBarrierHeld (s : State) (k : Nat) : Barrier := ⟨selfBarrierId k, 0, none, 0, heldRounds s (selfBarrierId k) 0⟩

/-- A barrier without rounds is released as it is entered. -/
theorem enterSelfBarrier_alone {s : State} (k : Nat) (hcount : s.join.count = 1) :
    enterSelfBarrier s k = dropBarrier (entered s (selfBarrierHeld s k)) (selfBarrierId k) := by
  have hrounds : roundsOf (entered s (selfBarrierHeld s k)) 0 = 0 := roundsOf_alone hcount
  have hstart : enterSelfBarrier s k = advance 20 (entered s (selfBarrierHeld s k)) (selfBarrierHeld s k) :=
    congrArg (advance 20 · (selfBarrierHeld s k)) (if_neg (Nat.not_lt.mpr (Nat.le_of_eq hrounds)))
  rw [hstart, advance_release (b := selfBarrierHeld s k) (Nat.le_of_eq hrounds)]
  rfl

/-- The one member of a join enters and leaves the barriers of the self-test, and nothing of the join changes. -/
theorem enterSelfBarrier_alone_join {s : State} (k : Nat) (hcount : s.join.count = 1) (hnone : s.join.barriers = []) :
    (enterSelfBarrier s k).join = s.join := by
  have hdropped : (s.join.barriers ++ [selfBarrierHeld s k]).filter (fun x => x.id != selfBarrierId k) = s.join.barriers := by
    rw [hnone]
    simp [selfBarrierHeld]
  rw [enterSelfBarrier_alone k hcount]
  change { s.join with barriers := (s.join.barriers ++ [selfBarrierHeld s k]).filter (fun x => x.id != selfBarrierId k) } = s.join
  rw [hdropped]

theorem partnerJoined_entered (s : State) (b : Barrier) (n : Nat) : (port (entered s b) n).partnerJoined = (port s n).partnerJoined := by
  rw [port, entered, lookupD,
    lookup_map s.ports (fun p => ({ p with barrierMsgs := p.barrierMsgs.filter (fun m => m.tag != b.id) } : Port)), port, lookupD]
  cases lookup s.ports n with
  | none => rfl
  | some p => rfl

theorem enterSelfBarrier_alone_partnerJoined {s : State} (k : Nat) (hcount : s.join.count = 1) (n : Nat) :
    (port (enterSelfBarrier s k) n).partnerJoined = (port s n).partnerJoined := by
  rw [enterSelfBarrier_alone k hcount]
  exact partnerJoined_entered ..

/-- The self-test of a join of one member sends nothing and holds no barrier. -/
theorem startSelfTest_alone {s : State} (hjoining : s.join.st = .joining) (hidle : s.join.selfTest = false)
    (htopology : s.join.topology = 0) (hcount : s.join.count = 1) (hnone : s.join.barriers = [])
    (hports : ∀ n, (port s n).partnerJoined = false) :
    (∀ n, (port (startSelfTest s) n).partnerJoined = false) ∧
      (startSelfTest s).join = { s.join with selfTest := true, selfBytes := 0 } := by
  have hready : joinReady s = true := by rw [joinReady, htopology]; rfl
  have hunjoined : joinedPorts s = [] := by simp [joinedPorts, hports]
  have hsent : selfTestSent s = { s with join := { s.join with selfTest := true, selfBytes := 0 } } := by
    rw [selfTestSent, hunjoined]
    rfl
  rw [startSelfTest_ready hjoining hidle hready, hsent]
  refine List.foldlRecOn (motive := fun t => (∀ n, (port t n).partnerJoined = false) ∧
    t.join = { s.join with selfTest := true, selfBytes := 0 }) _ enterSelfBarrier ⟨hports, rfl⟩ (fun t ht k _ => ?_)
  obtain ⟨htports, htjoin⟩ := ht
  have htcount : t.join.count = 1 := by rw [htjoin, ← hcount]
  exact ⟨fun n => (enterSelfBarrier_alone_partnerJoined k htcount n).trans (htports n),
    (enterSelfBarrier_alone_join k htcount (by rw [htjoin, ← hnone])).trans htjoin⟩

/-! ### The end of a SET (12 R393) -/

/-- The join has ended, before SET replies. -/
def joinEnded (s : State) (ok : Bool) : State :=
  { s with join := { s.join with st := if ok then .complete else .incomplete, setReq := none, selfTest := false } }

/-- A SET that waits replies as the join ends. -/
theorem endJoin_eq (s : State) (ok : Bool) : endJoin s ok = s.join.setReq.elim (joinEnded s ok) (fun r =>
    if ok then reply (joinEnded s ok) r 0xA0 .ok 0 (joinBytes (joinEnded s ok))
    else reply (joinEnded s ok) r 0xA0 .joinIncomplete 0x0350 (joinBytes (joinEnded s ok))) := by
  unfold endJoin
  cases s.join.setReq with
  | none => rfl
  | some r => rfl

/-- The members that the wait did not find are counted. -/
def missingCounted (s : State) : State := { s with join := { s.join with missing := membersMissing s } }

/-- The barriers of the self-test are over. -/
def selfBarriersOver (s : State) : State :=
  { s with join := { s.join with barriers := s.join.barriers.filter (fun b => b.r.isSome) } }

section
variable {s : State} (hjoining : s.join.st = .joining)
include hjoining

theorem exec_joinWaitTimeout_missing (hidle : s.join.selfTest = false) (hready : joinReady s = false) :
    exec .joinWaitTimeout s = .next (endJoin (missingCounted s) false) := by
  change execJoinWaitTimeout s = _
  rw [execJoinWaitTimeout, if_pos ⟨hjoining, hidle⟩, hready]
  rfl

theorem exec_joinWaitTimeout_ready (hidle : s.join.selfTest = false) (hready : joinReady s = true) :
    exec .joinWaitTimeout s = .next (each (List.range 16) (selfTestSent s) enterSelfBarrier) := by
  change execJoinWaitTimeout s = _
  rw [execJoinWaitTimeout, if_pos ⟨hjoining, hidle⟩, hready, ← startSelfTest_ready hjoining hidle hready]
  rfl

theorem exec_joinSelftestDone (passed : Bool) (htest : s.join.selfTest = true) : exec (.joinSelftestDone passed) s =
    .next (endJoin (selfBarriersOver s) (passed && selfTestDone s)) :=
  congrArg Host.Outcome.next (if_pos ⟨hjoining, htest⟩)

end

end Sys2Proof.Machine

open Sys2Proof Sys2Proof.Machine

/-- Settles O52: JOIN_CONFIG reads, sets and leaves the join (`exec_joinConfig`), the self-test enters its barriers
(`enterSelfBarriers_wait`, `startSelfTest_alone`), and its result or the wait ends the SET (`endJoin_eq`). -/
theorem joiningCompletesOrFails : Obligations.JoiningCompletesOrFails := by
  refine ⟨fun s r p hready hlen => ⟨?read, ?set, ?alone, ?leave⟩, fun s hjoining hidle => ⟨?missing, ?tests⟩, ?done, ?traffic, fun _ _ => rfl⟩
  case read =>
    intro hzero
    have haction : u8 p 0 = 0 := leNat_allZero (allZero_slice hzero 0 1)
    rw [exec_joinConfig hready (joinChecks_read hlen hzero), if_pos haction, joinBytes_unqueue]
  case set =>
    intro haction htopology hzero hrange hfree
    have hexec := exec_joinConfig hready (joinChecks_set hlen haction hzero hrange hfree)
    have hports := joinSet_partnerJoined r p (unqueue s r 0xA0)
    have hjoin := joinSet_join r p (unqueue s r 0xA0)
    rw [haction, if_neg (by decide), if_neg (by decide), startSelfTest_waits (joinReady_unjoined hports (by rw [hjoin]; exact htopology))]
      at hexec
    exact ⟨_, hexec, hports, by rw [hjoin, joinOfSet, unqueue_join]⟩
  case alone =>
    intro haction htopology hzero hrange hfree
    have hexec := exec_joinConfig hready (joinChecks_set hlen haction hzero (by rw [htopology]; exact hrange) hfree)
    obtain ⟨hself, hcount⟩ : u32 p 12 = 0 ∧ u32 p 8 = 1 := by
      simp only [joinRange, Bool.and_eq_true, decide_eq_true_eq, beq_iff_eq] at hrange
      omega
    have hjoin := joinSet_join r p (unqueue s r 0xA0)
    obtain ⟨hports, htest⟩ := startSelfTest_alone (s := joinSet r p (unqueue s r 0xA0)) (by rw [hjoin]; rfl) (by rw [hjoin]; rfl)
      (by rw [hjoin]; exact htopology) (by rw [hjoin]; exact hcount) (by rw [hjoin]; rfl) (joinSet_partnerJoined r p _)
    rw [haction, if_neg (by decide), if_neg (by decide)] at hexec
    exact ⟨_, hexec, hports, by rw [htest, hjoin, joinOfSet, unqueue_join, htopology, hself, hcount]⟩
  case leave =>
    intro haction hzero hfree
    have hexec := exec_joinConfig hready (joinChecks_leave hlen haction hzero hfree)
    rw [haction, if_neg (by decide), if_pos rfl] at hexec
    refine ⟨_, hexec, partnerJoined_unjoinPorts _, by rw [joinLeft_join, single, unqueue_join], fun n hn hactive => ?_⟩
    have hport (k : Nat) : port (unqueue s r 0xA0) k = port s k := by rw [port, unqueue_ports, ← port]
    rw [joinLeft_out]
    exact leaveNotices_sent (by simpa only [joinedPorts, hport] using hn) (by rw [hport, hactive])
  case missing =>
    intro hready
    exact ⟨joinEnded (missingCounted s) false, rfl,
      (exec_joinWaitTimeout_missing hjoining hidle hready).trans (congrArg Host.Outcome.next (endJoin_eq (missingCounted s) false))⟩
  case tests =>
    intro hready
    have hsent := sends_selfTestSent s
    have hkept := enterSelfBarriers_barriersOnly (List.range 16) (selfTestSent s)
    rw [BarriersOnly, hsent.join] at hkept
    refine ⟨_, exec_joinWaitTimeout_ready hjoining hidle hready, ?_, ?_, ?_, ?_, fun hcount hheld => ?_⟩
    · rw [hkept, ← hjoining]
    · rw [hkept]
    · rw [hkept]
    · rw [hkept]
    · refine (enterSelfBarriers_wait (roundsOf_pos (by rw [hsent.join]; exact hcount)) (fun k hk => ?_)).trans (by rw [hsent.join]; rfl)
      exact hsent.heldRounds (hheld k (List.mem_range.mp hk))
  case done =>
    intro s passed hjoining htest ok
    exact ⟨joinEnded (selfBarriersOver s) ok, rfl,
      (exec_joinSelftestDone hjoining passed htest).trans (congrArg Host.Outcome.next (endJoin_eq (selfBarriersOver s) ok))⟩
  case traffic =>
    intro s m harrives
    have hsent := sends_afterFlits s m
    refine ⟨_, congrArg Host.Outcome.next (receiveMsg_arrives harrives _), ?_, hsent.hbm⟩
    dsimp only
    rw [hsent.join]
end

section
/-!
PROOFS. The canonical form of HBM and of the scratchpads holds at reset and is kept by every step (13 R406, R414, R417).

`State.Inv` speaks of two fields. The few operations that write one of them keep its form by the laws of memory; every other
function of the model only rebuilds the record around them, so one lemma per function (`<function>_inv`), in the model's order,
follows the function's own branches and cites the lemmas of the functions it calls. `exec_inv` joins the rows.
-/

namespace Sys2Proof.Machine

/-- A state that keeps `hbm` and `spad` keeps the canonical form, whatever its other fields are. -/
theorem inv_update {s : State}
    {pending rtc gptp regs heldRegs paths sessions openQueue turn taken nonces auths cbSeen meters eth unsent models
      modelGens ctxs ctxGens marks spadMarks otherMarks writeBacks walkers moves fills loads saves destroys progs drains
      map cores slots faults trail power sec ent ports join side tap out free}
    (h : s.Inv) :
    State.Inv ⟨pending, rtc, gptp, regs, heldRegs, paths, sessions, openQueue, turn, taken, nonces, auths, cbSeen,
      meters, eth, unsent, models, modelGens, ctxs, ctxGens, s.hbm, marks, s.spad, spadMarks, otherMarks, writeBacks,
      walkers, moves, fills, loads, saves, destroys, progs, drains, map, cores, slots, faults, trail, power, sec, ent,
      ports, join, side, tap, out, free⟩ := h

theorem inv_ite {c : Prop} {_ : Decidable c} {a b : State} (ha : a.Inv) (hb : b.Inv) : (if c then a else b).Inv := by
  split <;> assumption

theorem inv_ite_snd {α : Type} {c : Prop} {_ : Decidable c} {a b : α × State} (ha : a.2.Inv) (hb : b.2.Inv) :
    (if c then a else b).2.Inv := by
  split <;> assumption

theorem inv_ite_pair {α : Type} {c : Prop} {_ : Decidable c} {x y : α} {a b : State} (ha : a.Inv) (hb : b.Inv) :
    (if c then (x, a) else (y, b)).2.Inv := by
  split <;> assumption

theorem inv_ite_fst {α : Type} {c : Prop} {_ : Decidable c} {a b : State × α} (ha : a.1.Inv) (hb : b.1.Inv) :
    (if c then a else b).1.Inv := by
  split <;> assumption

theorem inv_ite_snd_snd {α β : Type} {c : Prop} {_ : Decidable c} {a b : α × β × State}
    (ha : a.2.2.Inv) (hb : b.2.2.Inv) :
    (if c then a else b).2.2.Inv := by
  split <;> assumption

theorem elim_inv {α : Type} {o : Option α} {a : State} {f : α → State} (ha : a.Inv) (hf : ∀ x, (f x).Inv) :
    (o.elim a f).Inv := by
  cases o
  · exact ha
  · exact hf _

theorem each_inv {α : Type} {l : List α} {f : State → α → State} {s : State} (h : s.Inv)
    (hf : ∀ {u : State} {x : α}, u.Inv → (f u x).Inv) : (each l s f).Inv :=
  List.foldlRecOn l f h fun _ hu _ _ => hf hu

/-- What a row may lead to: a next state, if there is one, in canonical form. -/
def KeepsInv (o : Result) : Prop := ∀ t, o = .next t → t.Inv

theorem keepsInv_next {t : State} (h : t.Inv) : KeepsInv (.next t) := by
  intro u hu
  cases hu
  exact h

theorem keepsInv_ite {c : Prop} {_ : Decidable c} {a b : Result} (ha : KeepsInv a) (hb : KeepsInv b) :
    KeepsInv (if c then a else b) := by
  split <;> assumption

theorem filter_wf {m : List Host.Cell} (h : Memory.wf m) (p : Host.Cell → Bool) : Memory.wf (m.filter p) := by
  rw [Memory.wf, rising_iff] at *
  exact h.filter p

/-- A register access that succeeds leaves a state in canonical form. -/
def OkInv (x : Access) : Prop := ∀ v, x = .ok v → v.2.Inv

/-- A register access, with the state it leaves when it fails, in canonical form. -/
def AccessInv (r : Access × State) : Prop := OkInv r.1 ∧ r.2.Inv

theorem okInv_ok {w : Nat} {t : State} (h : t.Inv) : OkInv (.ok (w, t)) := by
  intro u hu
  cases hu
  exact h

theorem okInv_error {e : Status × Nat} : OkInv (.error e) := fun _ hv => absurd hv (by simp)

theorem accessInv_ok {w : Nat} {t s : State} (ht : t.Inv) (h : s.Inv) : AccessInv (.ok (w, t), s) := ⟨okInv_ok ht, h⟩

theorem accessInv_error {e : Status × Nat} {s : State} (h : s.Inv) : AccessInv (.error e, s) := ⟨okInv_error, h⟩

theorem accessInv_ite {c : Prop} [Decidable c] {a b : Access × State} (ha : AccessInv a) (hb : AccessInv b) :
    AccessInv (if c then a else b) := by
  split <;> assumption

theorem okInv_ite {c : Prop} {_ : Decidable c} {x y : Access} (hx : OkInv x) (hy : OkInv y) :
    OkInv (if c then x else y) := by
  split <;> assumption

section
variable {s : State}

/-! ### The operations on the state -/

theorem setReg_inv {a v : Nat} (h : s.Inv) : (setReg s a v).Inv := inv_ite (inv_update h) (inv_update h)

theorem orReg_inv {a bits : Nat} (h : s.Inv) : (orReg s a bits).Inv := setReg_inv h

theorem bump_inv {a n : Nat} (h : s.Inv) : (bump s a n).Inv := setReg_inv h

theorem bump64_inv {lo n : Nat} (h : s.Inv) : (bump64 s lo n).Inv := setReg_inv (setReg_inv h)

theorem forgetItems_inv {f : WorkItem → Bool} (h : s.Inv) : (forgetItems s f).Inv := inv_update h

theorem workEvent_inv {repro : Bool} {bit : Nat} (h : s.Inv) : (workEvent repro s bit).Inv := inv_ite (orReg_inv h) h

theorem reproEvent_inv {bit : Nat} (h : s.Inv) : (reproEvent s bit).Inv := inv_ite (orReg_inv h) h

theorem enqueueRec_inv {r : Rec} (h : s.Inv) : (enqueueRec s r).Inv :=
  inv_ite (inv_update h) (inv_ite (bump_inv h) (inv_update h))

theorem event_inv {code severity unit context : Nat} {detail : List Byte} (h : s.Inv) :
    (event s code severity unit context detail).Inv := enqueueRec_inv h

theorem endInterval_inv {key : IntervalKey} (h : s.Inv) : (endInterval s key).Inv := by
  unfold endInterval
  split
  · exact h
  exact enqueueRec_inv (inv_update h)

theorem coalesce_inv {key : IntervalKey} {code severity unit : Nat} {detail : List Byte} (h : s.Inv) :
    (coalesce s key code severity unit detail).Inv := by
  unfold coalesce
  dsimp only
  refine inv_ite (inv_update h) ?_
  split
  · exact inv_update h
  exact inv_update (endInterval_inv h)

theorem writeRec_inv {r : Rec} (h : s.Inv) : (writeRec s r).Inv := inv_ite (bump_inv h) (inv_update h)

theorem modCore_inv {p : Nat} {f : Core → Core} (h : s.Inv) : (modCore s p f).Inv := inv_update h

theorem inBand_inv {b : Byte} (h : s.Inv) : (inBand s b).Inv := inv_ite (inv_update h) h

/-! ### Memory and its marks -/

theorem recordLast_inv {u : MemUnit} {a kind : Nat} (h : s.Inv) : (recordLast s u a kind).Inv :=
  setReg_inv (setReg_inv h)

theorem memTrail_inv {u : MemUnit} {a kind : Nat} (h : s.Inv) : (memTrail s u a kind).Inv := coalesce_inv h

theorem memEvent_inv {u : MemUnit} {a kind : Nat} (h : s.Inv) : (memEvent s u a kind).Inv :=
  memTrail_inv (recordLast_inv h)

theorem corrected_inv {u : MemUnit} {a : Nat} {first : Bool} (h : s.Inv) : (corrected s u a first).Inv := by
  obtain ⟨_, _, _, hread⟩ := corrected_only s u a first
  rw [hread]
  exact h

theorem badRead_inv {u : MemUnit} {a : Nat} {m : Option WordClass} (h : s.Inv) : (badRead s u a m).Inv := by
  unfold badRead
  dsimp only
  split
  · exact memEvent_inv (bump_inv h)
  · exact memEvent_inv (bump_inv h)
  · exact memEvent_inv (bump_inv (bump_inv h))
  exact memEvent_inv (bump_inv h)

theorem setMarks_inv {u : MemUnit} {m : Map WordClass} (h : s.Inv) : (setMarks s u m).Inv := by
  unfold setMarks
  split <;> exact inv_update h

theorem readPart_inv {a len : Nat} (h : s.Inv) : (readPart s a len).2.2.Inv := by
  obtain ⟨_, _, _, hread⟩ := readPart_only s a len
  rw [hread]
  exact h

theorem readHbm_inv {a len : Nat} (h : s.Inv) : (readHbm s a len).2.Inv := readPart_inv h

theorem writeWords_inv {a : Nat} {bs : List Byte} (h : s.Inv) : (writeWords s a bs).Inv := by
  refine ⟨writeWords_wf h.1 a bs, ?_⟩
  obtain ⟨_, _, _, hwrite⟩ := writeWords_only s a bs
  rw [hwrite]
  exact h.2

theorem narrowWrite_inv {a : Nat} {bs : List Byte} (h : s.Inv) : (narrowWrite s a bs).Inv := by
  refine ⟨narrowWrite_wf h.1 a bs, ?_⟩
  obtain ⟨_, _, _, _, _, hwrite⟩ := narrowWrite_only s a bs
  rw [hwrite]
  exact h.2

theorem writeHbm_inv {a : Nat} {bs : List Byte} (h : s.Inv) : (writeHbm s a bs).Inv :=
  narrowWrite_inv (writeWords_inv (narrowWrite_inv h))

theorem writeSpad_inv {p a : Nat} {bs : List Byte} (h : s.Inv) : (writeSpad s p a bs).Inv :=
  ⟨by rw [writeSpad_hbm]; exact h.1, writeSpad_wf h.2 p a bs⟩

theorem readSpad_inv {p a n : Nat} (h : s.Inv) : (readSpad s p a n).2.Inv := by
  obtain ⟨_, _, _, hread⟩ := readSpad_only s p a n
  rw [hread]
  exact h

theorem strikeWord_inv {u : MemUnit} {a : Nat} {cls : WordClass} (h : s.Inv) : (strikeWord u s a cls).Inv :=
  strikeWord_wf h.1 h.2 u a cls

/-! ### Replies and the checks of a command -/

theorem setPort_inv {p : Nat} {v : Port} (h : s.Inv) : (setPort s p v).Inv := inv_update h

theorem modPort_inv {p : Nat} {f : Port → Port} (h : s.Inv) : (modPort s p f).Inv := setPort_inv h

theorem freeFlits_inv {n vl k : Nat} (h : s.Inv) : (freeFlits s n vl k).Inv := modPort_inv h

theorem pump_inv {n : Nat} (h : s.Inv) : (pump s n).Inv := by
  obtain ⟨_, _, hpump⟩ := pump_only s n
  rw [hpump]
  exact h

theorem firstWhistle_inv {n : Nat} (h : s.Inv) : (firstWhistle s n).Inv := inv_ite (inv_update (modPort_inv h)) h

theorem queueMsg_inv {n : Nat} {m : LeashMsg} {origin : Option Nat} (h : s.Inv) : (queueMsg s n m origin).Inv :=
  pump_inv (firstWhistle_inv (modPort_inv h))

theorem sendMsg_inv {n : Nat} {m : LeashMsg} (h : s.Inv) : (sendMsg s n m).Inv := queueMsg_inv h

theorem setSession_inv {k : Nat} {v : Session} (h : s.Inv) : (setSession s k v).Inv := inv_update h

theorem modSession_inv {k : Nat} {f : Session → Session} (h : s.Inv) : (modSession s k f).Inv := setSession_inv h

theorem sendReply_inv {r : Reply} (h : s.Inv) : (sendReply s r).Inv := by
  unfold sendReply
  dsimp only
  split
  · exact each_inv (inv_update h) sendMsg_inv
  exact inv_ite (inv_update h) (inv_ite (inv_update h) (inv_ite (inv_update h) (inv_ite (inv_update h) h)))

theorem cacheReply_inv {k : Nat} {r : Reply} (h : s.Inv) : (cacheReply s k r).Inv := modSession_inv h

theorem answer_inv {r : Req} {op : Nat} {st : Status} {detail : Nat} {payload : List Byte} {own retry : Nat} (h :
    s.Inv) :
    (answer s r op st detail payload own retry).Inv := by
  unfold answer
  dsimp only
  split
  · exact sendReply_inv h
  exact inv_ite (sendReply_inv (cacheReply_inv h)) h

theorem reply_inv {r : Req} {op : Nat} {st : Status} {detail : Nat} {payload : List Byte} {own : Nat} (h : s.Inv) :
    (reply s r op st detail payload own).Inv := answer_inv (inv_update h)

theorem replyBusy_inv {r : Req} {op detail retry : Nat} (h : s.Inv) : (replyBusy s r op detail retry).Inv :=
  answer_inv (inv_update h)

theorem unqueue_inv {r : Req} {op : Nat} (h : s.Inv) : (unqueue s r op).Inv := by
  unfold unqueue
  dsimp only
  refine inv_ite ?_ ?_
  · split
    · exact modSession_inv (inv_update h)
    exact inv_update h
  exact h

theorem hold_inv {r : Req} {op : Nat} {ctx model : Option Nat} {md : Modes} (h : s.Inv) :
    (hold s r op ctx model md).Inv :=
  inv_ite h (inv_update h)

theorem take_inv {r : Req} {op : Nat} {early doze : Bool} {ctx model : Option Nat} {f : State → State}
    (h : s.Inv) (hf : ∀ {u : State}, u.Inv → (f u).Inv) : KeepsInv (take s r op early doze ctx model f) := by
  obtain ht | ht | ht := take_cases s r op early doze ctx model f <;> rw [ht]
  · exact keepsInv_next h
  · exact keepsInv_next (hold_inv (unqueue_inv h))
  · exact keepsInv_next (hf (unqueue_inv h))

theorem serve_inv {r : Req} {op : Nat} {ctx model : Option Nat} {f : State → State}
    (h : s.Inv) (hf : ∀ {u : State}, u.Inv → (f u).Inv) : KeepsInv (serve s r op ctx model f) := take_inv h hf

theorem serveEarly_inv {r : Req} {op : Nat} {early doze : Bool} {f : State → State}
    (h : s.Inv) (hf : ∀ {u : State}, u.Inv → (f u).Inv) : KeepsInv (serveEarly s r op early doze f) := take_inv h hf

theorem checked_inv {r : Req} {op : Nat} {cs : List (Bool × Status × Nat)} {ok : State → State}
    (h : s.Inv) (hok : ∀ {u : State}, u.Inv → (ok u).Inv) : (checked s r op cs ok).Inv := by
  obtain hc | ⟨_, hc⟩ := checked_cases s r op cs ok <;> rw [hc]
  · exact hok h
  · exact reply_inv h

/-! ### The mesh -/

theorem giveSlots_inv {o : Owner} {transfers : List (Node × Node)} (h : s.Inv) : (giveSlots s o transfers).Inv :=
  inv_update h

theorem dropSlots_inv {o : Owner} (h : s.Inv) : (dropSlots s o).Inv := inv_update h

theorem loadSchedule_inv {o : Owner} {sched : List Issue} {p : Nat} (h : s.Inv) : (loadSchedule o sched s p).Inv :=
  modCore_inv h

theorem giveSchedules_inv {o : Owner} {cores : List Nat} (h : s.Inv) : (giveSchedules s o cores).Inv :=
  each_inv (inv_update h) loadSchedule_inv

theorem giveWork_inv {o : Owner} {cores : List Nat} {transfers : List (Node × Node)} (h : s.Inv) :
    (giveWork s o cores transfers).Inv := giveSchedules_inv (giveSlots_inv h)

theorem dropWork_inv {o : Owner} (h : s.Inv) : (dropWork s o).Inv := giveSchedules_inv (dropSlots_inv h)

/-! ### Placements -/

theorem roomFor_inv {t : State} {m : Model} {absent : List (Nat × Nat)} (h : s.Inv) (ht :
    roomFor s m absent = some t) : t.Inv := by
  obtain ⟨_, rfl⟩ := roomFor_only ht
  exact h

/-! ### Operands of a tensor program -/

theorem setProg_inv {p : Prog} (h : s.Inv) : (setProg s p).Inv := inv_update h

/-! ### Register views -/

theorem setHalf_inv {j : Nat} {v : Half} (h : s.Inv) : (setHalf s j v).Inv := inv_ite (inv_update h) (inv_update h)

/-! ### Register reads and writes -/

theorem setPath_inv {p : Nat} {v : Path} (h : s.Inv) : (setPath s p v).Inv := inv_update h

theorem modPath_inv {p : Nat} {f : Path → Path} (h : s.Inv) : (modPath s p f).Inv := setPath_inv h

theorem accessFailed_inv {p a : Nat} {indirect : Bool} {e : Status × Nat} (h : s.Inv) :
    (accessFailed s p a indirect e).Inv :=
  bump_inv (setReg_inv h)

theorem drbg_inv {n : Nat} (h : s.Inv) : (drbg s n).2.Inv := inv_update h

theorem drawChallenge_inv (h : s.Inv) : (drawChallenge s).Inv :=
  inv_ite h (inv_ite (inv_update (drbg_inv h)) (inv_update h))

theorem sramRead_inv {o : Nat} (h : s.Inv) : OkInv (sramRead s o) := by
  unfold sramRead
  dsimp only
  split
  · exact okInv_ok h
  · exact okInv_ok (corrected_inv h)
  exact okInv_error

theorem sramWrite_inv {o v : Nat} (h : s.Inv) : (sramWrite s o v).Inv := by
  unfold sramWrite
  extract_lets w put_ tc tp
  have hput : ∀ {t : State}, t.Inv → (put_ t).Inv := id
  clear_value put_
  split
  · exact hput h
  · exact hput (inv_update (memEvent_inv (bump_inv h)))
  · exact hput (inv_update (memEvent_inv (bump_inv h)))
  · exact hput h

theorem indRead_inv {a : Nat} (h : s.Inv) : OkInv (indRead s a) := by
  have hok : ∀ {w : Nat}, OkInv (.ok (w, s)) := okInv_ok h
  unfold indRead
  refine okInv_ite okInv_error (okInv_ite (okInv_ite okInv_error hok) (okInv_ite (okInv_ite okInv_error ?_)
    (okInv_ite (okInv_ite okInv_error (okInv_ite hok okInv_error)) (okInv_ite hok (okInv_ite hok (okInv_ite hok
      (okInv_ite (okInv_ok (inv_update h)) (okInv_ite (sramRead_inv h) okInv_error))))))))
  split
  · exact hok
  · exact hok
  · exact okInv_error

theorem sramFailed_inv {o : Nat} (h : s.Inv) : (sramFailed s o).Inv := by
  unfold sramFailed
  split
  · exact h
  · exact h
  exact inv_ite (badRead_inv h) h

theorem indWrite_inv {a v : Nat} (h : s.Inv) : OkInv (indWrite s a v) := by
  unfold indWrite
  split
  · exact okInv_ok h
  split
  · exact okInv_ok (sramWrite_inv h)
  split
  · exact okInv_ok h
  split
  · exact okInv_ok h
  exact okInv_error

theorem indAccess_inv {p : Nat} {v : Option Nat} (h : s.Inv) : AccessInv (indAccess s p v) := by
  have hfailed : ∀ {o : Nat} {c : Prop} {_ : Decidable c}, (if c then sramFailed s o else s).Inv := inv_ite
    (sramFailed_inv h) h
  cases v with
  | none =>
    unfold indAccess
    dsimp only
    rcases hread : indRead s (path s p).indAddr with e | ⟨w, t⟩
    · exact accessInv_error (accessFailed_inv hfailed)
    · exact accessInv_ok (modPath_inv (indRead_inv h _ hread)) hfailed
  | some w =>
    unfold indAccess
    dsimp only
    refine accessInv_ite (accessInv_ite ?_ (accessInv_error (accessFailed_inv h))) ?_
    · rcases hwrite : indWrite (modPath s p fun q => { q with armed := false }) (path s p).indAddr w with e | ⟨_, t⟩
      · exact accessInv_error (accessFailed_inv (modPath_inv h))
      · exact accessInv_ok (modPath_inv (indWrite_inv (modPath_inv h) _ hwrite)) (modPath_inv h)
    · rcases hwrite : indWrite s (path s p).indAddr w with e | ⟨_, t⟩
      · exact accessInv_error (accessFailed_inv h)
      · exact accessInv_ok (modPath_inv (indWrite_inv h _ hwrite)) h

theorem readReg_inv {p a : Nat} (h : s.Inv) : AccessInv (readReg s p a) := by
  have hfailed : ∀ {e : Status × Nat}, AccessInv (.error e, accessFailed s p a false e) := accessInv_error
    (accessFailed_inv h)
  have hread : ∀ {w : Nat}, AccessInv (.ok (w, s), s) := accessInv_ok h h
  unfold readReg
  cases regInfo a with
  | none => exact hfailed
  | some _ =>
    refine accessInv_ite hfailed (accessInv_ite (indAccess_inv h) (accessInv_ite hread (accessInv_ite hread ?_)))
    refine accessInv_ite (accessInv_ok (inv_update h) h)
      (accessInv_ite ?_ (accessInv_ite hread (accessInv_ite hread ?_)))
    · exact accessInv_ok (modPath_inv (drawChallenge_inv h)) (drawChallenge_inv h)
    cases pairHigh a with
    | none => exact hread
    | some _ => exact accessInv_ok (modPath_inv h) h

theorem heldFree_inv {a : Nat} (h : s.Inv) : (heldFree s a).Inv := inv_update h

theorem applyBits_inv {a v mask : Nat} (h : s.Inv) : (applyBits s a v mask).Inv := setReg_inv h

theorem applyHeld_inv {due : Nat → Bool} {mask : Nat → Nat} (h : s.Inv) : (applyHeld s due mask).Inv :=
  each_inv (inv_update h) applyBits_inv

theorem retarget_inv (h : s.Inv) : (retarget s).Inv := by
  unfold retarget
  refine inv_ite ?_ ?_
  · refine inv_ite (event_inv (reproEvent_inv (bump_inv (setHalf_inv (setHalf_inv h))))) ?_
    exact event_inv (event_inv (reproEvent_inv (bump_inv (setHalf_inv (setHalf_inv h)))))
  refine inv_ite (event_inv (reproEvent_inv (bump_inv (setHalf_inv h)))) ?_
  exact inv_ite (event_inv (reproEvent_inv (bump_inv (setHalf_inv h)))) h

theorem commandBoundary_inv (h : s.Inv) : (commandBoundary s).Inv := by
  unfold commandBoundary
  refine inv_ite ?_ ?_
  · exact retarget_inv (each_inv (applyHeld_inv h) (fun hu => inv_ite (inv_update hu) (inv_update hu)))
  exact each_inv (applyHeld_inv h) (fun hu => inv_ite (inv_update hu) (inv_update hu))

theorem gateBoundary_inv {e : Nat} (h : s.Inv) : (gateBoundary s e).Inv := applyHeld_inv h

theorem frameBoundary_inv {n : Nat} (h : s.Inv) : (frameBoundary s n).Inv := applyHeld_inv h

theorem trainingBoundary_inv {n : Nat} (h : s.Inv) : (trainingBoundary s n).Inv := applyHeld_inv h

theorem sweepRegBoundary_inv {p : Nat} (h : s.Inv) : (sweepRegBoundary s p).Inv := applyHeld_inv h

theorem seatingBoundary_inv (h : s.Inv) : (seatingBoundary s).Inv := applyHeld_inv h

theorem writeNow_inv {a : Nat} {i : RegInfo} {v hw : Nat} (h : s.Inv) : (writeNow s a i v hw).Inv := by
  unfold writeNow
  dsimp only
  refine inv_ite (setReg_inv h) ?_
  split
  · exact inv_ite (orReg_inv (setReg_inv h)) (setReg_inv h)
  exact setReg_inv h

theorem holdReg_inv {a v : Nat} (h : s.Inv) : (holdReg s a v).Inv := inv_ite (inv_update h) (inv_update h)

theorem recoverFlag_inv {v : Nat} (h : s.Inv) : (recoverFlag s v).Inv := setReg_inv h

theorem clearKept_inv (h : s.Inv) : (clearKept s).Inv :=
  inv_ite (inv_ite (writeHbm_inv (inv_update h)) (inv_update h)) h

theorem writeReg_inv {recovery : State → State} {p a v hw : Nat} (h : s.Inv) (hrecovery : ∀ {u :
    State}, u.Inv → (recovery u).Inv) :
    AccessInv (writeReg recovery s p a v hw) := by
  have hdenied : ∀ {e : Status × Nat}, AccessInv (.error e, accessFailed s p a false e) := accessInv_error
    (accessFailed_inv h)
  have hpath : ∀ {f : Path → Path}, AccessInv (.ok (0, modPath s p f), s) := accessInv_ok (modPath_inv h) h
  unfold writeReg
  cases regInfo a with
  | none => exact hdenied
  | some i =>
    have hs : (if i.guarded then modPath s p (fun q => { q with armed := false }) else s).Inv := inv_ite
      (modPath_inv h) h
    refine accessInv_ite hdenied (accessInv_ite (indAccess_inv h)
      (accessInv_ite hpath (accessInv_ite hpath (accessInv_ite hpath ?_))))
    refine accessInv_ite hdenied (accessInv_ite ?_ (accessInv_ite ?_ (accessInv_ite ?_ (accessInv_ite ?_ ?_))))
    · exact accessInv_ok (inv_ite (hrecovery (recoverFlag_inv hs)) (recoverFlag_inv hs)) hs
    · exact accessInv_ok (inv_ite (clearKept_inv hs) hs) hs
    · exact accessInv_ok (writeNow_inv hs) hs
    · exact accessInv_ok (writeNow_inv (heldFree_inv hs)) hs
    · exact accessInv_ok (holdReg_inv hs) hs

theorem afterAccess_inv {r : Access × State} (hr : AccessInv r) : (afterAccess r).Inv := by
  unfold afterAccess
  split
  · rename_i hok
    exact hr.1 _ hok
  exact hr.2

/-! ### Sleep states and waking -/

theorem markWake_inv {codes : List Nat} (h : s.Inv) : (markWake s codes).Inv := each_inv h orReg_inv

theorem startTraining_inv {n : Nat} (h : s.Inv) : (startTraining s n).Inv :=
  trainingBoundary_inv (modPort_inv (inv_ite (bump_inv h) h))

theorem startPorts_inv (h : s.Inv) : (startPorts s).Inv := each_inv h startTraining_inv

theorem beginExit_inv {code : Nat} (h : s.Inv) : (beginExit s code).Inv :=
  inv_ite (startPorts_inv (inv_update (markWake_inv h))) (inv_update (markWake_inv h))

theorem wakeSource_inv {code : Nat} {inWindow : Bool} (h : s.Inv) : (wakeSource s code inWindow).Inv := by
  unfold wakeSource
  dsimp only
  refine inv_ite h ?_
  split
  · exact inv_ite (inv_update h) (inv_ite (inv_update (markWake_inv h)) (markWake_inv h))
  exact inv_ite h (inv_ite (markWake_inv h) (beginExit_inv h))

theorem wakeQueued_inv {p : Packet} (h : s.Inv) : (wakeQueued s p).Inv := inv_ite (wakeSource_inv h) h

/-! ### Sessions -/

theorem mapReqs_inv {f : Req → Req} (h : s.Inv) : (mapReqs f s).Inv := inv_update h

theorem closeSession_inv {k : Nat} (h : s.Inv) : (closeSession s k).Inv := inv_update (mapReqs_inv h)

theorem closeAll_inv (h : s.Inv) : (closeAll s).Inv := each_inv h closeSession_inv

theorem execSessionIdleTimeout_inv {k : Nat} (h : s.Inv) : KeepsInv (execSessionIdleTimeout k s) :=
  keepsInv_next (inv_ite (closeSession_inv h) h)

theorem execSessionClose_inv {r : Req} {payload : List Byte} (h : s.Inv) : KeepsInv (execSessionClose r payload s) := by
  unfold execSessionClose
  split
  · exact keepsInv_next h
  refine keepsInv_ite (keepsInv_next h) ?_
  exact serve_inv h fun hu => checked_inv hu fun hu => closeSession_inv (reply_inv hu)

theorem execPing_inv {r : Req} {payload : List Byte} (h : s.Inv) : KeepsInv (execPing r payload s) :=
  serve_inv h fun hu => checked_inv hu reply_inv

theorem execInfo_inv {r : Req} {payload : List Byte} (h : s.Inv) : KeepsInv (execInfo r payload s) :=
  serve_inv h fun hu => checked_inv hu reply_inv

theorem authFailure_inv {x : Source} (h : s.Inv) : (authFailure s x).2.Inv := coalesce_inv (inv_update (bump_inv h))

theorem execSessionOpen_inv {r : Req} {payload : List Byte} (h : s.Inv) : KeepsInv (execSessionOpen r payload s) := by
  unfold execSessionOpen
  dsimp only
  refine keepsInv_ite (keepsInv_next h) ?_
  exact serve_inv h fun hu => checked_inv hu fun hu => by
      split
      · exact reply_inv hu
      refine inv_ite (inv_ite (reply_inv hu) (inv_update (hold_inv hu))) ?_
      exact inv_ite (reply_inv (authFailure_inv hu)) (authFailure_inv hu)

theorem openSession_inv {r : Req} {payload entropy : List Byte} (h : s.Inv) : (openSession s r payload entropy).Inv :=
  by
  unfold openSession
  dsimp only
  split
  · exact replyBusy_inv h
  exact sendReply_inv (setSession_inv (inv_update h))

/-! ### The front end -/

theorem policed_inv {f : Frame} {t : State} (h : s.Inv) (ht : policed s f = some t) : t.Inv := by
  have hsome : ∀ {u : State}, u.Inv → some u = some t → t.Inv := fun hu hut => Option.some.inj hut ▸ hu
  unfold policed at ht
  split at ht
  · exact hsome h ht
  split at ht
  · exact absurd ht nofun
  dsimp only at ht
  generalize (if regField s _ 16 16 = 0 then 9216 else _) = limit at ht
  split at ht
  · exact absurd ht nofun
  split at ht
  · exact hsome h ht
  split at ht
  · exact hsome (inv_update h) ht
  · exact absurd ht nofun

theorem cbRecover_inv {key : List Byte} {seq : Nat} (h : s.Inv) : (cbRecover s key seq).2.Inv := by
  unfold cbRecover
  dsimp only
  split
  · exact inv_update h
  exact inv_ite_snd (inv_update h) (inv_ite_snd (inv_ite_snd h (inv_update h)) (inv_update h))

theorem refuse_inv {r : Req} {op : Nat} {tagged : Bool} {st : Status} {detail retry : Nat} (h : s.Inv) :
    (refuse s r op tagged st detail retry).Inv := inv_ite (answer_inv h) (sendReply_inv h)

theorem refuseBusy_inv {r : Req} {op : Nat} {detail : Nat} (h : s.Inv) : (refuseBusy s r op detail).Inv :=
  refuse_inv (inv_update (bump_inv h))

theorem accept_inv {r : Req} {p : Packet} (h : s.Inv) : (accept s r p).Inv := by
  unfold accept
  dsimp only
  split
  · exact wakeQueued_inv (bump64_inv (modSession_inv h))
  exact wakeQueued_inv (bump64_inv h)

theorem admitPacket_inv {r : Req} {p : Packet} {size : Nat} (h : s.Inv) : (admitPacket s r p size).Inv :=
  inv_ite (refuseBusy_inv h) (inv_ite (refuseBusy_inv h) (accept_inv h))

theorem consume_inv {k : Nat} {p : Packet} (h : s.Inv) : (consume s k p).Inv := by
  unfold consume
  refine inv_ite (refuse_inv (modSession_inv h)) ?_
  exact inv_ite (refuse_inv (modSession_inv h)) (admitPacket_inv (modSession_inv h))

theorem drainHeld_inv {n k : Nat} (h : s.Inv) : (drainHeld n s k).Inv := by
  induction n generalizing s with
  | zero => exact h
  | succ n ih =>
    rw [drainHeld]
    split
    · exact h
    exact ih (consume_inv (modSession_inv h))

theorem passGap_inv {n k : Nat} {target : Word} (h : s.Inv) : (passGap n s k target).Inv := by
  induction n generalizing s with
  | zero => exact h
  | succ n ih =>
    rw [passGap]
    split
    · exact h
    split
    · exact ih (consume_inv (modSession_inv h))
    exact ih (modSession_inv h)

theorem expireHeld_inv {k : Nat} (h : s.Inv) : (expireHeld s k).Inv := by
  unfold expireHeld
  split
  · exact h
  exact drainHeld_inv (passGap_inv h)

theorem refuseStale_inv {r : Req} {op detail : Nat} (h : s.Inv) : (refuseStale s r op detail).Inv :=
  refuse_inv (bump_inv h)

theorem dropDuplicate_inv (h : s.Inv) : (dropDuplicate s).Inv := bump_inv h

theorem seenBefore_inv {k : Nat} {p : Packet} {resend : Bool} (h : s.Inv) : (seenBefore s k p resend).Inv := by
  unfold seenBefore
  dsimp only
  refine inv_ite (refuseStale_inv h) ?_
  refine inv_ite (dropDuplicate_inv h) ?_
  split
  · exact sendReply_inv h
  exact inv_ite (dropDuplicate_inv h) (refuseStale_inv h)

theorem sequence_inv {k : Nat} {p : Packet} {resend : Bool} (h : s.Inv) : (sequence s k p resend).Inv := by
  unfold sequence
  refine inv_ite (drainHeld_inv (consume_inv (modSession_inv h))) ?_
  refine inv_ite ?_ ?_
  · refine inv_ite (dropDuplicate_inv (modSession_inv h)) ?_
    exact inv_ite (expireHeld_inv (modSession_inv (modSession_inv h))) (modSession_inv (modSession_inv h))
  exact inv_ite (seenBefore_inv (modSession_inv h)) (refuseStale_inv (modSession_inv h))

theorem sessionless_inv {p : Packet} (h : s.Inv) : (sessionless s p).Inv := by
  unfold sessionless
  refine inv_ite (admitPacket_inv h) ?_
  refine inv_ite (dropDuplicate_inv (inv_update h)) ?_
  refine inv_ite (refuseBusy_inv (inv_update h)) ?_
  exact inv_ite (refuseBusy_inv (inv_update h)) (admitPacket_inv (inv_update h))

theorem receivePacket_inv {src : Source} {data : List Byte} {lengthOk : Nat → Bool} (h : s.Inv) :
    (receivePacket s src data lengthOk).Inv := by
  unfold receivePacket
  refine inv_ite (refuse_inv (bump_inv h)) ?_
  refine inv_ite ?_ ?_
  · exact inv_ite (refuse_inv h) (inv_ite (refuse_inv (bump_inv h)) (sessionless_inv h))
  refine inv_ite (refuse_inv h) ?_
  refine inv_ite (refuse_inv (bump_inv h)) ?_
  exact inv_ite (inv_ite (refuse_inv (authFailure_inv h)) (authFailure_inv h)) (sequence_inv h)

theorem framePacket_inv {f : Frame} (h : s.Inv) : (framePacket s f).Inv := by
  unfold framePacket
  refine inv_ite (dropDuplicate_inv h) ?_
  split <;> exact receivePacket_inv h

theorem receiveFrame_inv {f : Frame} (h : s.Inv) : (receiveFrame s f).Inv := by
  unfold receiveFrame
  refine inv_ite h (inv_ite (bump_inv h) (inv_ite (bump_inv h) ?_))
  split
  · exact bump_inv h
  rename_i t hpoliced
  have ht : t.Inv := policed_inv h hpoliced
  have hpassed : ∀ {d : Bool × State}, d.2.Inv → (if d.1 then dropDuplicate d.2 else framePacket d.2 f).Inv := fun hd =>
    inv_ite (dropDuplicate_inv hd) (framePacket_inv hd)
  cases f.rTags.head? with
  | none => exact inv_ite (wakeSource_inv (hpassed ht)) (hpassed ht)
  | some seq =>
    exact inv_ite (wakeSource_inv (hpassed (inv_ite_snd (cbRecover_inv ht) ht)))
      (hpassed (inv_ite_snd (cbRecover_inv ht) ht))

theorem execFrameReceived_inv {f : Frame} (h : s.Inv) : KeepsInv (execFrameReceived f s) :=
  keepsInv_next (receiveFrame_inv h)

theorem execEthernetWhistleFrame_inv {f : Frame} (h : s.Inv) : KeepsInv (execEthernetWhistleFrame f s) :=
  keepsInv_next (inv_ite (receiveFrame_inv h) h)

theorem execArpRequest_inv {port : Nat} {senderMac senderIp targetIp : List Byte} (h : s.Inv) :
    KeepsInv (execArpRequest port senderMac senderIp targetIp s) := keepsInv_next (inv_ite (inv_update h) h)

theorem execNeighborSolicitation_inv {port : Nat} {senderMac senderIp targetIp : List Byte} (h : s.Inv) :
    KeepsInv (execNeighborSolicitation port senderMac senderIp targetIp s) := keepsInv_next (inv_ite (inv_update h) h)

theorem execGptpMessage_inv {port domain timeNs : Nat} (h : s.Inv) : KeepsInv (execGptpMessage port domain timeNs s) :=
  keepsInv_next (inv_ite (inv_update h) h)

theorem execReorderWaitExpiry_inv {k : Nat} (h : s.Inv) : KeepsInv (execReorderWaitExpiry k s) :=
  keepsInv_next (inv_ite (expireHeld_inv h) h)

theorem flushUnsent_inv (h : s.Inv) : (flushUnsent s).Inv := each_inv (inv_update h) sendReply_inv

theorem execEthLinkUp_inv {port : Nat} {speed25 : Bool} {fec gptp : BitVec 2} {eye : Nat} (h : s.Inv) :
    KeepsInv (execEthLinkUp port speed25 fec gptp eye s) := keepsInv_next (inv_ite (flushUnsent_inv (inv_update h)) h)

theorem execEthLinkDown_inv {port : Nat} (h : s.Inv) : KeepsInv (execEthLinkDown port s) := keepsInv_next (inv_update h)

theorem execGateCycleStart_inv {port : Nat} (h : s.Inv) : KeepsInv (execGateCycleStart port s) :=
  keepsInv_next (inv_ite (gateBoundary_inv h) h)

/-! ### Fencing -/

theorem recordFence_inv {p gen reason : Nat} {plan : List Byte × Nat × Nat} (h : s.Inv) :
    (recordFence s p gen reason plan).Inv := inv_ite (reproEvent_inv (bump_inv (event_inv h))) (bump_inv (event_inv h))

theorem settleFence_inv {p : Nat} (h : s.Inv) : (settleFence s p).Inv := inv_ite (modCore_inv h) (inv_update h)

theorem fenceOtpWritten_inv {interrupted : Bool} (h : s.Inv) : (fenceOtpWritten s interrupted).Inv := by
  unfold fenceOtpWritten
  dsimp only
  split
  · exact h
  exact inv_ite (inv_update (event_inv h)) (inv_update (event_inv h))

theorem execFenceOtpWrite_inv {interrupted : Bool} (h : s.Inv) : KeepsInv (execFenceOtpWrite interrupted s) :=
  keepsInv_next (inv_ite (fenceOtpWritten_inv h) h)

theorem endQueue_inv {k : Nat} (h : s.Inv) : (endQueue s k).Inv := each_inv (modSession_inv h) answer_inv

theorem endWork_inv (h : s.Inv) : (endWork s).Inv :=
  inv_update (each_inv (each_inv (inv_update h) answer_inv) endQueue_inv)

theorem beginDump_inv {cause unit trailSeq : Nat} (h : s.Inv) : (beginDump s cause unit trailSeq).Inv :=
  inv_ite (writeHbm_inv (inv_update h)) (inv_update (inv_ite (writeHbm_inv h) h))

theorem fatalError_inv {cause unit : Nat} (h : s.Inv) : (fatalError s cause unit).Inv := by
  unfold fatalError
  refine inv_ite ?_ ?_
  · exact inv_ite (beginDump_inv (event_inv (inv_update h))) (event_inv (inv_update h))
  refine inv_ite (endWork_inv (inv_update (beginDump_inv (event_inv (inv_update h))))) ?_
  exact inBand_inv (endWork_inv (inv_update (beginDump_inv (event_inv (inv_update h)))))

theorem execFatalError_inv {cause unit : Nat} (h : s.Inv) : KeepsInv (execFatalError cause unit s) :=
  keepsInv_next (inv_ite h (fatalError_inv h))

theorem beginFence_inv (h : s.Inv) : (beginFence s).Inv := by
  unfold beginFence
  split
  · exact h
  exact inv_ite (fatalError_inv h) (recordFence_inv h)

theorem decideFence_inv {p reason : Nat} (h : s.Inv) : (decideFence s p reason).Inv :=
  inv_ite h (inv_ite (beginFence_inv (inv_update h)) (inv_update h))

theorem countOn_inv {n : Nat} {p : Nat} (h : s.Inv) : (countOn n s p).Inv := modCore_inv h

theorem countFault_inv {ps : List Nat} {n : Nat} (h : s.Inv) : (countFault s ps n).Inv :=
  each_inv (bump_inv h) countOn_inv

theorem checkThreshold_inv {p : Nat} (h : s.Inv) : (checkThreshold s p).Inv := inv_ite (decideFence_inv h) h

/-! ### Resets -/

theorem flushTrail_inv (h : s.Inv) : (flushTrail s).Inv := inv_ite h (each_inv (inv_update h) writeRec_inv)

theorem coldStart_inv : (coldStart s).Inv := ⟨rfl, rfl⟩

theorem warmReset_inv {kind : Nat} (h : s.Inv) : (warmReset s kind).Inv := by
  have hkept : ∀ {u : State}, u.hbm = (flushTrail s).hbm → u.spad = [] → u.Inv := fun hhbm hspad =>
    ⟨by rw [hhbm]; exact (flushTrail_inv h).1, by rw [hspad]; rfl⟩
  unfold warmReset
  dsimp only
  split
  · exact event_inv (event_inv (hkept rfl rfl))
  exact event_inv (hkept rfl rfl)

theorem powerOff_inv : (powerOff s).Inv := ⟨rfl, rfl⟩

theorem execPwrOkAssert_inv (h : s.Inv) : KeepsInv (execPwrOkAssert s) :=
  keepsInv_next (inv_ite h (inv_ite (inv_update h) coldStart_inv))

theorem execPwrOkDeassert_inv : KeepsInv (execPwrOkDeassert s) := keepsInv_next powerOff_inv

theorem execInputUndervoltage_inv {mv : Nat} (h : s.Inv) : KeepsInv (execInputUndervoltage mv s) :=
  keepsInv_next (inv_ite (inv_update powerOff_inv) h)

theorem execRstNAssert_inv (h : s.Inv) : KeepsInv (execRstNAssert s) := by
  unfold execRstNAssert
  dsimp only
  apply keepsInv_next
  split <;> exact inv_update h

theorem execWarmReset_inv (h : s.Inv) : KeepsInv (execWarmReset s) := by
  unfold execWarmReset
  apply keepsInv_next
  split
  · exact warmReset_inv h
  exact h

theorem execRstNDeassert_inv (h : s.Inv) : KeepsInv (execRstNDeassert s) :=
  keepsInv_next (inv_ite (inv_ite coldStart_inv (inv_update h)) (inv_update h))

theorem execGlitchDetected_inv {kind unit : Nat} (h : s.Inv) : KeepsInv (execGlitchDetected kind unit s) := by
  unfold execGlitchDetected
  dsimp only
  apply keepsInv_next
  split
  · exact h
  · exact h
  exact inv_update (event_inv (bump_inv (closeAll_inv h)))

theorem runSlot_inv {b : Bool} {skipped : Nat} (h : s.Inv) : (runSlot s b skipped).Inv := event_inv (inv_update h)

theorem execBoot_inv (h : s.Inv) : KeepsInv (execBoot s) := by
  unfold execBoot
  apply keepsInv_next
  refine inv_ite ?_ ?_
  · refine inv_ite (runSlot_inv (startPorts_inv h)) ?_
    exact inv_ite (runSlot_inv (startPorts_inv h)) (inv_update (startPorts_inv h))
  exact h

theorem recover_inv (h : s.Inv) : (recover s).Inv :=
  inv_ite (runSlot_inv (event_inv (inv_update h))) (event_inv (orReg_inv h))

theorem fenceAtStart_inv {p : Nat} (h : s.Inv) : (fenceAtStart s p).Inv := by
  unfold fenceAtStart
  refine inv_ite h ?_
  refine inv_ite (fatalError_inv (inv_update (inv_ite (bump_inv (modCore_inv h)) h))) ?_
  exact settleFence_inv (inv_update (recordFence_inv (inv_update (inv_ite (bump_inv (modCore_inv h)) h))))

theorem advanceRollback_inv (h : s.Inv) : (advanceRollback s).Inv := inv_ite (event_inv (inv_update h)) h

theorem execStartDone_inv {failed : List Nat} (h : s.Inv) : KeepsInv (execStartDone failed s) := by
  unfold execStartDone
  apply keepsInv_next
  refine inv_ite ?_ ?_
  · refine inv_ite (each_inv (inv_update h) fenceAtStart_inv) ?_
    exact advanceRollback_inv (inv_update (each_inv (inv_update h) fenceAtStart_inv))
  exact h

theorem setSensor_inv {n : Nat} {temp : Int} (h : s.Inv) : (setSensor s n temp).Inv := inv_update h

theorem execThermtrip_inv {n : Nat} {temp : Int} (h : s.Inv) : KeepsInv (execThermtrip n temp s) := by
  unfold execThermtrip
  apply keepsInv_next
  split
  · exact h
  · exact h
  split
  · exact ⟨rfl, rfl⟩
  exact h

/-! ### Leash -/

theorem sendCtrl_inv {n : Nat} {nak : Bool} {notice : Nat} (h : s.Inv) : (sendCtrl s n nak notice).Inv :=
  inv_update (setPort_inv h)

theorem discardFlit_inv {n : Nat} (h : s.Inv) : (discardFlit s n).Inv := inv_ite h (sendCtrl_inv (modPort_inv h))

theorem violation_inv {n vl row : Nat} (h : s.Inv) : (violation s n vl row).Inv := coalesce_inv (bump_inv h)

theorem creditOverrun_inv {n vl : Nat} (h : s.Inv) : (creditOverrun s n vl).Inv := by
  unfold creditOverrun
  refine inv_ite (startTraining_inv (modPort_inv (discardFlit_inv (violation_inv h)))) ?_
  exact modPort_inv (discardFlit_inv (violation_inv h))

theorem execFlitCrcError_inv {n : Nat} (seq vl : Nat) {why : FlitError} (h : s.Inv) :
    KeepsInv (execFlitCrcError n seq vl why s) := by
  unfold execFlitCrcError
  apply keepsInv_next
  refine inv_ite h ?_
  split
  · exact discardFlit_inv (bump_inv h)
  · exact bump_inv h
  · exact discardFlit_inv (bump_inv h)
  · exact bump_inv h
  · exact bump_inv h
  · exact discardFlit_inv h
  exact discardFlit_inv (bump_inv h)

theorem sendAgain_inv {n : Nat} {fs : List Sent} (h : s.Inv) : (sendAgain s n fs).Inv := inv_update h

theorem replayFrom_inv {n seq : Nat} (h : s.Inv) : (replayFrom s n seq).Inv := sendAgain_inv (bump_inv h)

theorem nakReplay_inv {n seq : Nat} (h : s.Inv) : (nakReplay s n seq).Inv :=
  inv_ite (startTraining_inv (setPort_inv h)) (replayFrom_inv (setPort_inv h))

theorem execCtrlFlitDue_inv {n : Nat} (h : s.Inv) : KeepsInv (execCtrlFlitDue n s) :=
  keepsInv_next (inv_ite (sendCtrl_inv h) h)

theorem execLeashReplayTimeout_inv {n : Nat} (h : s.Inv) : KeepsInv (execLeashReplayTimeout n s) := by
  unfold execLeashReplayTimeout
  apply keepsInv_next
  refine inv_ite ?_ ?_
  · split
    · exact h
    exact replayFrom_inv h
  exact h

theorem execLeashCtrlTimeout_inv {n : Nat} (h : s.Inv) : KeepsInv (execLeashCtrlTimeout n s) :=
  keepsInv_next (inv_ite (startTraining_inv h) h)

theorem execLaneSignalLoss_inv {n lane : Nat} (h : s.Inv) : KeepsInv (execLaneSignalLoss n lane s) :=
  keepsInv_next (inv_ite (startTraining_inv h) h)

theorem execLeashTrainingTimeout_inv {n : Nat} (h : s.Inv) : KeepsInv (execLeashTrainingTimeout n s) :=
  keepsInv_next (inv_ite (startTraining_inv h) h)

theorem execLeashFrameBoundary_inv {n : Nat} (h : s.Inv) : KeepsInv (execLeashFrameBoundary n s) := by
  unfold execLeashFrameBoundary
  apply keepsInv_next
  refine inv_ite ?_ ?_
  · refine inv_ite ?_ ?_
    · exact inv_ite (startTraining_inv (frameBoundary_inv h)) (frameBoundary_inv h)
    exact modPort_inv (frameBoundary_inv h)
  exact h

theorem acceptFlits_inv {m : LeashMsg} {k : Nat} (h : s.Inv) : (acceptFlits s m k).Inv := by
  unfold acceptFlits
  refine inv_ite ?_ ?_
  · exact sendCtrl_inv (inv_ite (modPort_inv h) (freeFlits_inv (modPort_inv h)))
  exact inv_ite (modPort_inv h) (freeFlits_inv (modPort_inv h))

theorem setPartial_inv {n vl : Nat} {m : Option LeashMsg} (h : s.Inv) : (setPartial s n vl m).Inv := modPort_inv h

theorem brokenMsg_inv {m : LeashMsg} (h : s.Inv) : (brokenMsg s m).Inv :=
  violation_inv (inv_ite (modPort_inv (inv_ite (freeFlits_inv h) h)) (inv_ite (freeFlits_inv h) h))

theorem arrived_inv {m : LeashMsg} {f : LeashMsg → State → State} (h : s.Inv) (hf : ∀ {m : LeashMsg} {u :
    State}, u.Inv → (f m u).Inv) :
    (arrived s m f).Inv := by
  unfold arrived
  dsimp only
  split
  · exact setPartial_inv h
  split
  · exact hf (setPartial_inv h)
  exact brokenMsg_inv (setPartial_inv h)

theorem receiveMsg_inv {kind : Nat} {m : LeashMsg} {f : LeashMsg → State → State} (h : s.Inv)
    (hf : ∀ {m : LeashMsg} {u : State}, u.Inv → (f m u).Inv) : (receiveMsg s kind m f).Inv := by
  have hjoined : ∀ {k : Nat} {o : Option LeashMsg},
      (o.elim (acceptFlits s m k) (fun a => arrived (acceptFlits s m k) a f)).Inv :=
    elim_inv (acceptFlits_inv h) fun _ => arrived_inv (acceptFlits_inv h) hf
  unfold receiveMsg
  refine inv_ite h (inv_ite (inv_ite h hjoined) ?_)
  exact inv_ite (discardFlit_inv (inv_ite h hjoined)) (each_inv (inv_ite h hjoined) creditOverrun_inv)

theorem sendTo_inv {dest : Nat} {m : LeashMsg} (h : s.Inv) : (sendTo s dest m).Inv := by
  unfold sendTo
  split
  · exact sendMsg_inv h
  exact h

theorem forward_inv {m : LeashMsg} (h : s.Inv) : (forward s m).Inv := by
  unfold forward
  split
  · exact inv_ite (freeFlits_inv h) (queueMsg_inv h)
  exact freeFlits_inv h

theorem answerMsg_inv {m : LeashMsg} {vl kind : Nat} {data : List Byte} (h : s.Inv) :
    (answerMsg s m vl kind data).Inv :=
  inv_ite (sendMsg_inv h) (sendTo_inv h)

theorem execWrite_inv {m : LeashMsg} (h : s.Inv) : KeepsInv (execWrite m s) :=
  keepsInv_next (receiveMsg_inv h fun hu => inv_ite (forward_inv hu)
    (inv_ite (answerMsg_inv (writeHbm_inv hu)) (answerMsg_inv hu)))

theorem execReadReq_inv {m : LeashMsg} (h : s.Inv) : KeepsInv (execReadReq m s) :=
  keepsInv_next (receiveMsg_inv h brokenMsg_inv)

theorem execValaz_inv {m : LeashMsg} (h : s.Inv) : KeepsInv (execValaz m s) :=
  keepsInv_next (receiveMsg_inv h fun hu => by
    split
    · exact violation_inv (modPort_inv hu)
    · exact modPort_inv hu
    exact receivePacket_inv (modPort_inv hu))

/-! ### MOVE -/

theorem setMove_inv {v : Move} (h : s.Inv) : (setMove s v).Inv := inv_update h

theorem endMove_inv {m : Move} {st : Status} {detail : Nat} (h : s.Inv) : (endMove s m st detail).Inv :=
  reply_inv (inv_update h)

theorem finishIfDone_inv {m : Move} (h : s.Inv) : (finishIfDone s m).Inv :=
  inv_ite (inv_ite (endMove_inv h) (endMove_inv h)) h

theorem newTag_inv (h : s.Inv) : (newTag s).2.Inv := inv_update h

theorem sendPieces_inv {m : Move} {routes : List Nat} {pieces : List (Nat × Nat)} (h : s.Inv) :
    (sendPieces s m routes pieces).1.Inv := by
  unfold sendPieces
  exact List.foldlRecOn (motive := fun acc : State × Move => acc.1.Inv) pieces _ h
    fun _ hacc _ _ => sendMsg_inv (newTag_inv hacc)

theorem startRemote_inv {m : Move} {routes : List Nat} (h : s.Inv) : (startRemote s m routes).Inv :=
  finishIfDone_inv (inv_update (sendPieces_inv (inv_ite_snd_snd h (readPart_inv h))))

theorem execMove_inv {r : Req} {p : List Byte} (h : s.Inv) : KeepsInv (execMove r p s) :=
  serve_inv h fun hu => checked_inv hu fun hu => inv_ite (inv_update (hold_inv hu)) (startRemote_inv (hold_inv hu))

theorem execMoveComplete_inv {r : Req} (h : s.Inv) : KeepsInv (execMoveComplete r s) := by
  unfold execMoveComplete
  dsimp only
  apply keepsInv_next
  split
  · exact h
  refine inv_ite h ?_
  refine inv_ite ?_ ?_
  · exact reply_inv (inv_update (inv_ite (inv_ite_snd_snd h (readPart_inv h))
    (writeHbm_inv (inv_ite_snd_snd h (readPart_inv h)))))
  exact reply_inv (inv_update (inv_ite (inv_ite_snd_snd h (readPart_inv h))
    (writeHbm_inv (inv_ite_snd_snd h (readPart_inv h)))))

theorem execWriteAck_inv {m : LeashMsg} (h : s.Inv) : KeepsInv (execWriteAck m s) := by
  unfold execWriteAck
  dsimp only
  apply keepsInv_next
  exact receiveMsg_inv h fun hu => by
      refine inv_ite (forward_inv hu) ?_
      split
      · exact hu
      exact inv_ite (finishIfDone_inv (setMove_inv hu)) (endMove_inv hu)

theorem execReadData_inv {m : LeashMsg} (h : s.Inv) : KeepsInv (execReadData m s) := by
  unfold execReadData
  dsimp only
  apply keepsInv_next
  exact receiveMsg_inv h fun hu => by
      split
      · exact hu
      exact finishIfDone_inv (setMove_inv (writeHbm_inv hu))

/-! ### Models -/

theorem keptClean_inv {m : Model} {b p : Nat} (h : s.Inv) : (keptClean s m b p).2.Inv := by
  unfold keptClean
  dsimp only
  split
  · exact h
  exact readSpad_inv h

theorem addShare_inv {i b p : Nat} (h : s.Inv) : (addShare s i b p).Inv := by
  unfold addShare
  dsimp only
  split
  · exact h
  split
  · exact modCore_inv (keptClean_inv h)
  exact modCore_inv (writeSpad_inv (keptClean_inv h))

theorem addShares_inv {i : Nat} {absent : List (Nat × Nat)} (h : s.Inv) : (addShares s i absent).Inv :=
  each_inv h addShare_inv

theorem placeResident_inv {i : Nat} {m : Model} (h : s.Inv) : (placeResident s i m).Inv := inv_ite (addShares_inv h) h

theorem giveModelWork_inv {i : Nat} {m : Model} (h : s.Inv) : (giveModelWork s i m).Inv := giveWork_inv h

theorem writeShares_inv {m : Model} (h : s.Inv) : (writeShares s m).Inv := each_inv (inv_update h) writeHbm_inv

theorem installModel_inv {i : Nat} {m : Model} (h : s.Inv) : (installModel s i m).Inv :=
  placeResident_inv (giveModelWork_inv (writeShares_inv (inv_update h)))

theorem readImage_inv {a len : Nat} (h : s.Inv) : (readImage s a len).2.Inv := by
  unfold readImage
  dsimp only
  split
  · exact readHbm_inv h
  exact inv_ite_pair (readHbm_inv (readHbm_inv h)) (readHbm_inv h)

theorem loadFailed_inv {e : LoadErr} (h : s.Inv) : (loadFailed s e).Inv := event_inv h

theorem loadChecked_inv {r : Req} {cs : List (Bool × Status × Nat)} {ok : State → State}
    (h : s.Inv) (hok : ∀ {u : State}, u.Inv → (ok u).Inv) : (loadChecked s r cs ok).Inv := by
  unfold loadChecked
  split
  · exact reply_inv (loadFailed_inv h)
  exact hok h

theorem execModelLoad_inv {r : Req} {p : List Byte} (h : s.Inv) : KeepsInv (execModelLoad r p s) :=
  serve_inv h fun hu => loadChecked_inv hu fun hu => by
    dsimp only
    split
    · exact inv_update (loadFailed_inv (hold_inv (readImage_inv hu)))
    exact inv_update (installModel_inv (hold_inv (readImage_inv hu)))

theorem execModelLoadComplete_inv {r : Req} (h : s.Inv) : KeepsInv (execModelLoadComplete r s) := by
  unfold execModelLoadComplete
  apply keepsInv_next
  split
  · exact h
  exact reply_inv (inv_update h)

theorem lastBurst_inv {es : List (Nat × WordClass)} (h : s.Inv) : (lastBurst s es).Inv := by
  unfold lastBurst
  split
  · exact h
  exact elim_inv h (fun _ => recordLast_inv h)

theorem scrubRange_inv {a n : Nat} (h : s.Inv) : (scrubRange s a n).2.2.Inv := by
  unfold scrubRange
  refine lastBurst_inv (List.foldlRecOn (motive := fun acc : Nat × Bool × State => acc.2.2.Inv) _ _ h fun acc hacc e _ => ?_)
  split
  · exact corrected_inv hacc
  exact badRead_inv hacc

theorem scrubModel_inv {m : Model} (h : s.Inv) : (scrubModel s m).2.2.Inv := by
  unfold scrubModel
  exact List.foldlRecOn (motive := fun acc : Nat × Bool × State => acc.2.2.Inv) _ _ h fun _ hacc _ _ => scrubRange_inv hacc

theorem execModelVerify_inv {r : Req} {p : List Byte} (h : s.Inv) : KeepsInv (execModelVerify r p s) :=
  serve_inv h fun hu => checked_inv hu fun hu => by
    split
    · exact hu
    dsimp only
    refine inv_ite (reply_inv ?hread) (inv_ite (reply_inv ?hread) (reply_inv ?hread))
    exact inv_ite_snd (inv_ite (scrubModel_inv hu) (inv_update (scrubModel_inv hu)))
      (readHbm_inv (inv_ite (scrubModel_inv hu) (inv_update (scrubModel_inv hu))))

theorem dropModel_inv {i : Nat} (h : s.Inv) : (dropModel s i).Inv := inv_update (dropWork_inv h)

theorem execModelFree_inv {r : Req} {p : List Byte} (h : s.Inv) : KeepsInv (execModelFree r p s) :=
  serve_inv h fun hu => checked_inv hu fun hu => reply_inv (dropModel_inv hu)

/-! ### Contexts -/

theorem setCtx_inv {i : Nat} {c : Ctx} (h : s.Inv) : (setCtx s i c).Inv := inv_update h

theorem modCtx_inv {i : Nat} {f : Ctx → Ctx} (h : s.Inv) : (modCtx s i f).Inv := inv_update h

theorem writeDiff_inv {a : Nat} {old new : List Byte} (h : s.Inv) : (writeDiff s a old new).Inv :=
  each_inv h writeHbm_inv

theorem writeBack_inv {i : Nat} {old new : Ctx} (h : s.Inv) : (writeBack s i old new).Inv := writeHbm_inv (setCtx_inv h)

theorem readSpans_inv {base : Nat} {us : List (Nat × Nat)} (h : s.Inv) : (readSpans s base us).2.Inv := by
  induction us generalizing s with
  | nil => exact h
  | cons u us ih => exact inv_ite_snd (ih (readHbm_inv h)) (readHbm_inv h)

theorem countNeural_inv {m : Model} {outs : List (Neural × NeuralOut)} (h : s.Inv) : (countNeural s m outs).Inv :=
  each_inv h fun hu => by
    split
    · exact hu
    exact bump_inv (bump_inv hu)

theorem neuralReply_inv {r : Req} {op : Nat} {outs : List (Neural × NeuralOut)} {payload : List Byte} (h : s.Inv) :
    (neuralReply s r op outs payload).Inv := inv_ite (reply_inv h) (reply_inv h)

theorem installCtx_inv {i : Nat} {c : Ctx} {bytes : List Byte} (h : s.Inv) : (installCtx s i c bytes).Inv :=
  writeHbm_inv (inv_update (setCtx_inv h))

theorem createCtx_inv {r : Req} {p : List Byte} {mi : Nat} {m : Model} {data : List Byte} {i : Nat} (h : s.Inv) :
    (createCtx s r p mi m data i).Inv := by
  unfold createCtx
  dsimp only
  split
  · exact reply_inv h
  exact inv_ite (reply_inv h) (neuralReply_inv (countNeural_inv (installCtx_inv h)))

theorem createData_inv {p : List Byte} {n : Nat} (h : s.Inv) : (createData s p n).2.Inv := inv_ite_snd h (readHbm_inv h)

theorem createWith_inv {r : Req} {p : List Byte} {mi : Nat} {m : Model} (h : s.Inv) : (createWith s r p mi m).Inv :=
  checked_inv h fun hu => by
    dsimp only
    split
    · exact reply_inv (createData_inv hu)
    exact checked_inv (createData_inv hu) createCtx_inv

theorem execCtxCreate_inv {r : Req} {p : List Byte} (h : s.Inv) : KeepsInv (execCtxCreate r p s) :=
  serve_inv h fun hu => checked_inv hu fun hu => by
    split
    · exact hu
    exact createWith_inv hu

theorem writeUpdate_inv {a : Nat} {old new : List Byte} {stores : List (Nat × Nat)} (h : s.Inv) :
    (writeUpdate s a old new stores).Inv := each_inv (writeDiff_inv h) writeHbm_inv

theorem execCtxUpdate_inv {r : Req} {p : List Byte} (h : s.Inv) : KeepsInv (execCtxUpdate r p s) :=
  serve_inv h fun hu => checked_inv hu fun hu => by
    split
    · exact hu
    exact checked_inv hu fun hu => by
        refine inv_ite (reply_inv (readSpans_inv hu)) ?_
        exact neuralReply_inv (countNeural_inv (setCtx_inv (writeUpdate_inv (readSpans_inv hu))))

theorem execCtxSave_inv {r : Req} {p : List Byte} (h : s.Inv) : KeepsInv (execCtxSave r p s) :=
  serve_inv h fun hu => checked_inv hu fun hu => by
    split
    · exact hu
    exact checked_inv hu fun hu => by
        refine inv_ite (inv_update (hold_inv hu)) ?_
        exact inv_ite (reply_inv (readHbm_inv hu)) (inv_update (hold_inv (readHbm_inv hu)))

theorem takeSave_inv {c : Ctx} {st : RunState} {repaired : Bool} {v : Save} (h : s.Inv) :
    (takeSave c st repaired s v).Inv := by
  unfold takeSave
  dsimp only
  split
  · exact reply_inv (inv_update (inv_ite_snd h (readHbm_inv h)))
  exact inv_update (inv_ite_snd h (readHbm_inv h))

theorem takeSaves_inv {i : Nat} {st : RunState} {repaired : Bool} (h : s.Inv) : (takeSaves s i st repaired).Inv := by
  unfold takeSaves
  split
  · exact h
  exact each_inv h takeSave_inv

theorem dropCtx_inv {i : Nat} (h : s.Inv) : (dropCtx s i).Inv := inv_update h

theorem destroyNow_inv {r : Req} {j : Nat} (h : s.Inv) : (destroyNow s r j).Inv := by
  unfold destroyNow
  split
  · exact reply_inv h
  exact inv_ite (reply_inv (dropCtx_inv h)) (reply_inv h)

theorem finishDestroys_inv {i : Nat} (h : s.Inv) : (finishDestroys s i).Inv :=
  inv_ite h (each_inv (inv_update h) destroyNow_inv)

theorem execCtxSaveComplete_inv {r : Req} (h : s.Inv) : KeepsInv (execCtxSaveComplete r s) := by
  unfold execCtxSaveComplete
  dsimp only
  apply keepsInv_next
  split
  · exact h
  split
  · exact h
  exact finishDestroys_inv (reply_inv (inv_update (writeHbm_inv h)))

theorem readSaved_inv {a n : Nat} (h : s.Inv) : (readSaved s a n).2.Inv := by
  unfold readSaved
  dsimp only
  split
  · exact readHbm_inv h
  exact inv_ite_pair (readHbm_inv (readHbm_inv h)) (readHbm_inv h)

theorem restoreCtx_inv {r : Req} {mi : Nat} {m : Model} {img : List Byte} {i : Nat} {home : Nat} (h : s.Inv) :
    (restoreCtx s r mi m img i home).Inv := by
  unfold restoreCtx
  dsimp only
  split
  · exact reply_inv h
  exact reply_inv (installCtx_inv h)

theorem execCtxRestore_inv {r : Req} {p : List Byte} (h : s.Inv) : KeepsInv (execCtxRestore r p s) :=
  serve_inv h fun hu => checked_inv hu fun hu => by
    dsimp only
    split
    · exact reply_inv (readSaved_inv hu)
    exact checked_inv (readSaved_inv hu) fun hu => by
        split
        · exact hu
        refine inv_ite (reply_inv hu) ?_
        split
        · exact reply_inv hu
        split
        · exact reply_inv hu
        exact restoreCtx_inv hu

theorem execCtxDestroy_inv {r : Req} {p : List Byte} (h : s.Inv) : KeepsInv (execCtxDestroy r p s) :=
  serve_inv h fun hu => checked_inv hu fun hu => inv_ite (inv_update (hold_inv hu)) (reply_inv (dropCtx_inv hu))

theorem execCtxQuery_inv {r : Req} {p : List Byte} (h : s.Inv) : KeepsInv (execCtxQuery r p s) :=
  serve_inv h fun hu => checked_inv hu fun hu => by
    split
    · exact hu
    exact reply_inv hu

theorem execStatsRead_inv {r : Req} {p : List Byte} (h : s.Inv) : KeepsInv (execStatsRead r p s) :=
  serve_inv h fun hu => checked_inv hu fun hu => by
    split
    · exact hu
    exact checked_inv hu fun hu => by
        refine inv_ite (reply_inv (inv_ite_snd hu (readSpans_inv hu))) ?_
        refine inv_ite (reply_inv (inv_ite_snd hu (readSpans_inv hu))) ?_
        exact reply_inv (writeHbm_inv (inv_ite_snd hu (readSpans_inv hu)))

/-! ### Runs -/

theorem leaveLists_inv {mi i : Nat} (h : s.Inv) : (leaveLists s mi i).Inv := inv_update h

theorem joinList_inv {mi place i : Nat} (h : s.Inv) : (joinList s mi place i).Inv := inv_update h

theorem admitRun_inv {i : Nat} {c : Ctx} {r : Req} {op : Nat} {md : Modes} {seeded : Bool} {before :
    Option CtxData} (h : s.Inv) :
    (admitRun s i c r op md seeded before).2.Inv := joinList_inv (inv_update h)

theorem rewriteCtx_inv {i : Nat} {old new : Ctx} (h : s.Inv) : (rewriteCtx s i old new).Inv :=
  writeDiff_inv (setCtx_inv h)

theorem beginRun_inv {r : Req} {op : Nat} {md : Modes} {i : Nat} {c : Ctx} {p tbl ladder : List Byte} {seed :
    Option DWord} (h : s.Inv) :
    (beginRun s r op md i c p tbl ladder seed).Inv := rewriteCtx_inv (admitRun_inv (hold_inv h))

theorem awaitSeed_inv {r : Req} {op : Nat} {md : Modes} {i : Nat} {payload tbl : List Byte} (h : s.Inv) :
    (awaitSeed s r op md i payload tbl).Inv := inv_update (hold_inv h)

theorem runTable_inv {op : Nat} {p : List Byte} {drawn : Option Drawn} (h : s.Inv) : (runTable s op p drawn).2.Inv := by
  unfold runTable
  split
  · exact h
  exact inv_ite_snd (readHbm_inv h) h

theorem runWith_inv {r : Req} {op : Nat} {md : Modes} {i : Nat} {c : Ctx} {payload : List Byte} {drawn :
    Option Drawn} (h : s.Inv) :
    (runWith s r op md i c payload drawn).Inv := by
  unfold runWith
  dsimp only
  split
  · exact reply_inv (runTable_inv h)
  exact checked_inv (runTable_inv h) fun hu => inv_ite (awaitSeed_inv hu) (beginRun_inv hu)

theorem runCommand_inv {r : Req} {op : Nat} {md : Modes} {payload : List Byte} {drawn : Option Drawn} (h : s.Inv) :
    (runCommand s r op md payload drawn).Inv :=
  checked_inv h fun hu => by
    split
    · exact hu
    exact checked_inv hu runWith_inv

theorem execRunSample_inv {r : Req} {p : List Byte} (h : s.Inv) : KeepsInv (execRunSample r p s) :=
  serve_inv h runCommand_inv

theorem execRunAnneal_inv {r : Req} {p : List Byte} (h : s.Inv) : KeepsInv (execRunAnneal r p s) :=
  serve_inv h runCommand_inv

theorem execRunTemper_inv {r : Req} {p : List Byte} (h : s.Inv) : KeepsInv (execRunTemper r p s) :=
  serve_inv h runCommand_inv

theorem runReply_inv {v : Run} {reason : Nat} {d : CtxData} (h : s.Inv) : (runReply s v reason d).Inv :=
  inv_ite (reply_inv h) (reply_inv h)

theorem failPauses_inv {v : Run} (h : s.Inv) : (failPauses s v).Inv := each_inv h reply_inv

theorem countAbandoned_inv {w : Sweep} (h : s.Inv) : (countAbandoned s w).Inv :=
  each_inv h fun hu => by
    split
    · exact hu
    exact bump64_inv hu

theorem abandonSweep_inv {i : Nat} (h : s.Inv) : (abandonSweep s i).Inv := by
  unfold abandonSweep
  split
  · exact h
  split
  · exact h
  exact modCtx_inv (countAbandoned_inv h)

theorem unseat_inv {i : Nat} {c : Ctx} {st : RunState} (h : s.Inv) : (unseat s i c st).Inv := by
  unfold unseat
  refine inv_ite (writeBack_inv (forgetItems_inv (leaveLists_inv h))) ?_
  exact rewriteCtx_inv (forgetItems_inv (leaveLists_inv h))

theorem abortRun_inv {r : Req} {i : Nat} (h : s.Inv) : (abortRun s r i).Inv := by
  unfold abortRun
  dsimp only
  split
  · exact abandonSweep_inv h
  split
  · exact reply_inv (takeSaves_inv (unseat_inv (abandonSweep_inv h)))
  exact reply_inv (failPauses_inv (runReply_inv (takeSaves_inv (unseat_inv (abandonSweep_inv h)))))

theorem execRunPause_inv {r : Req} {p : List Byte} (h : s.Inv) : KeepsInv (execRunPause r p s) :=
  serve_inv h fun hu => checked_inv hu fun hu => by
    split
    · exact hu
    split
    · exact reply_inv hu
    · exact reply_inv hu
    exact inv_ite (reply_inv hu) (modCtx_inv (hold_inv hu))

theorem execRunResume_inv {r : Req} {p : List Byte} (h : s.Inv) : KeepsInv (execRunResume r p s) :=
  serve_inv h fun hu => checked_inv hu fun hu => by
    split
    · exact hu
    exact inv_ite (rewriteCtx_inv (admitRun_inv (hold_inv hu))) (reply_inv hu)

theorem execRunAbort_inv {r : Req} {p : List Byte} (h : s.Inv) : KeepsInv (execRunAbort r p s) :=
  serve_inv h fun hu => checked_inv hu fun hu => by
    split
    · exact hu
    exact inv_ite (reply_inv hu) (abortRun_inv hu)

theorem failRun_inv {i : Nat} (h : s.Inv) : (failRun s i).Inv := by
  unfold failRun
  dsimp only
  split
  · exact abandonSweep_inv h
  split
  · exact abandonSweep_inv h
  exact failPauses_inv (takeSaves_inv (reply_inv
    (rewriteCtx_inv (forgetItems_inv (leaveLists_inv (abandonSweep_inv h))))))

/-! ### Halves -/

theorem seamEvent_inv (h : s.Inv) : (seamEvent s).Inv := workEvent_inv h

theorem startHalves_inv (h : s.Inv) : (startHalves s).Inv := inv_update h

/-! ### Joining -/

theorem barrierReply_inv {b : Barrier} {st : Status} {detail : Nat} {payload : List Byte} (h : s.Inv) :
    (barrierReply s b st detail payload).Inv := elim_inv h (fun _ => reply_inv h)

theorem endJoinedWork_inv (h : s.Inv) : (endJoinedWork s).Inv := by
  unfold endJoinedWork
  dsimp only
  split
  · exact reply_inv (inv_update (each_inv (inv_update (each_inv h endMove_inv)) barrierReply_inv))
  exact each_inv (inv_update (each_inv h endMove_inv)) barrierReply_inv

theorem dropTraffic_inv {n : Nat} (h : s.Inv) : (dropTraffic s n).Inv :=
  modPort_inv (each_inv h (fun hu => elim_inv hu (fun _ => freeFlits_inv hu)))

theorem declareLost_inv {j unit : Nat} {from_ : Option Nat} (h : s.Inv) : (declareLost s j unit from_).Inv := by
  unfold declareLost
  refine inv_ite h ?_
  exact endJoinedWork_inv (event_inv (each_inv (inv_update (each_inv h sendMsg_inv)) dropTraffic_inv))

theorem execLost_inv {m : LeashMsg} (h : s.Inv) : KeepsInv (execLost m s) :=
  keepsInv_next (receiveMsg_inv h fun hu => inv_ite (declareLost_inv hu) hu)

theorem execLossTimeout_inv {n : Nat} (h : s.Inv) : KeepsInv (execLossTimeout n s) := by
  unfold execLossTimeout
  apply keepsInv_next
  split
  · exact inv_ite (declareLost_inv h) h
  exact h

theorem execWhistleRepeat_inv {n : Nat} (h : s.Inv) : KeepsInv (execWhistleRepeat n s) :=
  keepsInv_next (inv_ite (inv_update (modPort_inv h)) h)

theorem execWhistleTimeout_inv {n : Nat} (h : s.Inv) : KeepsInv (execWhistleTimeout n s) := by
  unfold execWhistleTimeout
  apply keepsInv_next
  refine inv_ite ?_ ?_
  · split
    · exact declareLost_inv h
    exact modPort_inv h
  exact h

theorem execLeashCtrlFlit_inv {n : Nat} {f : CtrlFlit} (h : s.Inv) : KeepsInv (execLeashCtrlFlit n f s) := by
  have hnak : ∀ {g g' : Port → Port} {k : Nat},
    (if f.nak then nakReplay (modPort s n g) n k else modPort (modPort s n g) n g').Inv :=
    inv_ite (nakReplay_inv (modPort_inv h)) (modPort_inv (modPort_inv h))
  unfold execLeashCtrlFlit
  apply keepsInv_next
  split
  · exact h
  split
  · exact bump_inv h
  split
  · exact bump_inv h
  dsimp only
  refine pump_inv (inv_ite (firstWhistle_inv (modPort_inv hnak)) (inv_ite ?_ hnak))
  split
  · exact declareLost_inv hnak
  exact hnak

theorem sendRound_inv {b : Barrier} (h : s.Inv) : (sendRound s b).Inv := sendTo_inv h

theorem setBarrier_inv {b : Barrier} (h : s.Inv) : (setBarrier s b).Inv := inv_update h

theorem advance_inv {k : Nat} {b : Barrier} (h : s.Inv) : (advance k s b).Inv := by
  induction k generalizing s b with
  | zero => exact h
  | succ k ih =>
    rw [advance]
    dsimp only
    split
    · exact barrierReply_inv h
    split
    · exact ih (inv_ite (sendRound_inv (setBarrier_inv h)) (setBarrier_inv h))
    exact h

theorem enterBarrier_inv {id : Word} {scope : Nat} {r : Option Req} (h : s.Inv) : (enterBarrier s id scope r).Inv :=
  advance_inv (inv_ite (sendRound_inv (inv_update h)) (inv_update h))

theorem execBarrier_inv {r : Req} {p : List Byte} (h : s.Inv) : KeepsInv (execBarrier r p s) :=
  serve_inv h fun hu => checked_inv hu fun hu => inv_ite (replyBusy_inv hu) (enterBarrier_inv (hold_inv hu))

theorem execBarrierMessage_inv {m : LeashMsg} (h : s.Inv) : KeepsInv (execBarrierMessage m s) := by
  unfold execBarrierMessage
  dsimp only
  apply keepsInv_next
  exact receiveMsg_inv h fun hu => by
      split
      · exact inv_ite (advance_inv (setBarrier_inv hu)) hu
      exact inv_ite (modPort_inv hu) hu

theorem startSelfTest_inv (h : s.Inv) : (startSelfTest s).Inv :=
  inv_ite (each_inv (each_inv (inv_update h) (fun hu => each_inv hu sendMsg_inv)) enterBarrier_inv) h

theorem execLeashTrainingDone_inv {n : Nat} {lanes : BitVec 8} {partner : Option LinkParams} {words :
    List LaneWord} (h : s.Inv) :
    KeepsInv (execLeashTrainingDone n lanes partner words s) := by
  unfold execLeashTrainingDone
  dsimp only
  apply keepsInv_next
  refine inv_ite ?_ ?_
  · split
    · exact inv_ite h (startTraining_inv h)
    exact startSelfTest_inv (pump_inv (sendAgain_inv (inv_update (modPort_inv (inv_ite h (startTraining_inv h))))))
  exact h

theorem retrainMembers_inv (h : s.Inv) : (retrainMembers s).Inv := each_inv h startTraining_inv

theorem unjoinPorts_inv (h : s.Inv) : (unjoinPorts s).Inv := inv_update h

theorem execJoinConfig_inv {r : Req} {p : List Byte} (h : s.Inv) : KeepsInv (execJoinConfig r p s) :=
  serve_inv h fun hu => checked_inv hu fun hu => by
    refine inv_ite (reply_inv hu) ?_
    refine inv_ite ?_ ?_
    · exact reply_inv (unjoinPorts_inv (dropSlots_inv
      (inv_update (each_inv hu (fun hu => inv_ite (sendCtrl_inv hu) hu)))))
    exact startSelfTest_inv (retrainMembers_inv (giveSlots_inv (unjoinPorts_inv (hold_inv (inv_update hu)))))

theorem endJoin_inv {ok : Bool} (h : s.Inv) : (endJoin s ok).Inv := by
  unfold endJoin
  dsimp only
  split
  · exact inv_ite (reply_inv (inv_update h)) (reply_inv (inv_update h))
  exact inv_update h

theorem execJoinWaitTimeout_inv (h : s.Inv) : KeepsInv (execJoinWaitTimeout s) :=
  keepsInv_next (inv_ite (inv_ite (startSelfTest_inv h) (endJoin_inv (inv_update h))) h)

theorem execJoinSelftestDone_inv {passed : Bool} (h : s.Inv) : KeepsInv (execJoinSelftestDone passed s) :=
  keepsInv_next (inv_ite (endJoin_inv (inv_update h)) h)

theorem execSelftest_inv {m : LeashMsg} (h : s.Inv) : KeepsInv (execSelftest m s) :=
  keepsInv_next (receiveMsg_inv h inv_update)

theorem execJoinIdChange_inv {level : BitVec 3} (h : s.Inv) : KeepsInv (execJoinIdChange level s) :=
  keepsInv_next (inv_update h)

theorem execBarrierTimeout_inv {id : Word} (h : s.Inv) : KeepsInv (execBarrierTimeout id s) := by
  unfold execBarrierTimeout
  apply keepsInv_next
  split
  · exact barrierReply_inv (inv_update h)
  exact h

theorem execTime_inv {m : LeashMsg} (h : s.Inv) : KeepsInv (execTime m s) :=
  keepsInv_next (receiveMsg_inv h fun hu => inv_ite (inv_update hu) (inv_update hu))

theorem execTimeSend_inv (h : s.Inv) : KeepsInv (execTimeSend s) := keepsInv_next (each_inv h sendMsg_inv)

/-! ### Sleep entry and exit -/

theorem leashSleep_inv (h : s.Inv) : (leashSleep s).Inv :=
  each_inv (each_inv h (fun hu => modPort_inv (sendCtrl_inv hu))) modPort_inv

theorem beginEntry_inv {r : Req} {target : PState} {retain : DWord} (h : s.Inv) : (beginEntry s r target retain).Inv :=
  markWake_inv (inv_ite (inv_update (hold_inv h)) (leashSleep_inv (inv_update (hold_inv h))))

theorem execPowerSet_inv {r : Req} {p : List Byte} (h : s.Inv) : KeepsInv (execPowerSet r p s) :=
  serveEarly_inv h fun hu => checked_inv hu fun hu => inv_ite (reply_inv hu)
    (inv_ite (reply_inv hu) (checked_inv hu beginEntry_inv))

theorem releaseSeats_inv (h : s.Inv) : (releaseSeats s).Inv := each_inv h (fun hu => inv_ite (unseat_inv hu) hu)

theorem loseOnEntry_inv {target : PState} (h : s.Inv) : (loseOnEntry s target).Inv := by
  unfold loseOnEntry
  split
  · exact ⟨rfl, h.2⟩
  exact h

theorem execSleepEntryComplete_inv (h : s.Inv) : KeepsInv (execSleepEntryComplete s) := by
  unfold execSleepEntryComplete
  dsimp only
  apply keepsInv_next
  split
  · exact h
  split
  · exact reply_inv (event_inv (inv_update (loseOnEntry_inv (releaseSeats_inv h))))
  exact markWake_inv (beginExit_inv (reply_inv (event_inv (inv_update (loseOnEntry_inv (releaseSeats_inv h))))))

theorem execWakeNAssert_inv (h : s.Inv) : KeepsInv (execWakeNAssert s) := by
  unfold execWakeNAssert
  apply keepsInv_next
  split
  · exact h
  · exact h
  exact wakeSource_inv (inv_update h)

theorem execWakeNDeassert_inv (h : s.Inv) : KeepsInv (execWakeNDeassert s) := keepsInv_next (inv_update h)

theorem execRtcAlarm_inv (h : s.Inv) : KeepsInv (execRtcAlarm s) := keepsInv_next (inv_ite (wakeSource_inv h) h)

theorem execThermalWake_inv {n : Nat} {temp : Int} (h : s.Inv) : KeepsInv (execThermalWake n temp s) :=
  keepsInv_next (inv_ite (inv_ite (wakeSource_inv (setSensor_inv h)) (setSensor_inv h)) h)

theorem execLeashActivity_inv {n lane : Nat} {inWindow : Bool} (h : s.Inv) :
    KeepsInv (execLeashActivity n lane inWindow s) :=
  keepsInv_next (inv_ite (inv_ite (startTraining_inv (wakeSource_inv h)) (wakeSource_inv h)) h)

theorem execWakeArm_inv {r : Req} {p : List Byte} (h : s.Inv) : KeepsInv (execWakeArm r p s) :=
  serveEarly_inv h fun hu => checked_inv hu fun hu => reply_inv (inv_update hu)

theorem sealUnretained_inv (h : s.Inv) : (sealUnretained s).Inv := ⟨h.1, filter_wf h.2 _⟩

theorem checkersFailed_inv {left : PState} {cores hbms : List Nat} (h : s.Inv) :
    (checkersFailed s left cores hbms).Inv := by
  unfold checkersFailed
  dsimp only
  split
  · exact inv_ite h (each_inv h (fun hu => checkThreshold_inv (countFault_inv hu)))
  exact fatalError_inv (inv_ite h (each_inv h (fun hu => checkThreshold_inv (countFault_inv hu))))

theorem execSleepExitComplete_inv {cores hbms : List Nat} (h : s.Inv) : KeepsInv (execSleepExitComplete s cores hbms) :=
  by
  unfold execSleepExitComplete
  apply keepsInv_next
  refine inv_ite h ?_
  exact checkersFailed_inv (event_inv (startHalves_inv
    (inv_update (inv_ite (orReg_inv (inv_ite (inv_update (inv_ite h (sealUnretained_inv h)))
      (inv_ite h (sealUnretained_inv h))))
        (inv_ite (inv_update (inv_ite h (sealUnretained_inv h))) (inv_ite h (sealUnretained_inv h)))))))

/-! ### Thermal control -/

theorem execRelockDone_inv (h : s.Inv) : KeepsInv (execRelockDone s) :=
  keepsInv_next (inv_ite (seamEvent_inv (inv_update h)) h)

theorem execThrottleTempReached_inv {n : Nat} {temp : Int} (h : s.Inv) : KeepsInv (execThrottleTempReached n temp s) :=
  keepsInv_next (inv_ite (inv_ite (retarget_inv (setHalf_inv (setSensor_inv h))) (setSensor_inv h)) h)

theorem execThrottleStepTimer_inv {j : Nat} (h : s.Inv) : KeepsInv (execThrottleStepTimer j s) :=
  keepsInv_next (inv_ite (inv_ite (retarget_inv (setHalf_inv h)) (inv_ite (retarget_inv (setHalf_inv h)) h)) h)

theorem execAlertTemp_inv {n : Nat} {temp : Int} (h : s.Inv) : KeepsInv (execAlertTemp n temp s) := by
  unfold execAlertTemp
  apply keepsInv_next
  refine inv_ite ?_ ?_
  · refine inv_ite ?_ ?_
    · refine inv_ite (retarget_inv (event_inv (inv_update (setSensor_inv h)))) ?_
      exact inBand_inv (retarget_inv (event_inv (inv_update (setSensor_inv h))))
    exact setSensor_inv h
  exact h

theorem execAlertTempRelease_inv {n : Nat} {temp : Int} (h : s.Inv) : KeepsInv (execAlertTempRelease n temp s) :=
  keepsInv_next (inv_ite (inv_ite (retarget_inv (inv_update (setSensor_inv h))) (setSensor_inv h)) h)

theorem execCoreClkGate_inv {j : Nat} (h : s.Inv) : KeepsInv (execCoreClkGate j s) :=
  keepsInv_next (inv_ite (setHalf_inv h) h)

/-! ### Sweeps -/

theorem putSweep_inv {i : Nat} {seat : Seat} {w : Sweep} (h : s.Inv) : (putSweep s i seat w).Inv :=
  inv_ite (seamEvent_inv (modCtx_inv h)) (modCtx_inv h)

theorem sweepStep_inv {i : Nat} {f : Ctx → Model → Seat → Sweep → State}
    (h : s.Inv) (hf : ∀ c m seat w, (f c m seat w).Inv) : KeepsInv (sweepStep s i f) := by
  unfold sweepStep
  apply keepsInv_next
  split
  · exact h
  split
  · exact h
  exact hf ..

theorem shareStep_inv {core i : Nat} {f : Ctx → Model → Seat → Sweep → Share → State} (h : s.Inv)
    (hf : ∀ c m seat w k, (f c m seat w k).Inv) : KeepsInv (shareStep s core i f) :=
  sweepStep_inv h fun c m seat w => by
    split
    · exact h
    exact hf ..

theorem countVector_inv {core replays saturated : Nat} (h : s.Inv) : (countVector s core replays saturated).Inv := by
  unfold countVector
  split
  · exact h
  exact bump_inv (bump_inv h)

theorem countPass_inv {m : Model} {cores : List Nat} {w : Sweep} {e : DensePass × PassTile} (h : s.Inv) :
    (countPass m cores (s, w) e).1.Inv := by
  unfold countPass
  split
  · exact h
  exact countVector_inv h

theorem markReplay_inv {i : Nat} {w : Sweep} {replayed : Bool} (h : s.Inv) : (markReplay s i w replayed).1.Inv :=
  inv_ite_fst (modCtx_inv h) h

theorem countField_inv {m : Model} {cores : List Nat} {i core : Nat} {xs : List Nat} {q : Slot} {spec : Bool} {w :
    Sweep} (h : s.Inv) :
    (countField m cores i core xs q spec s w).1.Inv := by
  have hpasses : ((passesOf m (contribs m xs q.var) q.var q.rep spec).foldl (countPass m cores) (s, w)).1.Inv :=
    List.foldlRecOn (motive := fun acc : State × Sweep => acc.1.Inv) _ _ h fun _ hacc _ _ => countPass_inv hacc
  unfold countField
  dsimp only
  split
  · exact hpasses
  exact markReplay_inv (countVector_inv hpasses)

theorem addVector_inv {m : Model} {cores : List Nat} {i : Nat} {spec : Bool} {w : Sweep} {k : Share} {q : Slot} (h :
    s.Inv) :
    (addVector m cores i spec (s, w, k) q).1.Inv := countField_inv h

theorem readPlaces_inv {us : List (Nat × Nat × Nat)} (h : s.Inv) : (readPlaces us s).2.Inv := by
  induction us generalizing s with
  | nil => exact h
  | cons u us ih =>
    rw [readPlaces]
    split
    · exact readSpad_inv h
    exact ih (readSpad_inv h)

theorem wordFault_inv {i : Nat} {e : Nat × Bool} (h : s.Inv) : (wordFault s i e).Inv :=
  inv_ite (checkThreshold_inv (failRun_inv (countFault_inv h))) (failRun_inv h)

theorem execFieldVectorComplete_inv {core ctx : Nat} {batch : List Slot} (h : s.Inv) :
    KeepsInv (execFieldVectorComplete core ctx batch s) :=
  shareStep_inv h fun c m seat w k => by
    dsimp only
    refine inv_ite h ?_
    split
    · exact wordFault_inv (inv_ite_snd h (readPlaces_inv h))
    exact putSweep_inv (List.foldlRecOn (motive := fun acc : State × Sweep × Share => acc.1.Inv) _ _
      (inv_ite_snd h (readPlaces_inv h)) fun _ hacc _ _ => addVector_inv hacc)

theorem bindGen_inv {p : Nat} {inst : Nat × Nat × Nat} (h : s.Inv) : (bindGen s p inst).Inv := modCore_inv h

theorem execPassKeyDraw_inv {ctx stream replica : Nat} (h : s.Inv) : KeepsInv (execPassKeyDraw ctx stream replica s) :=
  sweepStep_inv h fun _ _ _ _ => by
    dsimp only
    refine inv_ite h ?_
    split
    · exact h
    exact each_inv (putSweep_inv h) (fun hu => bindGen_inv (bump64_inv hu))

theorem execSampleBatch_inv {core ctx : Nat} {batch : List Slot} (h : s.Inv) :
    KeepsInv (execSampleBatch core ctx batch s) :=
  shareStep_inv h fun _ _ _ _ _ => inv_ite h (putSweep_inv h)

theorem execFlipWalk_inv {core ctx : Nat} (h : s.Inv) : KeepsInv (execFlipWalk core ctx s) :=
  shareStep_inv h fun _ _ _ _ _ => inv_ite h (putSweep_inv h)

theorem validateVec_inv {m : Model} {cores : List Nat} {i : Nat} {w : Sweep} {k : Share} {v : Vec} (h : s.Inv) :
    (validateVec m cores i (s, w, k) v).1.Inv := by
  unfold validateVec
  dsimp only
  split
  · exact h
  · exact countField_inv h
  exact h

theorem execValidation_inv {core ctx : Nat} (h : s.Inv) : KeepsInv (execValidation core ctx s) :=
  shareStep_inv h fun c m seat w k => by
    split
    · exact h
    refine inv_ite h (putSweep_inv (bump64_inv ?_))
    exact List.foldlRecOn (motive := fun acc : State × Sweep × Share => acc.1.Inv) _ _ h fun _ hacc _ _ => validateVec_inv hacc

theorem countMacs_inv {m : Model} {cores : List Nat} {us : List Upd} (h : s.Inv) : (countMacs s m cores us).Inv :=
  each_inv h fun hu => each_inv hu fun hu => by
    dsimp only
    split
    · exact hu
    exact bump64_inv hu

theorem reportSaturated_inv {core handle : Nat} {us : List Upd} (h : s.Inv) : (reportSaturated s core handle us).Inv :=
  each_inv h event_inv

theorem execColourCommit_inv {core ctx : Nat} (h : s.Inv) : KeepsInv (execColourCommit core ctx s) :=
  shareStep_inv h fun _ _ _ _ _ => inv_ite h (putSweep_inv (countMacs_inv (bump64_inv (reportSaturated_inv h))))

theorem execRemoteCommitArrival_inv {core fromCore ctx : Nat} (h : s.Inv) :
    KeepsInv (execRemoteCommitArrival core fromCore ctx s) :=
  shareStep_inv h fun _ _ _ _ _ => by
    split
    · exact h
    split
    · exact h
    exact inv_ite h (putSweep_inv h)

theorem execGeneratorSeedingDone_inv {ctx : Nat} (h : s.Inv) : KeepsInv (execGeneratorSeedingDone ctx s) :=
  keepsInv_next (inv_ite (modCtx_inv h) h)

/-! ### Tensor programs -/

theorem readVecs_inv {t : Tensor} {off len : Nat} {vs : List Nat} (h : s.Inv) : (readVecs s t off len vs).2.Inv := by
  induction vs generalizing s with
  | nil => exact h
  | cons v vs ih =>
    rw [readVecs]
    dsimp only
    split
    · exact readHbm_inv h
    exact ih (readHbm_inv h)

theorem writeEngine_inv {a : Nat} {bs : List Byte} (h : s.Inv) : (writeEngine s a bs).Inv := writeWords_inv h

/-! ### Tiles -/

theorem endProg_inv {p : Prog} {st : Status} {detail : Nat} {first : Option Nat} (h : s.Inv) :
    (endProg s p st detail first).Inv := reply_inv (forgetItems_inv (dropWork_inv (inv_update h)))

theorem progUnreadable_inv {p : Prog} (h : s.Inv) : (progUnreadable s p).Inv := endProg_inv h

theorem nextTile_inv {p : Prog} (h : s.Inv) : (nextTile s p).Inv := by
  unfold nextTile
  refine inv_ite (setProg_inv h) ?_
  exact inv_ite (endProg_inv h) (inv_ite (setProg_inv h) (inv_ite (endProg_inv h) (endProg_inv h)))

theorem giveProgWork_inv {p : Prog} (h : s.Inv) : (giveProgWork s p).Inv := giveWork_inv h

theorem beginProg_inv {r : Req} {md : Modes} {b : List Byte} (h : s.Inv) : (beginProg s r md b).Inv :=
  seamEvent_inv (giveProgWork_inv (inv_update (hold_inv h)))

theorem execTensorOp_inv {r : Req} {pl : List Byte} (h : s.Inv) : KeepsInv (execTensorOp r pl s) :=
  serve_inv h fun hu => checked_inv hu fun hu => by
    refine inv_ite (reply_inv hu) ?_
    dsimp only
    split
    · exact reply_inv (readHbm_inv hu)
    exact inv_ite (reply_inv (readHbm_inv hu)) (inv_ite (reply_inv (readHbm_inv hu)) (beginProg_inv (readHbm_inv hu)))

theorem readPreload_inv {p : Prog} {t : TStep} (h : s.Inv) : (readPreload s p t).2.Inv := by
  unfold readPreload
  dsimp only
  split
  · exact h
  exact readVecs_inv h

theorem readGroups_inv {x : Tensor} {vs : List Nat} (h : s.Inv) : (readGroups s x vs).2.Inv := readVecs_inv h

theorem skipTile_inv {p : Prog} (h : s.Inv) : (skipTile s p).Inv := nextTile_inv h

theorem keepTile_inv {p : Prog} {t : Tile} (h : s.Inv) : (keepTile s p t).Inv := setProg_inv (bump_inv (bump_inv h))

theorem drainMatmul_inv {p : Prog} {t : TStep} {a b : Tensor} (h : s.Inv) : (drainMatmul s p t a b).Inv := by
  unfold drainMatmul
  dsimp only
  split
  · refine inv_ite ?_ ?_
    · exact skipTile_inv (inv_ite_snd (readGroups_inv (readGroups_inv h))
      (readPreload_inv (readGroups_inv (readGroups_inv h))))
    exact keepTile_inv (inv_ite_snd (readGroups_inv (readGroups_inv h))
      (readPreload_inv (readGroups_inv (readGroups_inv h))))
  exact progUnreadable_inv (inv_ite_snd (readGroups_inv (readGroups_inv h))
    (readPreload_inv (readGroups_inv (readGroups_inv h))))

theorem drainConvert_inv {p : Prog} {a : Tensor} (h : s.Inv) : (drainConvert s p a).Inv := by
  unfold drainConvert
  dsimp only
  split
  · exact progUnreadable_inv (readVecs_inv h)
  exact inv_ite (skipTile_inv (readVecs_inv h)) (keepTile_inv (readVecs_inv h))

theorem execTileDrain_inv {r : Req} (h : s.Inv) : KeepsInv (execTileDrain r s) := by
  unfold execTileDrain
  dsimp only
  apply keepsInv_next
  split
  · exact h
  exact inv_ite h (inv_ite (drainMatmul_inv h) (drainConvert_inv h))

theorem writePartial_inv {c : Tensor} {m n : Nat} {q : Tile} {xs : List Elem} (h : s.Inv) :
    (writePartial s c m n q xs).Inv :=
  writeEngine_inv h

theorem writeColumn_inv {p : Prog} {t : TStep} {c : Tensor} {q : Tile} {n : Nat} {xs : List Elem} {late :
    List Word} (h : s.Inv) :
    (writeColumn s p t c q n xs late).1.Inv := by
  unfold writeColumn
  dsimp only
  cases tensorAt p.tensors t.cShadow with
  | none =>
    split
    · exact writePartial_inv h
    exact writeEngine_inv h
  | some _ =>
    split
    · exact writePartial_inv (writeEngine_inv h)
    exact writeEngine_inv (writeEngine_inv h)

theorem writeColumns_inv {p : Prog} {t : TStep} {c : Tensor} {q : Tile} {cs : List (Nat × List Elem × List Word)} (h :
    s.Inv) :
    (writeColumns p t c q s cs).1.Inv := by
  induction cs generalizing s with
  | nil => exact h
  | cons e cs ih => exact ih (writeColumn_inv h)

theorem refGroups_inv {ts : List Tensor} {x : Tensor} {shadow : Nat} {vs : List Nat} (h : s.Inv) :
    (refGroups s ts x shadow vs).2.Inv := by
  unfold refGroups
  dsimp only
  split
  · exact readGroups_inv h
  exact readVecs_inv h

theorem runSentinel_inv {p : Prog} {t : TStep} {a b : Tensor} {q : Tile} (h : s.Inv) : (runSentinel s p t a b q).Inv :=
  by
  unfold runSentinel
  dsimp only
  split
  · exact nextTile_inv (bump_inv (bump_inv
    (inv_ite_snd (refGroups_inv (refGroups_inv h)) (readPreload_inv (refGroups_inv (refGroups_inv h))))))
  exact progUnreadable_inv (inv_ite_snd (refGroups_inv (refGroups_inv h))
    (readPreload_inv (refGroups_inv (refGroups_inv h))))

theorem readLate_inv {p : Prog} {t : TStep} (h : s.Inv) : (readLate s p t).2.Inv := inv_ite_snd (readPreload_inv h) h

theorem countTile_inv {p : Prog} {t : TStep} {staged conv : Nat} (h : s.Inv) : (countTile s p t staged conv).1.Inv :=
  bump64_inv (bump_inv h)

theorem writeTile_inv {p : Prog} {t : TStep} {q : Tile} {late : List (List Word)} (h : s.Inv) :
    (writeTile s p t q late).Inv := by
  unfold writeTile
  refine inv_ite (runSentinel_inv (countTile_inv (writeColumns_inv h))) ?_
  exact nextTile_inv (countTile_inv (writeColumns_inv h))

theorem execTileOutputWritten_inv {r : Req} (h : s.Inv) : KeepsInv (execTileOutputWritten r s) := by
  unfold execTileOutputWritten
  dsimp only
  apply keepsInv_next
  split
  · exact h
  split
  · exact h
  refine inv_ite h ?_
  split
  · exact progUnreadable_inv (readLate_inv h)
  exact writeTile_inv (readLate_inv h)

/-! ### Accumulator drains -/

theorem execAccDrain_inv {r : Req} {b : List Byte} (h : s.Inv) : KeepsInv (execAccDrain r b s) :=
  serve_inv h fun hu => checked_inv hu fun hu => seamEvent_inv (inv_update (hold_inv hu))

theorem readColumn_inv {gn5 : Bool} {n : Nat} {ps : List Part} (h : s.Inv) : (readColumn s gn5 n ps).2.Inv := by
  induction ps generalizing s with
  | nil => exact h
  | cons p ps ih =>
    rw [readColumn]
    dsimp only
    split
    · exact readHbm_inv h
    exact ih (readHbm_inv h)

theorem readColumns_inv {gn5 : Bool} {ps : List Part} {ns : List Nat} (h : s.Inv) : (readColumns s gn5 ps ns).2.Inv :=
  by
  induction ns generalizing s with
  | nil => exact h
  | cons n ns ih =>
    rw [readColumns]
    dsimp only
    split
    · exact readColumn_inv h
    exact ih (readColumn_inv h)

theorem combinePreload_inv {gn5 : Bool} {b : List Byte} {n : Nat} (h : s.Inv) : (combinePreload s gn5 b n).2.Inv := by
  unfold combinePreload
  dsimp only
  split
  · exact h
  exact readVecs_inv h

theorem combineWrite_inv {d : Drain} {t : TStep} {n : Nat} {exp : Int} {xs : List Elem} {late : List Word} (h : s.Inv) :
    (combineWrite s d t n exp xs late).1.Inv := by
  unfold combineWrite
  dsimp only
  split
  · exact writeEngine_inv h
  exact writeEngine_inv (writeEngine_inv h)

theorem combineWrites_inv {d : Drain} {t : TStep} {cs : List (Nat × Int × List Elem × List Word)} (h : s.Inv) :
    (combineWrites d t s cs).1.Inv := by
  induction cs generalizing s with
  | nil => exact h
  | cons e cs ih => exact ih (combineWrite_inv h)

theorem combineReply_inv {d : Drain} {sat conv replays : Nat} {cols : List (List PartColumn)} (h : s.Inv) :
    (combineReply s d sat conv replays cols).Inv := inv_ite (reply_inv h) (reply_inv h)

theorem combine_inv {d : Drain} (h : s.Inv) : (combine s d).Inv := by
  unfold combine
  dsimp only
  split
  · exact combineReply_inv (bump_inv (bump_inv (combineWrites_inv (combinePreload_inv (readColumns_inv h)))))
  exact reply_inv (combinePreload_inv (readColumns_inv h))

theorem execAccDrainComplete_inv {r : Req} (h : s.Inv) : KeepsInv (execAccDrainComplete r s) := by
  unfold execAccDrainComplete
  dsimp only
  apply keepsInv_next
  split
  · exact h
  exact inv_ite h (inv_ite (combine_inv (inv_update h)) (reply_inv (inv_update h)))

/-! ### The register commands -/

theorem readMany_inv {n p a : Nat} {ind : Bool} (h : s.Inv) : (readMany n s p a ind).2.2.Inv := by
  induction n generalizing s a with
  | zero => exact h
  | succ n ih =>
    have hread : AccessInv (if ind then indAccess s p none else readReg s p a) := accessInv_ite (indAccess_inv h)
      (readReg_inv h)
    rw [readMany]
    dsimp only
    split
    · exact hread.2
    · rename_i hok
      exact ih (hread.1 _ hok)

theorem writeMany_inv {vs : List Nat} {p a : Nat} {ind : Bool} (h : s.Inv) : (writeMany vs s p a ind).2.2.Inv := by
  induction vs generalizing s a with
  | nil => exact h
  | cons v vs ih =>
    have hwrite : AccessInv (if ind then indAccess s p (some v) else writeReg recover s p a v 0) :=
      accessInv_ite (indAccess_inv h) (writeReg_inv h recover_inv)
    rw [writeMany]
    dsimp only
    split
    · exact hwrite.2
    · rename_i hok
      exact ih (hwrite.1 _ hok)

theorem loadInd_inv {p a : Nat} {ind : Bool} (h : s.Inv) : (loadInd s p a ind).Inv := inv_ite (modPath_inv h) h

theorem regReadCmd_inv {r : Req} {p : List Byte} {op : Nat} {ind : Bool} (h : s.Inv) :
    KeepsInv (regReadCmd r p op ind s) := by
  unfold regReadCmd
  dsimp only
  split
  · exact keepsInv_next h
  exact serveEarly_inv h fun hu => checked_inv hu fun hu => reply_inv (readMany_inv (loadInd_inv hu))

theorem regWriteCmd_inv {r : Req} {p : List Byte} {op : Nat} {ind : Bool} (h : s.Inv) :
    KeepsInv (regWriteCmd r p op ind s) := by
  unfold regWriteCmd
  dsimp only
  split
  · exact keepsInv_next h
  exact serveEarly_inv h fun hu => checked_inv hu fun hu => reply_inv
    (commandBoundary_inv (writeMany_inv (loadInd_inv hu)))

theorem execRegRead_inv {r : Req} {p : List Byte} (h : s.Inv) : KeepsInv (execRegRead r p s) := regReadCmd_inv h

theorem execRegWrite_inv {r : Req} {p : List Byte} (h : s.Inv) : KeepsInv (execRegWrite r p s) := regWriteCmd_inv h

theorem execRegReadInd_inv {r : Req} {p : List Byte} (h : s.Inv) : KeepsInv (execRegReadInd r p s) := regReadCmd_inv h

theorem execRegWriteInd_inv {r : Req} {p : List Byte} (h : s.Inv) : KeepsInv (execRegWriteInd r p s) :=
  regWriteCmd_inv h

theorem accessWrite_inv {p a : Nat} {v hw : Word} (h : s.Inv) : (accessWrite s p a v hw).Inv :=
  inv_ite (afterAccess_inv (writeReg_inv h recover_inv)) h

theorem accessRead_inv {p a : Nat} (h : s.Inv) : (accessRead s p a).Inv := inv_ite (afterAccess_inv (readReg_inv h)) h

theorem execMuzzle_inv {p : Nat} {v : Word} (h : s.Inv) : KeepsInv (execMuzzle p v s) :=
  keepsInv_next (accessWrite_inv h)

theorem execMuzzleArmExpiry_inv {p : Nat} (h : s.Inv) : KeepsInv (execMuzzleArmExpiry p s) :=
  keepsInv_next (inv_ite (modPath_inv h) h)

theorem execIndData_inv {p : Nat} {v : Option Word} (h : s.Inv) : KeepsInv (execIndData p v s) := by
  unfold execIndData
  apply keepsInv_next
  split
  · exact accessWrite_inv h
  exact accessRead_inv h

theorem execLoWordRead_inv {p a : Nat} (h : s.Inv) : KeepsInv (execLoWordRead p a s) :=
  keepsInv_next (inv_ite (accessRead_inv h) h)

theorem execSecChallenge0_inv {p : Nat} (h : s.Inv) : KeepsInv (execSecChallenge0 p s) :=
  keepsInv_next (accessRead_inv h)

theorem execFetchStatusKept_inv {p : Nat} {v : Word} (h : s.Inv) : KeepsInv (execFetchStatusKept p v s) :=
  keepsInv_next (accessWrite_inv h)

theorem execSecRecover_inv {p : Nat} {v : Word} (h : s.Inv) : KeepsInv (execSecRecover p v s) :=
  keepsInv_next (accessWrite_inv h)

theorem execRegisterWrite_inv {p a : Nat} {v hw : Word} (h : s.Inv) : KeepsInv (execRegisterWrite p a v hw s) :=
  keepsInv_next (accessWrite_inv h)

theorem execCommandBoundary_inv (h : s.Inv) : KeepsInv (execCommandBoundary s) := keepsInv_next (commandBoundary_inv h)

/-! ### The sideband and the TAP -/

theorem sideReply_inv {bytes : List Byte} (h : s.Inv) : (sideReply s bytes).Inv := inv_update h

theorem transaction_inv {bytes : List Byte} {pecOk : Bool} {size : Nat} {f : State → State}
    (h : s.Inv) (hf : ∀ {u : State}, u.Inv → (f u).Inv) : (transaction s bytes pecOk size f).Inv := by
  unfold transaction
  split
  · exact h
  split
  · exact sideReply_inv h
  exact hf h

theorem sideRead_inv {r : Access × State} (hr : AccessInv r) : (sideRead r).Inv := by
  unfold sideRead
  split
  · rename_i hok
    exact sideReply_inv (hr.1 _ hok)
  exact sideReply_inv hr.2

theorem sideWrite_inv {r : Access × State} (hr : AccessInv r) : (sideWrite r).Inv := by
  unfold sideWrite
  split
  · rename_i hok
    exact sideReply_inv (hr.1 _ hok)
  exact sideReply_inv hr.2

theorem execSidebandRegRead_inv {b : List Byte} {pecOk : Bool} (h : s.Inv) : KeepsInv (execSidebandRegRead b pecOk s) :=
  keepsInv_next (transaction_inv h fun hu => sideRead_inv (readReg_inv hu))

theorem execSidebandRegWrite_inv {b : List Byte} {pecOk : Bool} (h : s.Inv) :
    KeepsInv (execSidebandRegWrite b pecOk s) :=
  keepsInv_next (transaction_inv h fun hu => sideWrite_inv (writeReg_inv hu recover_inv))

theorem execIndRead_inv {b : List Byte} {pecOk : Bool} (h : s.Inv) : KeepsInv (execIndRead b pecOk s) :=
  keepsInv_next (transaction_inv h fun hu => sideRead_inv (indAccess_inv (loadInd_inv hu)))

theorem execIndWrite_inv {b : List Byte} {pecOk : Bool} (h : s.Inv) : KeepsInv (execIndWrite b pecOk s) :=
  keepsInv_next (transaction_inv h fun hu => sideWrite_inv (indAccess_inv (loadInd_inv hu)))

theorem execTelemetry_inv {b : List Byte} {pecOk : Bool} (h : s.Inv) : KeepsInv (execTelemetry b pecOk s) :=
  keepsInv_next (transaction_inv h fun hu => sideReply_inv (inv_update hu))

theorem execAlertResponse_inv (h : s.Inv) : KeepsInv (execAlertResponse s) :=
  keepsInv_next (inv_ite (sideReply_inv h) h)

theorem execSetdasa_inv {a : BitVec 7} (h : s.Inv) : KeepsInv (execSetdasa a s) :=
  keepsInv_next (inv_ite (inv_update h) h)

theorem execEntdaa_inv {a : BitVec 7} (h : s.Inv) : KeepsInv (execEntdaa a s) :=
  keepsInv_next (inv_ite (inv_update h) h)

theorem execRstdaa_inv (h : s.Inv) : KeepsInv (execRstdaa s) := keepsInv_next (inv_ite (inv_update h) h)

theorem i3cRead_inv {bytes : List Byte} (h : s.Inv) : (i3cRead s bytes).Inv := inv_ite (sideReply_inv h) h

theorem execGetpid_inv (h : s.Inv) : KeepsInv (execGetpid s) := keepsInv_next (i3cRead_inv h)

theorem execGetbcr_inv (h : s.Inv) : KeepsInv (execGetbcr s) := keepsInv_next (i3cRead_inv h)

theorem execGetdcr_inv (h : s.Inv) : KeepsInv (execGetdcr s) := keepsInv_next (i3cRead_inv h)

theorem execGetstatus_inv (h : s.Inv) : KeepsInv (execGetstatus s) := keepsInv_next (i3cRead_inv h)

theorem execEnec_inv (h : s.Inv) : KeepsInv (execEnec s) := keepsInv_next (inv_ite (inv_update h) h)

theorem execDisec_inv (h : s.Inv) : KeepsInv (execDisec s) := keepsInv_next (inv_ite (inv_update h) h)

theorem tapSelect_inv {i : TapInstr} (h : s.Inv) : (tapSelect s i).Inv := inv_ite h (inv_update h)

theorem execExtest_inv (h : s.Inv) : KeepsInv (execExtest s) := keepsInv_next (tapSelect_inv h)

theorem execSamplePreload_inv {cells : List Bool} (h : s.Inv) : KeepsInv (execSamplePreload cells s) :=
  keepsInv_next (inv_ite h (inv_update (tapSelect_inv h)))

theorem execIdcode_inv (h : s.Inv) : KeepsInv (execIdcode s) := keepsInv_next (tapSelect_inv h)

theorem execClamp_inv (h : s.Inv) : KeepsInv (execClamp s) := keepsInv_next (tapSelect_inv h)

theorem execHighz_inv (h : s.Inv) : KeepsInv (execHighz s) := keepsInv_next (tapSelect_inv h)

theorem execBypass_inv (h : s.Inv) : KeepsInv (execBypass s) := keepsInv_next (tapSelect_inv h)

/-! ### The Trail -/

theorem freeze_inv (h : s.Inv) : (freeze s).Inv := inv_ite h (inv_update h)

theorem execTrailFreeze_inv {r : Req} {p : List Byte} (h : s.Inv) : KeepsInv (execTrailFreeze r p s) :=
  serveEarly_inv h fun hu => checked_inv hu fun hu => reply_inv (freeze_inv hu)

theorem thaw_inv (h : s.Inv) : (thaw s).Inv := inv_ite (enqueueRec_inv (inv_update h)) h

theorem execTrailThaw_inv {r : Req} {p : List Byte} (h : s.Inv) : KeepsInv (execTrailThaw r p s) :=
  serveEarly_inv h fun hu => checked_inv hu fun hu => reply_inv (thaw_inv hu)

theorem recordAt_inv {seq : Nat} (h : s.Inv) : (recordAt s seq).2.Inv := by
  unfold recordAt
  dsimp only
  refine inv_ite_snd ?_ ?_
  · split <;> exact h
  exact readHbm_inv h

theorem recordsFrom_inv {n seq : Nat} (h : s.Inv) : (recordsFrom n seq s).2.Inv := by
  induction n generalizing s seq with
  | zero => exact h
  | succ n ih => exact ih (recordAt_inv h)

theorem execTrailRead_inv {r : Req} {p : List Byte} (h : s.Inv) : KeepsInv (execTrailRead r p s) :=
  serveEarly_inv h fun hu => checked_inv hu fun hu => reply_inv (recordsFrom_inv hu)

theorem execTrailRecordWrite_inv (h : s.Inv) : KeepsInv (execTrailRecordWrite s) := by
  unfold execTrailRecordWrite
  apply keepsInv_next
  split
  · exact h
  exact inv_ite h (writeRec_inv (inv_update h))

theorem execTrailSpill_inv (h : s.Inv) : KeepsInv (execTrailSpill s) :=
  keepsInv_next (inv_ite (inv_update (each_inv h writeHbm_inv)) h)

theorem execTrailIntervalEnd_inv {key : IntervalKey} (h : s.Inv) : KeepsInv (execTrailIntervalEnd key s) := by
  unfold execTrailIntervalEnd
  apply keepsInv_next
  split
  · exact inv_ite (endInterval_inv h) h
  exact h

theorem execFetchDumpDone_inv (h : s.Inv) : KeepsInv (execFetchDumpDone s) :=
  keepsInv_next (inv_ite h (inv_update (each_inv h writeHbm_inv)))

theorem readDump_inv {o n : Nat} (h : s.Inv) : (readDump s o n).2.Inv :=
  inv_ite_snd (readHbm_inv h) (readHbm_inv (readHbm_inv h))

theorem execDumpRead_inv {r : Req} {p : List Byte} (h : s.Inv) : KeepsInv (execDumpRead r p s) :=
  serve_inv h fun hu => checked_inv hu fun hu => by
    dsimp only
    split <;> exact reply_inv (readDump_inv hu)

/-! ### Privileged commands -/

theorem renewChallenge_inv (h : s.Inv) : (renewChallenge s).Inv := drawChallenge_inv (inv_update h)

theorem judgeToken_inv {t : List Byte} {u : TokenUse} (h : s.Inv) : (judgeToken s t u).2.Inv := by
  unfold judgeToken
  dsimp only
  split
  · exact inv_ite (renewChallenge_inv (event_inv h)) (event_inv h)
  exact renewChallenge_inv (event_inv h)

theorem readToken_inv {a : Nat} (h : s.Inv) : (readToken s a).2.Inv := by
  unfold readToken
  dsimp only
  split
  · exact readHbm_inv h
  exact inv_ite_snd (readHbm_inv (readHbm_inv h)) (readHbm_inv h)

theorem withToken_inv {r : Req} {op tokenAddr arg : Nat} {data : Option (Nat × Nat)} {ok : State → List Byte → State}
    (h : s.Inv) (hok : ∀ {u : State} {bs : List Byte}, u.Inv → (ok u bs).Inv) :
      (withToken s r op tokenAddr arg data ok).Inv := by
  have htoken := readToken_inv h (a := tokenAddr)
  unfold withToken
  dsimp only
  split
  · exact reply_inv htoken
  cases data with
  | none => exact inv_ite (hok (judgeToken_inv htoken)) (reply_inv (judgeToken_inv htoken))
  | some d =>
    dsimp only
    split
    · exact reply_inv (readHbm_inv htoken)
    exact inv_ite (hok (judgeToken_inv (readHbm_inv htoken))) (reply_inv (judgeToken_inv (readHbm_inv htoken)))

theorem stageImage_inv {img : List Byte} (h : s.Inv) : (stageImage s img).Inv := inv_ite (inv_update h) (inv_update h)

theorem execFwStage_inv {r : Req} {p : List Byte} (h : s.Inv) : KeepsInv (execFwStage r p s) :=
  serve_inv h fun hu => checked_inv (inv_update hu) fun hu => withToken_inv hu fun hu => inv_ite (reply_inv hu)
    (inv_ite (reply_inv hu) (reply_inv (stageImage_inv hu)))

theorem execFwActivate_inv {r : Req} {p : List Byte} (h : s.Inv) : KeepsInv (execFwActivate r p s) :=
  serve_inv h fun hu => checked_inv hu fun hu => withToken_inv hu fun hu => by
    refine inv_ite (reply_inv hu) ?_
    exact inv_ite (reply_inv hu) (inv_ite (inv_update (reply_inv (inv_update hu))) (reply_inv (inv_update hu)))

theorem execOtpProgram_inv {r : Req} {p : List Byte} (h : s.Inv) : KeepsInv (execOtpProgram r p s) :=
  serve_inv h fun hu => checked_inv hu fun hu => withToken_inv hu fun hu => by
    refine inv_ite (reply_inv (inv_ite (fenceOtpWritten_inv hu) hu)) ?_
    refine inv_ite ?_ ?_
    · refine inv_ite (reply_inv (inv_ite (fenceOtpWritten_inv hu) hu)) ?_
      exact reply_inv (event_inv (inv_update (inv_ite (fenceOtpWritten_inv hu) hu)))
    refine inv_ite (reply_inv (inv_ite (fenceOtpWritten_inv hu) hu)) ?_
    exact reply_inv (event_inv (inv_update (inv_ite (fenceOtpWritten_inv hu) hu)))

theorem execDebugUnlock_inv {r : Req} {p : List Byte} (h : s.Inv) : KeepsInv (execDebugUnlock r p s) :=
  serve_inv h fun hu => checked_inv hu fun hu => withToken_inv hu fun hu => inv_ite (reply_inv hu)
    (reply_inv (event_inv (inv_update hu)))

theorem nextLeaf_inv (h : s.Inv) : (nextLeaf s).2.Inv := by
  unfold nextLeaf
  dsimp only
  split
  · exact inv_ite_snd (inv_update h) (inv_ite_snd (event_inv (inv_update h)) h)
  exact inv_ite_snd (event_inv (inv_update h)) h

theorem finishAttest_inv {r : Req} {payload own : List Byte} (h : s.Inv) : (finishAttest s r payload own).Inv := by
  unfold finishAttest
  dsimp only
  split <;> exact reply_inv (inv_update (nextLeaf_inv h))

theorem execAttest_inv {r : Req} {p : List Byte} (h : s.Inv) : KeepsInv (execAttest r p s) :=
  serve_inv h fun hu => checked_inv hu fun hu => inv_ite (reply_inv hu) (inv_update (hold_inv hu))

/-! ### Entropy -/

theorem modEnt_inv {f : Entropy → Entropy} (h : s.Inv) : (modEnt s f).Inv := inv_update h

theorem hostBusy_inv {r : Req} (h : s.Inv) : (hostBusy s r).Inv := replyBusy_inv (orReg_inv (inv_update h))

theorem execEntropyGet_inv {r : Req} {p : List Byte} (h : s.Inv) : KeepsInv (execEntropyGet r p s) :=
  serve_inv h fun hu => checked_inv hu fun hu => inv_ite (hostBusy_inv hu)
    (inv_ite (hostBusy_inv hu) (modEnt_inv (hold_inv hu)))

theorem execHostWaitExpiry_inv {r : Req} (h : s.Inv) : KeepsInv (execHostWaitExpiry r s) :=
  keepsInv_next (inv_ite (hostBusy_inv (modEnt_inv h)) h)

theorem failDraw_inv {d : Draw} (h : s.Inv) : (failDraw s d).Inv := by
  unfold failDraw
  split
  · exact reply_inv h
  · exact reply_inv h
  · exact h
  · exact reply_inv h
  exact reply_inv h

theorem failDraws_inv {p : EntReq → Bool} (h : s.Inv) : (failDraws s p).Inv := each_inv (modEnt_inv h) failDraw_inv

theorem haltBlock_inv {source test : Nat} (h : s.Inv) : (haltBlock s source test).Inv :=
  failDraws_inv (event_inv (orReg_inv (modEnt_inv h)))

theorem sourceFailed_inv {n : Nat} (h : s.Inv) : (sourceFailed s n).Inv := by
  unfold sourceFailed
  refine inv_ite ?_ ?_
  · exact failDraws_inv (modEnt_inv (orReg_inv
    (inv_ite (orReg_inv (modEnt_inv (inv_update h))) (modEnt_inv (inv_update h)))))
  exact inv_ite (orReg_inv (modEnt_inv (inv_update h))) (modEnt_inv (inv_update h))

theorem execHealthTestFail_inv {n test : Nat} {samples : List Bool} (h : s.Inv) :
    KeepsInv (execHealthTestFail n test s samples) := by
  unfold execHealthTestFail
  apply keepsInv_next
  refine inv_ite h ?_
  exact inv_ite (inv_ite h (modEnt_inv (haltBlock_inv h))) (inv_ite (sourceFailed_inv (haltBlock_inv h)) h)

theorem execSourceRestart_inv {n : Nat} (h : s.Inv) : KeepsInv (execSourceRestart n s) :=
  keepsInv_next (inv_ite (modEnt_inv h) h)

theorem execSourceStartupPass_inv {n : Nat} {samples : List Bool} (h : s.Inv) :
    KeepsInv (execSourceStartupPass n s samples) :=
  keepsInv_next (inv_ite (modEnt_inv h) h)

theorem execConditionedBlock_inv {samples : List Bool} (h : s.Inv) : KeepsInv (execConditionedBlock s samples) := by
  unfold execConditionedBlock
  dsimp only
  apply keepsInv_next
  refine inv_ite h ?_
  split
  · exact h
  split
  · exact modEnt_inv (modEnt_inv h)
  · exact modEnt_inv h
  exact inv_ite (modEnt_inv (modEnt_inv h)) (modEnt_inv h)

theorem execDrbgInstantiate_inv (h : s.Inv) : KeepsInv (execDrbgInstantiate s) :=
  keepsInv_next (inv_ite (orReg_inv (modEnt_inv h)) h)

theorem execDrbgReseed_inv (h : s.Inv) : KeepsInv (execDrbgReseed s) := keepsInv_next (inv_ite (modEnt_inv h) h)

/-! ### Placing and moving shares -/

theorem touchShares_inv {mi : Nat} {cores : List Nat} (h : s.Inv) : (touchShares s mi cores).Inv :=
  each_inv h modCore_inv

theorem fillSeat_inv {c : Ctx} {d : CtxData} {places : List (Nat × Nat × Nat × Nat)} (h : s.Inv) :
    (fillSeat s c d places).Inv := each_inv h writeSpad_inv

theorem seatCtx_inv {mi place i : Nat} {c : Ctx} (h : s.Inv) : (seatCtx s mi place i c).Inv := by
  unfold seatCtx
  refine inv_ite ?_ ?_
  · exact failRun_inv (readHbm_inv (touchShares_inv (bump64_inv (seatingBoundary_inv h))))
  exact setCtx_inv (fillSeat_inv (readHbm_inv (touchShares_inv (bump64_inv (seatingBoundary_inv h)))))

theorem execSeating_inv {mi place : Nat} (h : s.Inv) : KeepsInv (execSeating mi place s) := by
  unfold execSeating
  apply keepsInv_next
  split
  · exact h
  split
  · exact h
  exact inv_ite h (seatCtx_inv h)

theorem toTail_inv {mi place i : Nat} (h : s.Inv) : (toTail s mi place i).Inv := inv_update h

theorem endRun_inv {i : Nat} {c : Ctx} {v : Run} {reason : Nat} (h : s.Inv) : (endRun s i c v reason).Inv :=
  runReply_inv (takeSaves_inv (unseat_inv h))

theorem execContextWriteBack_inv {ctx : Nat} (h : s.Inv) : KeepsInv (execContextWriteBack ctx s) := by
  unfold execContextWriteBack
  dsimp only
  apply keepsInv_next
  split
  · exact h
  split
  · refine inv_ite h ?_
    split
    · exact wordFault_inv (readPlaces_inv h)
    · exact endRun_inv (readPlaces_inv h)
    exact toTail_inv (writeBack_inv (readPlaces_inv h))
  exact h

theorem execDynamicLoadBalance_inv {mi place : Nat} (h : s.Inv) : KeepsInv (execDynamicLoadBalance mi place s) := by
  unfold execDynamicLoadBalance
  dsimp only
  apply keepsInv_next
  refine inv_ite h ?_
  split
  · exact h
  split
  · exact h
  exact reproEvent_inv (bump_inv (modCtx_inv (joinList_inv (leaveLists_inv h))))

theorem readShares_inv {mi : Nat} {m : Model} {bs : List Nat} (h : s.Inv) : (readShares s mi m bs).Inv :=
  each_inv h (fun hu => inv_ite (scrubRange_inv hu) (inv_update (scrubRange_inv hu)))

theorem execShareEviction_inv {mi place : Nat} (h : s.Inv) : KeepsInv (execShareEviction mi place s) := by
  unfold execShareEviction
  apply keepsInv_next
  split
  · exact h
  split
  · exact h
  dsimp only
  split
  · exact h
  split
  · exact h
  rename_i hroom
  exact addShares_inv (readShares_inv (roomFor_inv h hroom))

theorem servePause_inv {i : Nat} (h : s.Inv) : (servePause s i).Inv := by
  unfold servePause
  dsimp only
  split
  · exact h
  split
  · exact h
  exact inv_ite h (each_inv (runReply_inv (unseat_inv h)) reply_inv)

theorem dropPauses_inv {i : Nat} (h : s.Inv) : (dropPauses s i).Inv := by
  unfold dropPauses
  split
  · exact h
  exact failPauses_inv (modCtx_inv h)

theorem closeRound_inv {i : Nat} {c : Ctx} {m : Model} {seat : Seat} {w : Sweep} (h : s.Inv) :
    (closeRound s i c m seat w).Inv := by
  unfold closeRound
  refine inv_ite (dropPauses_inv (takeSaves_inv (modCtx_inv (fillSeat_inv h)))) ?_
  exact servePause_inv (takeSaves_inv (modCtx_inv (fillSeat_inv h)))

theorem sweepRegisters_inv {w : Sweep} (h : s.Inv) : (sweepRegisters s w).Inv := each_inv h sweepRegBoundary_inv

theorem execSweepBoundary_inv {ctx : Nat} (h : s.Inv) : KeepsInv (execSweepBoundary ctx s) :=
  sweepStep_inv h fun _ _ _ _ => by
    refine inv_ite h ?_
    split
    · exact putSweep_inv (sweepRegisters_inv h)
    exact closeRound_inv (sweepRegisters_inv h)

/-! ### Faults -/

theorem fenceReserve_inv {q : Nat} (h : s.Inv) : (fenceReserve s q).Inv :=
  settleFence_inv (inv_update (recordFence_inv h))

theorem sendBack_inv {i : Nat} (h : s.Inv) : (sendBack s i).Inv := modCtx_inv h

theorem relist_inv {mi p : Nat} {i : Nat} (h : s.Inv) : (relist mi p s i).Inv := by
  unfold relist
  dsimp only
  split
  · exact h
  exact modCtx_inv (joinList_inv h)

theorem relistModel_inv {mi : Nat} (h : s.Inv) : (relistModel s mi).Inv := by
  unfold relistModel
  dsimp only
  split
  · exact h
  exact each_inv (inv_update h) relist_inv

theorem moveShare_inv {q : Nat} {j : ResShare} (h : s.Inv) : (moveShare q s j).Inv := by
  unfold moveShare
  split
  · exact h
  exact inv_ite h (addShare_inv (readShares_inv h))

theorem restartTiles_inv {old : State} (h : s.Inv) : (restartTiles old s).1.Inv := h

theorem rebuildWork_inv {os : List Owner} (h : s.Inv) : (rebuildWork s os).Inv := by
  unfold rebuildWork
  refine each_inv (each_inv h dropWork_inv) fun hu => ?_
  split
  · exact elim_inv hu fun _ => giveModelWork_inv hu
  · exact elim_inv hu fun _ => giveProgWork_inv hu
  exact hu

theorem sealCore_inv {p : Nat} (h : s.Inv) : (sealCore s p).Inv := ⟨h.1, filter_wf h.2 _⟩

theorem carryWork_inv {p : Nat} {plan : List Byte × Nat × Nat} (h : s.Inv) : (carryWork s p plan).Inv := by
  have hrebuilt : ∀ {t : State} {c : Prop} {_ : Decidable c} {q : Nat} {os : List Owner}, t.Inv →
      (rebuildWork (if c then sealCore (sealCore t p) q else sealCore t p) os).Inv := fun ht =>
    rebuildWork_inv (inv_ite (sealCore_inv (sealCore_inv ht)) (sealCore_inv ht))
  unfold carryWork
  dsimp only
  refine inv_ite ?hwork (event_inv ?hwork)
  split
  · exact hrebuilt (restartTiles_inv (each_inv
    (each_inv (inv_update (each_inv h abandonSweep_inv)) sendBack_inv) relistModel_inv))
  exact each_inv (hrebuilt (restartTiles_inv
    (each_inv (each_inv (inv_update (each_inv h abandonSweep_inv)) sendBack_inv)
    relistModel_inv))) moveShare_inv

theorem runFence_inv {ok : List Nat} {p : Nat} (h : s.Inv) : (runFence s ok p).Inv := by
  unfold runFence
  refine inv_ite (fatalError_inv (each_inv h fenceReserve_inv)) ?_
  exact beginFence_inv (inv_update (settleFence_inv (carryWork_inv (each_inv h fenceReserve_inv))))

theorem execFenceSequence_inv {reservesOk : List Nat} (h : s.Inv) : KeepsInv (execFenceSequence reservesOk s) := by
  unfold execFenceSequence
  apply keepsInv_next
  split
  · exact h
  exact inv_ite (runFence_inv h) h

theorem noteAttempt_inv {p : Nat} {w : WorkItem} (h : s.Inv) : (noteAttempt s p w).Inv := modCore_inv h

theorem countRetry_inv {repro : Bool} (h : s.Inv) : (countRetry repro s).Inv := workEvent_inv (bump_inv h)

theorem retryItem_inv {ps : List Nat} {w : WorkItem} {repro : Bool} {redo : State → State}
    (h : s.Inv) (hredo : ∀ {u : State}, u.Inv → (redo u).Inv) : (retryItem s ps w repro redo).Inv := by
  unfold retryItem
  split
  · exact each_inv (forgetItems_inv h) decideFence_inv
  exact each_inv (hredo (countRetry_inv (each_inv h noteAttempt_inv))) checkThreshold_inv

theorem retryWork_inv {p : Nat} {w : WorkItem} {handle : Nat} {repro : Bool} {detail : Nat → List Byte} {redo :
    State → State}
    (h : s.Inv) (hredo : ∀ {u : State}, u.Inv → (redo u).Inv) : (retryWork s p w handle repro detail redo).Inv :=
  retryItem_inv (event_inv (countFault_inv h)) hredo

theorem markRepaired_inv {i : Nat} (h : s.Inv) : (markRepaired s i).Inv := modCtx_inv h

theorem dropSpeculation_inv {m : Model} {p : Nat} {j : Share} (h : s.Inv) : (dropSpeculation s m p j).1.Inv :=
  inv_ite_fst h (bump64_inv h)

theorem redoColour_inv {m : Model} {p : Nat} {j : Share} (h : s.Inv) : (redoColour s m p j).1.Inv :=
  dropSpeculation_inv h

theorem redoShare_inv {i p : Nat} {spec : Bool} {k : Nat} {m : Model} {q : Seat × Sweep × Share} (h : s.Inv) :
    (redoShare i p spec k m q s).Inv := markRepaired_inv
      (modCtx_inv (inv_ite_fst (dropSpeculation_inv h) (redoColour_inv h)))

theorem colourFault_inv {p engine i : Nat} {spec : Bool} (h : s.Inv) : (colourFault s p engine i spec).Inv := by
  unfold colourFault
  dsimp only
  split
  · exact h
  split
  · exact h
  refine inv_ite h ?_
  exact retryWork_inv (inv_ite (bump_inv h) h) fun hu => inv_ite (markRepaired_inv hu) (redoShare_inv hu)

theorem generatorFault_inv {p : Nat} (h : s.Inv) : (generatorFault s p).Inv := by
  unfold generatorFault
  dsimp only
  split
  · exact h
  exact retryWork_inv (bump_inv h) markRepaired_inv

theorem rewind_inv {i : Nat} (h : s.Inv) : (rewind s i).Inv := by
  unfold rewind
  dsimp only
  split
  · exact modCtx_inv (abandonSweep_inv h)
  exact elim_inv (modCtx_inv (abandonSweep_inv h)) (fun _ => fillSeat_inv (modCtx_inv (abandonSweep_inv h)))

theorem reduceFault_inv {p i : Nat} (h : s.Inv) : (reduceFault s p i).Inv := by
  unfold reduceFault
  split
  · exact h
  exact retryWork_inv h rewind_inv

theorem redoTile_inv {q : Prog} (h : s.Inv) : (redoTile q s).Inv := setProg_inv h

theorem tileFault_inv {p : Nat} {r : Req} (h : s.Inv) : (tileFault s p r).Inv := by
  unfold tileFault
  split
  · exact h
  exact inv_ite h (retryWork_inv (bump_inv h) redoTile_inv)

theorem meetWord_inv {u : MemUnit} {a : Nat} {cls : WordClass} (h : s.Inv) : (meetWord s u a cls).Inv := by
  unfold meetWord
  dsimp only
  split
  · exact corrected_inv (inv_ite (strikeWord_inv h) h)
  · exact inv_ite (inv_ite (strikeWord_inv h) h) (badRead_inv (inv_ite (strikeWord_inv h) h))
  refine inv_ite (badRead_inv (inv_ite (strikeWord_inv h) h)) ?_
  split
  · exact badRead_inv (inv_ite (strikeWord_inv h) h)
  · exact countFault_inv (badRead_inv (inv_ite (strikeWord_inv h) h))
  refine inv_ite (countFault_inv (badRead_inv (inv_ite (strikeWord_inv h) h))) ?_
  exact fatalError_inv (badRead_inv (inv_ite (strikeWord_inv h) h))

theorem runBadWord_inv {p i addr : Nat} (h : s.Inv) : (runBadWord s p i addr).Inv := by
  unfold runBadWord
  split
  · exact h
  exact inv_ite (checkThreshold_inv (failRun_inv (meetWord_inv h))) h

theorem energyFault_inv {p i replica : Nat} (h : s.Inv) : (energyFault s p i replica).Inv := by
  unfold energyFault
  dsimp only
  split
  · exact h
  split
  · exact h
  exact inv_ite (decideFence_inv (markRepaired_inv (workEvent_inv (event_inv (countFault_inv h))))) h

theorem countLink_inv {k n : Nat} (h : s.Inv) : (countLink s k n).Inv :=
  inv_ite (fatalError_inv (inv_update h)) (inv_update h)

theorem receiving_inv {w : Receiver} {x : WorkItem × Bool × (State → State)} (hx : receiving s w = some x) {u :
    State} (hu : u.Inv) :
    (x.2.2 u).Inv := by
  cases w with
  | tile r =>
    obtain ⟨q, _, rfl⟩ := Option.map_eq_some_iff.1 hx
    exact redoTile_inv hu
  | colour p i =>
    obtain ⟨q, _, rfl⟩ := Option.map_eq_some_iff.1 hx
    exact redoShare_inv hu
  | sweeps p i =>
    obtain ⟨q, _, rfl⟩ := Option.map_eq_some_iff.1 hx
    exact rewind_inv hu
  | ctxMove i =>
    obtain ⟨c, _, rfl⟩ := Option.map_eq_some_iff.1 hx
    exact markRepaired_inv hu

theorem meshFault_inv {k direction flits : Nat} {work : Option Receiver} (h : s.Inv) :
    (meshFault s k direction flits work).Inv := by
  have hcounted : (event (countFault (setReg (bump s 0x40004 flits) 0x40008 (k + 64))
    ((linkCores k).filter (counting s)) flits)
      0x0102 1 (unitMesh k) 0 (leBytes 1 direction ++ leBytes 4 flits)).Inv :=
    event_inv (countFault_inv (setReg_inv (bump_inv h)))
  have htried : (match work.bind (receiving (event (countFault (setReg (bump s 0x40004 flits) 0x40008 (k + 64))
      ((linkCores k).filter (counting s)) flits) 0x0102 1 (unitMesh k) 0 (leBytes 1 direction ++ leBytes 4 flits))) with
    | none => each ((linkCores k).filter (counting s))
      (event (countFault (setReg (bump s 0x40004 flits) 0x40008 (k + 64)) ((linkCores k).filter (counting s)) flits)
      0x0102 1 (unitMesh k) 0 (leBytes 1 direction ++ leBytes 4 flits)) checkThreshold
    | some w => retryItem (event (countFault (setReg (bump s 0x40004 flits) 0x40008 (k + 64))
      ((linkCores k).filter (counting s)) flits)
      0x0102 1 (unitMesh k) 0 (leBytes 1 direction ++ leBytes 4 flits))
        ((linkCores k).filter (counting s)) w.1 w.2.1 w.2.2).Inv := by
    split
    · exact each_inv hcounted checkThreshold_inv
    rename_i hwork
    obtain ⟨_, _, hx⟩ := Option.bind_eq_some_iff.1 hwork
    exact retryItem_inv hcounted (receiving_inv hx)
  exact inv_ite (countLink_inv htried) htried

theorem onCore_inv {p : Nat} {f : State → State} (h : s.Inv) (hf : ∀ {u : State}, u.Inv → (f u).Inv) :
    (onCore s p f).Inv :=
  inv_ite (hf h) h

theorem execFaultRetry_inv {d : Detection} (h : s.Inv) : KeepsInv (execFaultRetry d s) := by
  unfold execFaultRetry
  apply keepsInv_next
  split
  · exact onCore_inv h tileFault_inv
  · exact inv_ite (onCore_inv h colourFault_inv) h
  · exact onCore_inv h generatorFault_inv
  · exact onCore_inv h reduceFault_inv
  · exact inv_ite (meshFault_inv h) h
  · exact inv_ite (onCore_inv h runBadWord_inv) h
  · exact onCore_inv h energyFault_inv
  refine inv_ite h ?_
  split
  · exact onCore_inv h fun hu => checkThreshold_inv (meetWord_inv hu)
  exact meetWord_inv h

theorem execKnownAnswerWindow_inv {p : Nat} {pass : Bool} {engine : Nat} (h : s.Inv) :
    KeepsInv (execKnownAnswerWindow p pass engine s) := by
  unfold execKnownAnswerWindow
  apply keepsInv_next
  refine inv_ite h ?_
  refine inv_ite (modCore_inv h) ?_
  refine inv_ite (decideFence_inv (event_inv (modCore_inv (countFault_inv h)))) ?_
  exact checkThreshold_inv (countRetry_inv (event_inv (modCore_inv (countFault_inv h))))

theorem applyFence_inv {p : Nat} (h : s.Inv) : (applyFence s p).Inv :=
  inv_ite h (modCore_inv (carryWork_inv (recordFence_inv h)))

theorem execFaultMap_inv {r : Req} {p : List Byte} (h : s.Inv) : KeepsInv (execFaultMap r p s) := by
  unfold execFaultMap
  refine keepsInv_ite (keepsInv_next h) ?_
  exact serve_inv h fun hu => checked_inv hu fun hu => reply_inv (inv_ite (each_inv hu applyFence_inv) hu)

/-! ### FILL -/

theorem execFill_inv {r : Req} {p : List Byte} (h : s.Inv) : KeepsInv (execFill r p s) :=
  serve_inv h fun hu => checked_inv hu fun hu => inv_update (hold_inv hu)

theorem execFillComplete_inv {r : Req} (h : s.Inv) : KeepsInv (execFillComplete r s) := by
  unfold execFillComplete
  dsimp only
  apply keepsInv_next
  split
  · exact h
  exact reply_inv (writeHbm_inv (inv_update h))

/-! ### Grooming and upsets -/

theorem strike_inv {u : MemUnit} {e : Upset} (h : s.Inv) : (strike u s e).Inv := inv_ite (strikeWord_inv h) h

theorem misread_inv {u : MemUnit} {e : Upset} (h : s.Inv) : (misread u s e).Inv := inv_ite (setMarks_inv h) h

theorem restore_inv {u : MemUnit} {before : State} {e : Upset} (h : s.Inv) : (restore u before s e).Inv :=
  inv_ite (setMarks_inv h) h

theorem groomWord_inv {u : MemUnit} {a : Nat} (h : s.Inv) : (groomWord u s a).Inv := by
  unfold groomWord
  dsimp only
  split
  · exact corrected_inv h
  · split
    · exact checkThreshold_inv (countFault_inv (memEvent_inv (bump_inv h)))
    exact memEvent_inv (bump_inv h)
  exact h

theorem keepHighest_inv {u : MemUnit} {as : List Nat} (h : s.Inv) : (keepHighest s u as).Inv := by
  unfold keepHighest
  dsimp only
  split
  · exact recordLast_inv h
  · exact recordLast_inv h
  exact h

theorem groomWords_inv {u : MemUnit} {as : List Nat} (h : s.Inv) : (groomWords s u as).Inv :=
  keepHighest_inv (each_inv h groomWord_inv)

theorem groomStack_inv {n : Nat} (h : s.Inv) : (groomStack s n).Inv :=
  inv_ite (bump_inv (inv_update (groomWords_inv h))) (inv_update (groomWords_inv h))

theorem groomCore_inv {p : Nat} (h : s.Inv) : (groomCore s p).Inv :=
  inv_ite (bump_inv (modCore_inv (groomWords_inv h))) (modCore_inv (groomWords_inv h))

theorem execGroomerRead_inv {u : MemUnit} {upsets : List Upset} (h : s.Inv) : KeepsInv (execGroomerRead u upsets s) :=
  by
  unfold execGroomerRead
  dsimp only
  apply keepsInv_next
  split
  · exact inv_ite (each_inv (groomStack_inv (each_inv (each_inv h strike_inv) misread_inv)) restore_inv) h
  · exact inv_ite (each_inv (groomCore_inv (each_inv (each_inv h strike_inv) misread_inv)) restore_inv) h
  exact each_inv h strike_inv

theorem execMemWriteBack_inv {u : MemUnit} {a : Nat} (h : s.Inv) : KeepsInv (execMemWriteBack u a s) :=
  keepsInv_next (inv_ite (setMarks_inv (inv_update h)) h)

/-! ### Seeding of the generator -/

theorem finishDraw_inv {d : Draw} {bytes : List Byte} (h : s.Inv) : (finishDraw s d bytes).Inv := by
  unfold finishDraw
  split
  · exact openSession_inv h
  · exact finishAttest_inv h
  · exact inv_update h
  · exact runCommand_inv h
  exact reply_inv h

theorem generateFor_inv {e : EntReq} (h : s.Inv) : (generateFor s e).Inv :=
  inv_ite (finishDraw_inv (modEnt_inv (drbg_inv h))) (modEnt_inv (drbg_inv h))

theorem execDrbgGenerate_inv (h : s.Inv) : KeepsInv (execDrbgGenerate s) := by
  unfold execDrbgGenerate
  apply keepsInv_next
  refine inv_ite ?_ ?_
  · split
    · exact h
    exact generateFor_inv h
  exact h

/-- Every row keeps the canonical form, whatever the command: the arms of `exec`, one by one. -/
theorem exec_inv (h : s.Inv) (c : Instr) : KeepsInv (exec c s) :=
  match c with
  | .ping .. => execPing_inv h
  | .info .. => execInfo_inv h
  | .sessionOpen .. => execSessionOpen_inv h
  | .sessionClose .. => execSessionClose_inv h
  | .regRead .. => execRegRead_inv h
  | .regWrite .. => execRegWrite_inv h
  | .regReadInd .. => execRegReadInd_inv h
  | .regWriteInd .. => execRegWriteInd_inv h
  | .modelLoad .. => execModelLoad_inv h
  | .modelVerify .. => execModelVerify_inv h
  | .modelFree .. => execModelFree_inv h
  | .ctxCreate .. => execCtxCreate_inv h
  | .ctxUpdate .. => execCtxUpdate_inv h
  | .ctxSave .. => execCtxSave_inv h
  | .ctxRestore .. => execCtxRestore_inv h
  | .ctxDestroy .. => execCtxDestroy_inv h
  | .ctxQuery .. => execCtxQuery_inv h
  | .runSample .. => execRunSample_inv h
  | .runAnneal .. => execRunAnneal_inv h
  | .runTemper .. => execRunTemper_inv h
  | .runPause .. => execRunPause_inv h
  | .runResume .. => execRunResume_inv h
  | .runAbort .. => execRunAbort_inv h
  | .statsRead .. => execStatsRead_inv h
  | .tensorOp .. => execTensorOp_inv h
  | .accDrain .. => execAccDrain_inv h
  | .accDrainComplete .. => execAccDrainComplete_inv h
  | .move .. => execMove_inv h
  | .fill .. => execFill_inv h
  | .entropyGet .. => execEntropyGet_inv h
  | .powerSet .. => execPowerSet_inv h
  | .wakeArm .. => execWakeArm_inv h
  | .trailFreeze .. => execTrailFreeze_inv h
  | .trailRead .. => execTrailRead_inv h
  | .trailThaw .. => execTrailThaw_inv h
  | .dumpRead .. => execDumpRead_inv h
  | .faultMap .. => execFaultMap_inv h
  | .joinConfig .. => execJoinConfig_inv h
  | .barrier .. => execBarrier_inv h
  | .fwStage .. => execFwStage_inv h
  | .fwActivate .. => execFwActivate_inv h
  | .otpProgram .. => execOtpProgram_inv h
  | .debugUnlock .. => execDebugUnlock_inv h
  | .attest .. => execAttest_inv h
  | .frameReceived .. => execFrameReceived_inv h
  | .ethernetWhistleFrame .. => execEthernetWhistleFrame_inv h
  | .arpRequest .. => execArpRequest_inv h
  | .neighborSolicitation .. => execNeighborSolicitation_inv h
  | .gptpMessage .. => execGptpMessage_inv h
  | .reorderWaitExpiry .. => execReorderWaitExpiry_inv h
  | .sessionIdleTimeout .. => execSessionIdleTimeout_inv h
  | .ethLinkUp .. => execEthLinkUp_inv h
  | .ethLinkDown .. => execEthLinkDown_inv h
  | .gateCycleStart .. => execGateCycleStart_inv h
  | .leashCtrlFlit .. => execLeashCtrlFlit_inv h
  | .ctrlFlitDue .. => execCtrlFlitDue_inv h
  | .leashReplayTimeout .. => execLeashReplayTimeout_inv h
  | .leashCtrlTimeout .. => execLeashCtrlTimeout_inv h
  | .write .. => execWrite_inv h
  | .writeAck .. => execWriteAck_inv h
  | .readReq .. => execReadReq_inv h
  | .readData .. => execReadData_inv h
  | .valaz .. => execValaz_inv h
  | .barrierMessage .. => execBarrierMessage_inv h
  | .time .. => execTime_inv h
  | .timeSend => execTimeSend_inv h
  | .lost .. => execLost_inv h
  | .selftest .. => execSelftest_inv h
  | .laneSignalLoss .. => execLaneSignalLoss_inv h
  | .leashTrainingDone .. => execLeashTrainingDone_inv h
  | .leashTrainingTimeout .. => execLeashTrainingTimeout_inv h
  | .whistleRepeat .. => execWhistleRepeat_inv h
  | .whistleTimeout .. => execWhistleTimeout_inv h
  | .lossTimeout .. => execLossTimeout_inv h
  | .barrierTimeout .. => execBarrierTimeout_inv h
  | .joinWaitTimeout => execJoinWaitTimeout_inv h
  | .joinSelftestDone .. => execJoinSelftestDone_inv h
  | .fieldVectorComplete .. => execFieldVectorComplete_inv h
  | .sampleBatch .. => execSampleBatch_inv h
  | .passKeyDraw .. => execPassKeyDraw_inv h
  | .flipWalk .. => execFlipWalk_inv h
  | .validation .. => execValidation_inv h
  | .remoteCommitArrival .. => execRemoteCommitArrival_inv h
  | .colourCommit .. => execColourCommit_inv h
  | .sweepBoundary .. => execSweepBoundary_inv h
  | .generatorSeedingDone .. => execGeneratorSeedingDone_inv h
  | .tileDrain .. => execTileDrain_inv h
  | .tileOutputWritten .. => execTileOutputWritten_inv h
  | .faultRetry .. => execFaultRetry_inv h
  | .knownAnswerWindow .. => execKnownAnswerWindow_inv h
  | .fenceSequence .. => execFenceSequence_inv h
  | .fenceOtpWrite .. => execFenceOtpWrite_inv h
  | .fatalError .. => execFatalError_inv h
  | .fetchDumpDone => execFetchDumpDone_inv h
  | .seating .. => execSeating_inv h
  | .contextWriteBack .. => execContextWriteBack_inv h
  | .dynamicLoadBalance .. => execDynamicLoadBalance_inv h
  | .shareEviction .. => execShareEviction_inv h
  | .memWriteBack .. => execMemWriteBack_inv h
  | .groomerRead .. => execGroomerRead_inv h
  | .hbmRefresh _ => keepsInv_next h
  | .trailRecordWrite => execTrailRecordWrite_inv h
  | .trailSpill => execTrailSpill_inv h
  | .trailIntervalEnd .. => execTrailIntervalEnd_inv h
  | .healthTestFail .. => execHealthTestFail_inv h
  | .sourceRestart .. => execSourceRestart_inv h
  | .sourceStartupPass .. => execSourceStartupPass_inv h
  | .conditionedBlock .. => execConditionedBlock_inv h
  | .drbgInstantiate => execDrbgInstantiate_inv h
  | .drbgReseed => execDrbgReseed_inv h
  | .drbgGenerate => execDrbgGenerate_inv h
  | .hostWaitExpiry .. => execHostWaitExpiry_inv h
  | .sleepEntryComplete => execSleepEntryComplete_inv h
  | .wakeNAssert => execWakeNAssert_inv h
  | .rtcAlarm => execRtcAlarm_inv h
  | .thermalWake .. => execThermalWake_inv h
  | .leashActivity .. => execLeashActivity_inv h
  | .sleepExitComplete .. => execSleepExitComplete_inv h
  | .coreClkGate .. => execCoreClkGate_inv h
  | .throttleTempReached .. => execThrottleTempReached_inv h
  | .throttleStepTimer .. => execThrottleStepTimer_inv h
  | .alertTemp .. => execAlertTemp_inv h
  | .relockDone => execRelockDone_inv h
  | .thermtrip .. => execThermtrip_inv h
  | .pwrOkAssert => execPwrOkAssert_inv h
  | .pwrOkDeassert => execPwrOkDeassert_inv
  | .inputUndervoltage .. => execInputUndervoltage_inv h
  | .rstNAssert => execRstNAssert_inv h
  | .warmReset => execWarmReset_inv h
  | .rstNDeassert => execRstNDeassert_inv h
  | .glitchDetected .. => execGlitchDetected_inv h
  | .startDone .. => execStartDone_inv h
  | .boot => execBoot_inv h
  | .secRecover .. => execSecRecover_inv h
  | .muzzle .. => execMuzzle_inv h
  | .muzzleArmExpiry .. => execMuzzleArmExpiry_inv h
  | .indData .. => execIndData_inv h
  | .loWordRead .. => execLoWordRead_inv h
  | .secChallenge0 .. => execSecChallenge0_inv h
  | .fetchStatusKept .. => execFetchStatusKept_inv h
  | .registerWrite .. => execRegisterWrite_inv h
  | .commandBoundary => execCommandBoundary_inv h
  | .sidebandRegRead .. => execSidebandRegRead_inv h
  | .sidebandRegWrite .. => execSidebandRegWrite_inv h
  | .indRead .. => execIndRead_inv h
  | .indWrite .. => execIndWrite_inv h
  | .telemetry .. => execTelemetry_inv h
  | .alertResponse => execAlertResponse_inv h
  | .setdasa .. => execSetdasa_inv h
  | .entdaa .. => execEntdaa_inv h
  | .rstdaa => execRstdaa_inv h
  | .getpid => execGetpid_inv h
  | .getbcr => execGetbcr_inv h
  | .getdcr => execGetdcr_inv h
  | .getstatus => execGetstatus_inv h
  | .enec => execEnec_inv h
  | .disec => execDisec_inv h
  | .extest => execExtest_inv h
  | .samplePreload .. => execSamplePreload_inv h
  | .idcode => execIdcode_inv h
  | .clamp => execClamp_inv h
  | .highz => execHighz_inv h
  | .bypass => execBypass_inv h
  | .leashFrameBoundary .. => execLeashFrameBoundary_inv h
  | .alertTempRelease .. => execAlertTempRelease_inv h
  | .wakeNDeassert => execWakeNDeassert_inv h
  | .joinIdChange .. => execJoinIdChange_inv h
  | .flitCrcError _ seq vl _ => execFlitCrcError_inv seq vl h
  | .moveComplete .. => execMoveComplete_inv h
  | .fillComplete .. => execFillComplete_inv h
  | .modelLoadComplete .. => execModelLoadComplete_inv h
  | .ctxSaveComplete .. => execCtxSaveComplete_inv h

end

end Sys2Proof.Machine

open Sys2Proof Sys2Proof.Machine

/-- Settles O4: at reset HBM and the scratchpads hold nothing. -/
theorem resetCanonical : Obligations.ResetCanonical := ⟨rfl, rfl⟩

/-- Settles O5: an idle period touches neither memory, and every row of the dispatch keeps their form (`exec_inv`). -/
theorem stepKeepsCanonical : Obligations.StepKeepsCanonical := by
  intro s t h ht
  unfold step at ht
  split at ht
  · cases ht
    exact inv_update h
  · exact exec_inv (inv_update h) _ t ht
end

section
/-!
PROOFS. Loss of power and the cold start (13 R413, 15 R469, R471, R473, 18 R529): both give everything its reset value but OTP, the
firmware slots, the pins and the model's own fields.
-/

namespace Sys2Proof.Machine

/-! ### What stays -/

theorem otpAfterCut_idle {s : State} (h : s.faults.otpPending = none) : otpAfterCut s = s.sec.otp := by
  rw [otpAfterCut, h]

/-- PWR_OK asserted while nothing is wrong with the input and RST_N is deasserted. -/
theorem exec_pwrOkAssert {s : State} (hoff : s.power.pwrOk = false) (hinput : s.power.inputBad = false)
    (hrstN : s.power.rstN = false) :
    exec .pwrOkAssert s = .next (coldStart { s with power := { s.power with pwrOk := true } }) := by
  show Host.Outcome.next _ = _
  simp [hoff, hinput, hrstN]

/-- Power is lost: PWR_OK is deasserted, or the input leaves its range. -/
def PowerLost (s : State) (c : Instr) : Prop :=
  c = .pwrOkDeassert ∨ (∃ mv, c = .inputUndervoltage mv ∧ s.power.pwrOk = true ∧ (mv < 44000 ∨ 59000 < mv))

/-- What loss of power leaves is that of `powerOff`, but for the two flags that tell its cause. -/
theorem exec_powerLost {s : State} {c : Instr} (h : PowerLost s c) :
    ∃ pwrOk inputBad, exec c s = .next { powerOff s with power := { (powerOff s).power with pwrOk := pwrOk, inputBad := inputBad } } := by
  obtain rfl | ⟨mv, rfl, hpwrOk, hrange⟩ := h
  · exact ⟨false, _, rfl⟩
  · exact ⟨_, true, congrArg Host.Outcome.next (if_pos ⟨hpwrOk, hrange⟩)⟩

end Sys2Proof.Machine

open Sys2Proof Sys2Proof.Machine

/-- Settles O44: power that is lost leaves `powerOff` (`exec_powerLost`), PWR_OK asserted a cold start (`exec_pwrOkAssert`); OTP is
that of before unless a write of it was cut (`otpAfterCut_idle`). -/
theorem powerLossAndColdStart : Obligations.PowerLossAndColdStart := by
  refine ⟨?loss, ?start⟩
  case loss =>
    intro s c hlost
    obtain ⟨pwrOk, inputBad, hexec⟩ := exec_powerLost hlost
    exact ⟨_, hexec, rfl, rfl, rfl, rfl, rfl, rfl, rfl, rfl, rfl, rfl, otpAfterCut_idle⟩
  case start =>
    intro s hoff hinput hrstN
    refine ⟨_, exec_pwrOkAssert hoff hinput hrstN, rfl, rfl, rfl, rfl, rfl, rfl, rfl, rfl, fun hidle => ?_, rfl⟩
    have hotp := otpAfterCut_idle (s := { s with power := { s.power with pwrOk := true } }) hidle
    exact ⟨hotp, congrArg otpMap hotp⟩
end

section
/-!
PROOFS. BOOT and START_DONE (14 R438, 15 R473, 16 R480, R481): the slot that the boot ROM runs, and the map that the start forms.
-/

namespace Sys2Proof.Machine

/-! ### BOOT (16 R480, R481) -/

theorem applyHeld_sec (s : State) (due : Nat → Bool) (mask : Nat → Nat) : (applyHeld s due mask).sec = s.sec :=
  each_keeps State.sec (fun _ _ => setReg_sec ..) _ _

theorem startTraining_sec (s : State) (n : Nat) : (startTraining s n).sec = s.sec := by
  rw [startTraining, trainingBoundary, applyHeld_sec, modPort_sec]
  split
  · exact bump_sec ..
  · rfl

theorem startPorts_sec (s : State) : (startPorts s).sec = s.sec := each_keeps State.sec startTraining_sec _ s

/-- The image of a slot passes the checks of the boot ROM. -/
def bootsFrom (c : Security) (b : Bool) : Bool := slotBoots c.otp (if b then c.slotB else c.slotA)

/-- What BOOT leaves, by the slots whose images verify: the preferred one first. -/
def bootedFrom (s : State) : State :=
  if bootsFrom s.sec s.sec.preferB then runSlot (startPorts s) s.sec.preferB 0
  else if bootsFrom s.sec (!s.sec.preferB) then runSlot (startPorts s) (!s.sec.preferB) 1
  else { startPorts s with power := { (startPorts s).power with phase := .recovery } }

theorem exec_boot {s : State} (hphase : s.power.phase = .starting) (hwaits : bootWaits s = false) :
    exec .boot s = .next (bootedFrom s) := by
  have hexec : exec .boot s = .next (
      if bootsFrom (startPorts s).sec (startPorts s).sec.preferB then runSlot (startPorts s) (startPorts s).sec.preferB 0
      else if bootsFrom (startPorts s).sec (!(startPorts s).sec.preferB) then runSlot (startPorts s) (!(startPorts s).sec.preferB) 1
      else { startPorts s with power := { (startPorts s).power with phase := .recovery } }) :=
    congrArg Host.Outcome.next (if_pos ⟨hphase, hwaits⟩)
  rw [startPorts_sec] at hexec
  exact hexec

theorem runSlot_phase (s : State) (b : Bool) (skipped : Nat) : (runSlot s b skipped).power.phase = .booted := by
  rw [runSlot, event_power]

theorem runSlot_bootB (s : State) (b : Bool) (skipped : Nat) : (runSlot s b skipped).sec.bootB = b := by
  rw [runSlot, event_sec]

theorem bootedFrom_preferred {s : State} (h : bootsFrom s.sec s.sec.preferB = true) :
    bootedFrom s = runSlot (startPorts s) s.sec.preferB 0 := if_pos h

theorem bootedFrom_other {s : State} (h : bootsFrom s.sec s.sec.preferB = false)
    (hother : bootsFrom s.sec (!s.sec.preferB) = true) : bootedFrom s = runSlot (startPorts s) (!s.sec.preferB) 1 :=
  (if_neg (Bool.not_eq_true _ ▸ h)).trans (if_pos hother)

theorem bootedFrom_neither {s : State} (h : bootsFrom s.sec s.sec.preferB = false)
    (hother : bootsFrom s.sec (!s.sec.preferB) = false) :
    bootedFrom s = { startPorts s with power := { (startPorts s).power with phase := .recovery } } :=
  (if_neg (Bool.not_eq_true _ ▸ h)).trans (if_neg (Bool.not_eq_true _ ▸ hother))

/-! ### START_DONE (14 R438, 15 R473) -/

/-- The map that START_DONE forms: that of OTP, with the cores that failed their tests fenced in ascending order. -/
def startFences (s : State) (failed : List Nat) : State :=
  each ((List.range 18).filter (fun p => failed.contains p)) { s with map := otpMap s.sec.otp } fenceAtStart

theorem exec_startDone {s : State} (failed : List Nat) (hphase : s.power.phase = .booted) (hfatal : s.faults.fatal = none) :
    exec (.startDone failed) s = .next (if (startFences s failed).faults.fatal.isSome then startFences s failed
      else advanceRollback { startFences s failed with power := { (startFences s failed).power with phase := .running } }) :=
  congrArg Host.Outcome.next (if_pos ⟨hphase, hfatal⟩)

theorem startFences_nil (s : State) : startFences s [] = { s with map := otpMap s.sec.otp } := rfl

/-- Raising the rollback counter touches OTP and the records alone. -/
theorem advanceRollback_only (s : State) : ∃ x y z, advanceRollback s = { s with regs := x, trail := y, sec := z } := by
  unfold advanceRollback
  extract_lets v old
  split
  · obtain ⟨x, y, hevent⟩ := event_only _ 0x0A02 0 unitSecurity 0 [BitVec.ofNat 8 old, BitVec.ofNat 8 (min v 64)]
    exact ⟨x, y, _, hevent⟩
  · exact ⟨s.regs, s.trail, s.sec, rfl⟩

end Sys2Proof.Machine

open Sys2Proof Sys2Proof.Machine

/-- Settles O46: BOOT runs the first slot that verifies or waits in recovery (`exec_boot`, `bootedFrom_preferred`,
`bootedFrom_other`, `bootedFrom_neither`); START_DONE takes over the map with its fences, or leaves the fatal error
(`exec_startDone`, `advanceRollback_only`). -/
theorem bootAndStart : Obligations.BootAndStart := by
  refine ⟨?boot, ?start⟩
  case boot =>
    intro s hphase hwaits ok
    refine ⟨_, exec_boot hphase hwaits, fun hpreferred => ?_, fun hpreferred hother => ?_, fun hpreferred hother => ?_⟩
    · rw [bootedFrom_preferred hpreferred]
      exact ⟨runSlot_phase .., runSlot_bootB ..⟩
    · rw [bootedFrom_other hpreferred hother]
      exact ⟨runSlot_phase .., runSlot_bootB ..⟩
    · rw [bootedFrom_neither hpreferred hother]
      exact ⟨rfl, startPorts_sec s⟩
  case start =>
    intro s failed hphase hnone u
    have hexec := exec_startDone failed hphase hnone
    refine ⟨fun hfatal => ?_, fun hfatal => hexec.trans (congrArg Host.Outcome.next (if_pos hfatal))⟩
    rw [if_neg (by rw [show (startFences s failed).faults.fatal = none from hfatal]; decide)] at hexec
    obtain ⟨x, y, z, hraised⟩ := advanceRollback_only
      { startFences s failed with power := { (startFences s failed).power with phase := .running } }
    rw [hraised] at hexec
    refine ⟨_, hexec, rfl, rfl, rfl, rfl, fun hall => ?_⟩
    rw [hall, startFences_nil]
    exact ⟨rfl, rfl⟩
end

section
/-!
PROOFS. Register reads (17 R506): the value in effect of a plain word, and what values that wait for their boundary change of it.
-/

namespace Sys2Proof.Machine

theorem powered {s : State} {p a : Nat} (hpower : p = 8 → deepSleep s = true → switchedReg a = false) :
    ¬ (p = 8 ∧ deepSleep s = true ∧ switchedReg a = true) := by
  rintro ⟨h8, hsleep, hsw⟩
  exact absurd (hpower h8 hsleep) (by simp [hsw])

/-- A plain word that its path reaches returns the value in effect, and the read has no effect. -/
theorem readReg_plain {s : State} {p a : Nat} (hpower : p = 8 → deepSleep s = true → switchedReg a = false)
    (ha : (regInfo a).isSome = true) (hplain : plainRead a = true) :
    readReg s p a = (.ok (valueInEffect s (path s p).armed a, s), s) := by
  obtain ⟨i, hinfo⟩ := Option.isSome_iff_exists.mp ha
  simp only [plainRead, Bool.and_eq_true, bne_iff_ne, Bool.not_eq_true', decide_eq_false_iff_not, Option.isNone_iff_eq_none,
    Bool.and_eq_false_iff] at hplain
  obtain ⟨⟨⟨⟨⟨⟨hind0, hind4⟩, hind8⟩, hchallenge⟩, hhigh⟩, hpair⟩, hengine⟩ := hplain
  unfold readReg
  dsimp only
  simp only [hinfo]
  rw [if_neg (powered hpower), if_neg hind4, if_neg hind0, if_neg hind8, if_neg ?engine, if_neg (by omega), if_neg (by omega),
    if_neg (by rw [hhigh]; decide), hpair]
  · rfl
  case engine =>
    rintro ⟨hlow, hhi, hmem⟩
    simp [hlow, hhi, hmem] at hengine

/-! ### Values that wait for their boundary -/

theorem makeRoom_heldRegs (n : Nat) (s : State) (p need : Nat) (h : Map Word) :
    makeRoom n { s with heldRegs := h } p need = (makeRoom n s p need).map (fun t => { t with heldRegs := h }) := by
  have hfits (s : State) : (if residentSize s p + need ≤ 2 ^ 25 then some { s with heldRegs := h } else none) =
      (if residentSize s p + need ≤ 2 ^ 25 then some s else none).map (fun t => { t with heldRegs := h }) := by
    split <;> rfl
  induction n generalizing s with
  | zero => exact hfits s
  | succ n ih =>
    have hidle : oldestIdle { s with heldRegs := h } p = oldestIdle s p := rfl
    have hsize : residentSize { s with heldRegs := h } p = residentSize s p := rfl
    rw [makeRoom, makeRoom, hidle, hsize]
    by_cases hroom : residentSize s p + need ≤ 2 ^ 25
    · rw [if_pos hroom, if_pos hroom]
      rfl
    · rw [if_neg hroom, if_neg hroom]
      cases oldestIdle s p with
      | none => rfl
      | some x => exact ih (modCore s p fun c => { c with shares := eraseFirst (fun y => y == x) c.shares })

theorem roomFor_heldRegs (s : State) (m : Model) (absent : List (Nat × Nat)) (h : Map Word) :
    roomFor { s with heldRegs := h } m absent = (roomFor s m absent).map (fun t => { t with heldRegs := h }) := by
  have hfold : ∀ (l : List Nat) (acc : Option State) (g : State → Nat → Option State),
      (∀ t p, g { t with heldRegs := h } p = (g t p).map (fun t => { t with heldRegs := h })) →
      l.foldl (fun acc p => acc.bind (g · p)) (acc.map (fun t => { t with heldRegs := h })) =
        (l.foldl (fun acc p => acc.bind (g · p)) acc).map (fun t => { t with heldRegs := h }) := by
    intro l acc g hg
    induction l generalizing acc with
    | nil => rfl
    | cons p l ih =>
      rw [List.foldl_cons, List.foldl_cons, ← ih]
      cases acc with
      | none => rfl
      | some t => exact congrArg (l.foldl _) (hg t p)
  exact hfold _ (some s) _ fun t p => makeRoom_heldRegs _ t p _ h

theorem evicting_heldRegs (s : State) (h : Map Word) : evicting { s with heldRegs := h } = evicting s := by
  have hroom (m : Model) (absent : List (Nat × Nat)) :
      (roomFor { s with heldRegs := h } m absent).isSome = (roomFor s m absent).isSome := by
    rw [roomFor_heldRegs, Option.isSome_map]
  generalize hs : { s with heldRegs := h } = t at hroom
  unfold evicting
  simp only [hroom]
  subst hs
  rfl

/-- Values that wait for their boundary show in REG_STATUS alone: no other word of the view asks for them. -/
theorem viewReg_heldRegs (s : State) (h : Map Word) (armed : Bool) {a : Nat} (ha : a ≠ 0x24) :
    viewReg { s with heldRegs := h } armed a = viewReg s armed a := by
  have hevicting := evicting_heldRegs s h
  generalize hheld : { s with heldRegs := h } = t at hevicting
  unfold viewReg
  dsimp only
  rw [hevicting]
  refine if_congr Iff.rfl (by subst hheld; rfl) (if_congr Iff.rfl (by subst hheld; rfl) (if_congr Iff.rfl (by subst hheld; rfl)
    (if_congr Iff.rfl (by subst hheld; rfl) (if_congr Iff.rfl (by subst hheld; rfl) (if_congr Iff.rfl (by subst hheld; rfl)
    (if_congr Iff.rfl (by subst hheld; rfl) ?_))))))
  split
  case h_4 => exact absurd rfl ha
  all_goals
    subst hheld
    rfl

end Sys2Proof.Machine

open Sys2Proof Sys2Proof.Machine

/-- Settles O10: one word is read (`regReadCmd_accepted`), a plain one without effect (`readReg_plain`); values that wait show in
REG_STATUS alone (`viewReg_heldRegs`). -/
theorem readsReturnTheValueInEffect : Obligations.ReadsReturnTheValueInEffect := by
  intro s r p k hsession hk hlen hone hzero hinfo hplain hready u
  refine ⟨?_, fun h b ha => ?_, fun b => rfl⟩
  · have hexec := regReadCmd_accepted (op := 0x10) (ind := false) hsession hready (by omega) (by omega) hzero hlen
    have hread := readReg_plain (s := u) (p := k) (fun h8 => absurd h8 (by omega)) hinfo hplain
    have hpath : path u k = path s k := by rw [path, path, unqueue_paths]
    rw [hpath] at hread
    refine hexec.trans ?_
    have hmany : readMany 1 u k (u32 p 0) false = (leBytes 4 (valueInEffect u (path s k).armed (u32 p 0)) ++ [], none, u) := by
      rw [readMany, if_neg Bool.false_ne_true, hread]
      rfl
    have hloaded : loadInd u k (u32 p 0) false = u := rfl
    rw [readAnswer, hone, hloaded, hmany, List.append_nil, leBytes_length]
    rfl
  · rw [valueInEffect, viewReg_heldRegs s h b ha]
    rfl
end

section
/-!
PROOFS. The guard of a register (17 R513, R514): what arms a path, what ends its arm, and what a write of a guarded register does.
-/

namespace Sys2Proof.Machine

/-! ### The arm of a path -/

theorem path_modPath_same (s : State) (p : Nat) (f : Path → Path) : path (modPath s p f) p = f (path s p) := path_setPath_same ..

theorem path_modPath_other (s : State) {p q : Nat} (f : Path → Path) (h : q ≠ p) : path (modPath s p f) q = path s q :=
  path_setPath_other _ _ h

/-- The path is no longer armed. -/
def disarmed (s : State) (p : Nat) : State := modPath s p (fun q => { q with armed := false })

theorem exec_muzzle {s : State} {p : Nat} (v : Word) (hopen : pathOpen s p = true) :
    exec (.muzzle p v) s = .next (modPath s p (fun q => { q with armed := v.toNat == 0x2B0ED06F })) := by
  have hon := powered (s := s) (p := p) (a := 0x5008) fun _ _ => rfl
  show Host.Outcome.next (accessWrite s p 0x5008 v 0) = _
  rw [accessWrite, if_pos hopen, writeReg]
  simp only [show regInfo 0x5008 = some _ from rfl, if_neg hon]
  rfl

theorem exec_muzzleArmExpiry (s : State) (p : Nat) :
    exec (.muzzleArmExpiry p) s = .next (if (path s p).armed then disarmed s p else s) := rfl

/-! ### A write of a guarded register -/

section
variable {s : State} {p a : Nat} {i : RegInfo} (v hw : Word) (hr : Reaches s p a) (hi : regInfo a = some i)
  (hp : plainWrite a = true) (hg : i.guarded = true)
include hr hi hp hg

/-- A guarded register without an effect of its own turns on the arm: none refuses the write, one is ended by it. -/
theorem accessWrite_guarded : accessWrite s p a v hw =
    if (path s p).armed = false then accessFailed s p a false denied
    else if i.bound = .now ∨ i.rw = 0 then writeNow (disarmed s p) a i v.toNat hw.toNat
    else if i.bound = .sweep ∧ spinStatus (disarmed s p) ((a - 0x10000) / 0x1000) % 2 = 0 then
      writeNow (heldFree (disarmed s p) a) a i v.toNat hw.toNat
    else holdReg (disarmed s p) a v.toNat := by
  obtain ⟨hopen, -, hpower⟩ := hr
  have hon := powered hpower
  simp only [plainWrite, Bool.and_eq_true, bne_iff_ne, ne_eq] at hp
  obtain ⟨⟨⟨⟨⟨hmuzzle, hrecover⟩, hkept⟩, hindAddr⟩, hindData⟩, hindCtrl⟩ := hp
  rw [accessWrite, if_pos hopen]
  cases harmed : (path s p).armed with
  | false =>
    simp only [writeReg, hi, hon, hindData, hindAddr, hindCtrl, hmuzzle, hg, harmed, if_false, if_true, Bool.true_and, Bool.not_false,
      afterAccess]
  | true =>
    have hended : modPath s p (fun q => { q with armed := false }) = disarmed s p := rfl
    simp only [writeReg, hended, hi, hon, hindData, hindAddr, hindCtrl, hmuzzle, hrecover, hkept, hg, harmed, if_false, if_true,
      Bool.true_and, Bool.not_true, Bool.false_eq_true, Bool.true_eq_false,
      apply_ite afterAccess]
    rfl

theorem accessWrite_unarmed (harmed : (path s p).armed = false) : accessWrite s p a v hw = accessFailed s p a false denied := by
  rw [accessWrite_guarded v hw hr hi hp hg, if_pos harmed]

theorem accessWrite_armed_command (hb : i.bound = .command) (hrw : i.rw ≠ 0) (harmed : (path s p).armed = true) :
    accessWrite s p a v hw = holdReg (disarmed s p) a v.toNat := by
  rw [accessWrite_guarded v hw hr hi hp hg, if_neg (by rw [harmed]; decide), if_neg (by simp [hb, hrw]), if_neg (by simp [hb])]

end

/-- A register other than LK_CTRL that waits for its boundary holds the value written. -/
theorem lookup_holdReg (s : State) {a : Nat} (v : Word) (hl : isLkCtrl a = false) :
    lookup (holdReg s a v.toNat).heldRegs a = some v := by
  simp [holdReg, hl]

/-- A value that waits changes the held values alone. -/
theorem holdReg_only (s : State) (a v : Nat) : ∃ x, holdReg s a v = { s with heldRegs := x } := by
  unfold holdReg
  dsimp only
  split
  · exact ⟨_, rfl⟩
  · exact ⟨_, rfl⟩

end Sys2Proof.Machine

open Sys2Proof Sys2Proof.Machine

/-- Settles O13: MUZZLE sets the arm of its path and the expiry ends it (`exec_muzzle`, `exec_muzzleArmExpiry`); a guarded register
refuses a write without an arm and ends the arm with one (`accessWrite_unarmed`, `accessWrite_armed_command`). -/
theorem guardNeedsAnArm : Obligations.GuardNeedsAnArm := by
  refine ⟨?muzzle, ?expiry, ?refused, ?written⟩
  case muzzle =>
    intro s p v hopen
    refine ⟨_, exec_muzzle v hopen, ?_, fun q hq => path_modPath_other s _ hq, rfl, rfl⟩
    rw [path_modPath_same]
    exact Bool.eq_iff_iff.mpr (by simp [← BitVec.toNat_inj])
  case expiry =>
    intro s p
    refine ⟨_, exec_muzzleArmExpiry s p, ?_, fun q hq => ?_⟩
    · split
      · rw [disarmed, path_modPath_same]
      · next hidle => exact Bool.eq_false_iff.mpr hidle
    · split
      · exact path_modPath_other s _ hq
      · rfl
  case refused =>
    intro s p a i v hw hr hi hp hg harmed
    exact congrArg Host.Outcome.next (accessWrite_unarmed v hw hr hi hp hg harmed)
  case written =>
    intro s p a i v hw hr hi hp hg hb hrw harmed
    obtain ⟨x, hheld⟩ := holdReg_only (disarmed s p) a v.toNat
    have hexec : exec (.registerWrite p a v hw) s = .next (holdReg (disarmed s p) a v.toNat) :=
      congrArg Host.Outcome.next (accessWrite_armed_command v hw hr hi hp hg hb hrw harmed)
    refine ⟨_, hexec, ?_, lookup_holdReg _ v (isLkCtrl_of_command hi hb), ?_⟩
    · rw [hheld]
      show (path (disarmed s p) p).armed = false
      rw [disarmed, path_modPath_same]
    · rw [hheld]
      rfl
end

section
/-!
PROOFS. The sideband target, its I3C commands and the test access port (18 R537, R538, R540).
-/

namespace Sys2Proof.Machine

/-! ### Transactions (18 R538) -/

section
variable {s : State} {b : List Byte} {pec : Bool} {n : Nat} (f : State → State) (hon : targetOn s = true)
include hon

theorem transaction_accepted (hlen : b.length = n) (hpec : s.side.dynamic = none → pec = true) : transaction s b pec n f = f s := by
  have hfits : (b.length != n || (s.side.dynamic.isNone && !pec)) = false := by
    cases hdynamic : s.side.dynamic with
    | none => simp [hlen, hpec hdynamic]
    | some a => simp [hlen]
  rw [transaction, if_neg (by rw [hon]; decide), if_neg (by rw [hfits]; decide)]

theorem transaction_refused (h : b.length ≠ n ∨ (s.side.dynamic = none ∧ pec = false)) :
    transaction s b pec n f = sideReply s [BitVec.ofNat 8 Status.badPacket.code] := by
  rw [transaction, if_neg (by rw [hon]; decide), if_pos]
  obtain hlen | ⟨hdynamic, rfl⟩ := h
  · simp [hlen]
  · simp [hdynamic]

end

theorem regVal_sideReply (s : State) (bs : List Byte) (a : Nat) : regVal (sideReply s bs) a = regVal s a := rfl

/-! ### Register writes and the indirect window -/

/-- A write at once of a register without a guard or an effect of its own, as the access that it is. -/
theorem writeReg_now {s : State} {p a : Nat} {i : RegInfo} (v hw : Nat) (hr : Reaches s p a) (hi : regInfo a = some i)
    (hp : plainWrite a = true) (hg : i.guarded = false) (hb : i.bound = .now) :
    writeReg recover s p a v hw = (.ok (0, writeNow s a i v hw), s) := by
  obtain ⟨-, -, hpower⟩ := hr
  have hon := powered hpower
  simp only [plainWrite, Bool.and_eq_true, bne_iff_ne, ne_eq] at hp
  obtain ⟨⟨⟨⟨⟨hmuzzle, hrecover⟩, hkept⟩, hindAddr⟩, hindData⟩, hindCtrl⟩ := hp
  simp only [writeReg, hi, hon, hindData, hindAddr, hindCtrl, hmuzzle, hrecover, hkept, hg, hb, if_false, Bool.false_and,
    Bool.false_eq_true, true_or, if_true]

/-- A write at once in which hardware sets nothing changes the register alone. -/
theorem writeNow_quiet (s : State) (a : Nat) {i : RegInfo} (v : Nat) (hm : i.masked = false) :
    writeNow s a i v 0 = setReg s a (writtenValue i (regVal s a) v 0) := by
  cases hmiss : i.miss with
  | none => exact writeNow_plain s a v 0 hm hmiss
  | some m => simp [writeNow, hm, hmiss, writtenValue]

theorem writtenValue_rw {i : RegInfo} (old v : Nat) (hw : i.w1c = 0) :
    writtenValue i old v 0 = (old &&& (0xFFFFFFFF ^^^ i.rw)) ||| (v &&& i.rw) := by
  simp [writtenValue, hw]

/-- IND_ADDR after a word of the window has been accessed (17 R515). -/
def stepInd (s : State) (p : Nat) : State :=
  modPath s p (fun q => { q with indAddr := if q.indInc then (q.indAddr + 4) % 2 ^ 24 else q.indAddr })

theorem indAccess_read {s u : State} {p w : Nat} (h : indRead s (path s p).indAddr = .ok (w, u)) :
    (indAccess s p none).1 = .ok (w, stepInd u p) := by
  simp only [indAccess, h]
  rfl

theorem indAccess_write {s u : State} {p w v : Nat} (hg : indGuarded (path s p).indAddr = false)
    (h : indWrite s (path s p).indAddr v = .ok (w, u)) : (indAccess s p (some v)).1 = .ok (w, stepInd u p) := by
  simp only [indAccess, hg, h]
  rfl

theorem sideRead_ok {r : Access × State} {w : Nat} {t : State} (h : r.1 = .ok (w, t)) :
    sideRead r = sideReply t (leBytes 1 0 ++ leBytes 4 w) := by
  rw [sideRead, h]
  rfl

theorem sideWrite_ok {r : Access × State} {w : Nat} {t : State} (h : r.1 = .ok (w, t)) : sideWrite r = sideReply t [0] := by
  rw [sideWrite, h]
  rfl

/-! ### The rows of the sideband -/

section
variable {s : State} {b : List Byte} {pec : Bool} (hon : targetOn s = true) (hpec : s.side.dynamic = none → pec = true)
include hon hpec

theorem exec_sidebandRegRead (hlen : b.length = 4) (hr : Reaches s 8 (u32 b 0)) (hp : plainRead (u32 b 0) = true) :
    exec (.sidebandRegRead b pec) s =
      .next (sideReply s (leBytes 1 0 ++ leBytes 4 (valueInEffect s (path s 8).armed (u32 b 0)))) := by
  obtain ⟨-, hinfo, hpower⟩ := hr
  refine congrArg Host.Outcome.next ((transaction_accepted _ hon hlen hpec).trans ?_)
  exact sideRead_ok (congrArg Prod.fst (readReg_plain hpower hinfo hp))

theorem exec_sidebandRegWrite {i : RegInfo} (hlen : b.length = 8) (hr : Reaches s 8 (u32 b 0)) (hi : regInfo (u32 b 0) = some i)
    (hp : plainWrite (u32 b 0) = true) (hg : i.guarded = false) (hb : i.bound = .now) :
    exec (.sidebandRegWrite b pec) s = .next (sideReply (writeNow s (u32 b 0) i (u32 b 4) 0) [0]) := by
  refine congrArg Host.Outcome.next ((transaction_accepted _ hon hlen hpec).trans ?_)
  exact sideWrite_ok (congrArg Prod.fst (writeReg_now _ _ hr hi hp hg hb))

theorem exec_indRead {u : State} {w : Nat} (hlen : b.length = 4)
    (h : indRead (loadInd s 8 (u32 b 0) true) (path (loadInd s 8 (u32 b 0) true) 8).indAddr = .ok (w, u)) :
    exec (.indRead b pec) s = .next (sideReply (stepInd u 8) (leBytes 1 0 ++ leBytes 4 w)) :=
  congrArg Host.Outcome.next ((transaction_accepted _ hon hlen hpec).trans (sideRead_ok (indAccess_read h)))

theorem exec_indWrite {u : State} {w : Nat} (hlen : b.length = 8)
    (hg : indGuarded (path (loadInd s 8 (u32 b 0) true) 8).indAddr = false)
    (h : indWrite (loadInd s 8 (u32 b 0) true) (path (loadInd s 8 (u32 b 0) true) 8).indAddr (u32 b 4) = .ok (w, u)) :
    exec (.indWrite b pec) s = .next (sideReply (stepInd u 8) [0]) :=
  congrArg Host.Outcome.next ((transaction_accepted _ hon hlen hpec).trans (sideWrite_ok (indAccess_write hg h)))

end

/-- The 14 bytes of TELEMETRY. -/
def telemetryBytes (s : State) : List Byte :=
  leBytes 1 Status.ok.code ++ leBytes 2 (Config.inputSample s.free 0) ++ leBytes 2 (Config.inputSample s.free 1) ++
    leBytes 2 (Config.inputSample s.free 2 / 1000) ++ leBytes 1 (pwrStatus s) ++ leBytes 4 ((viewReg s false 0x1018).getD 0) ++
    leBytes 2 (faultStatus s)

theorem telemetryBytes_length (s : State) : (telemetryBytes s).length = 14 := by
  simp [telemetryBytes, leBytes_length]

theorem exec_telemetry {s : State} {pec : Bool} (hon : targetOn s = true) (hpec : s.side.dynamic = none → pec = true) :
    exec (.telemetry [] pec) s = .next (sideReply { s with free := s.free + 1 } (telemetryBytes s)) :=
  congrArg Host.Outcome.next (transaction_accepted _ hon rfl hpec)

/-! ### I3C (18 R537) -/

theorem beBytes_length (n v : Nat) : (beBytes n v).length = n := by
  rw [beBytes, List.length_reverse, leBytes_length]

theorem i3cRead_answered {s : State} (bs : List Byte) (hon : targetOn s = true) (hi3c : s.side.dynamic.isSome = true) :
    i3cRead s bs = sideReply s bs := if_pos (by rw [hon, hi3c]; rfl)

/-! ### The test access port (18 R540) -/

theorem tapSelect_on {s : State} (i : TapInstr) (hon : s.power.phase ≠ .off) :
    tapSelect s i = { s with tap := { s.tap with instr := i } } := if_neg hon

/-- The state in which the TAP has an instruction and cells, and nothing else has changed. -/
def withTap (s : State) (i : TapInstr) (cells : List Bool) : State := { s with tap := { s.tap with instr := i, cells := cells } }

theorem tapActing_pins {s : State} {i : TapInstr} (cells : List Bool) (hrstN : s.power.rstN = false)
    (hi : i = .extest ∨ i = .clamp ∨ i = .highz) : tapActing (withTap s i cells) = .bypass := if_pos ⟨hi, hrstN⟩

theorem tapActing_reset {s : State} {i : TapInstr} (cells : List Bool) (hrstN : s.power.rstN = true) :
    tapActing (withTap s i cells) = i :=
  if_neg fun h => absurd (hrstN.symm.trans h.2) (by decide)

/-- The instructions of the TAP, and what each leaves in the cells. -/
theorem exec_tap {s : State} {c : Instr} {i : TapInstr} {cells : List Bool} (hon : s.power.phase ≠ .off)
    (hc : (c, i) ∈ [(.extest, .extest), (.idcode, .idcode), (.clamp, .clamp), (.highz, .highz), (.bypass, .bypass),
      (.samplePreload cells, .samplePreload)]) :
    (c = .samplePreload cells ∧ exec c s = .next (withTap s i cells)) ∨
    (c ≠ .samplePreload cells ∧ exec c s = .next (withTap s i s.tap.cells)) := by
  have hselect (i : TapInstr) : tapSelect s i = withTap s i s.tap.cells := tapSelect_on i hon
  simp only [List.mem_cons, List.not_mem_nil, or_false, Prod.mk.injEq] at hc
  obtain ⟨rfl, rfl⟩ | ⟨rfl, rfl⟩ | ⟨rfl, rfl⟩ | ⟨rfl, rfl⟩ | ⟨rfl, rfl⟩ | ⟨rfl, rfl⟩ := hc
  case inr.inr.inr.inr.inr =>
    refine .inl ⟨rfl, congrArg Host.Outcome.next ((if_neg hon).trans ?_)⟩
    rw [hselect]
    rfl
  all_goals exact .inr ⟨nofun, congrArg Host.Outcome.next (hselect _)⟩

end Sys2Proof.Machine

open Sys2Proof Sys2Proof.Machine

/-- Settles O60: each row of the sideband by its own lemma (`exec_sidebandRegRead`, `exec_sidebandRegWrite`, `exec_indRead`,
`exec_indWrite`, `exec_telemetry`; `transaction_refused` for what is answered BAD_PACKET), the common reads by `i3cRead_answered`, the
TAP by `exec_tap`. -/
theorem sidebandAndTap : Obligations.SidebandAndTap := by
  refine ⟨⟨?regRead, ?regWrite, ?indRead, ?indWrite, ?refused, ?telemetry⟩, ?address, ?i3c, ?alert, ?tap⟩
  case regRead =>
    intro s b pec hon hlen hpec hr hp
    exact exec_sidebandRegRead hon hpec hlen hr hp
  case regWrite =>
    intro s b pec i hon hlen hpec hr hi hp hg hm hb hw
    have hexec := exec_sidebandRegWrite hon hpec hlen hr hi hp hg hb
    rw [writeNow_quiet _ _ _ hm, writtenValue_rw _ _ hw] at hexec
    refine ⟨_, hexec, ?_, ?_, fun a ha => ?_⟩
    · rw [sideReply, setReg_out]
    · rw [regVal_sideReply, regVal_setReg_same]
    · rw [regVal_sideReply, regVal_setReg_other _ _ ha]
  case indRead =>
    intro s u b pec w hon hlen hpec h
    exact ⟨_, exec_indRead hon hpec hlen h, rfl, rfl⟩
  case indWrite =>
    intro s u b pec w hon hlen hpec v hg h
    exact ⟨_, exec_indWrite hon hpec hlen hg h, rfl, rfl, rfl⟩
  case refused =>
    intro s b c pec n hon hc hbad
    obtain ⟨rfl, rfl⟩ | ⟨rfl, rfl⟩ | ⟨rfl, rfl⟩ | ⟨rfl, rfl⟩ | ⟨rfl, rfl⟩ := hc <;>
      exact congrArg Host.Outcome.next (transaction_refused _ hon hbad)
  case telemetry =>
    intro s pec hon hpec
    exact ⟨_, telemetryBytes s, exec_telemetry hon hpec, rfl, telemetryBytes_length s, rfl, rfl⟩
  case address =>
    intro s a hon
    refine ⟨⟨_, congrArg Host.Outcome.next (if_pos hon), rfl, rfl⟩, fun hfree => ?_,
      ⟨_, congrArg Host.Outcome.next (if_pos hon), rfl, rfl⟩⟩
    exact ⟨_, congrArg Host.Outcome.next (if_pos (by rw [hon, hfree]; rfl)), rfl, rfl⟩
  case i3c =>
    intro s hon hi3c
    have hread (bs : List Byte) : (.next (i3cRead s bs) : Result) = .next (sideReply s bs) :=
      congrArg Host.Outcome.next (i3cRead_answered bs hon hi3c)
    have hset : (targetOn s && s.side.dynamic.isSome) = true := by rw [hon, hi3c]; rfl
    exact ⟨hread _, hread _, hread _, ⟨_, hread _, beBytes_length 2 _⟩, congrArg Host.Outcome.next (if_pos hset),
      congrArg Host.Outcome.next (if_pos hset)⟩
  case alert =>
    intro s hon hsmbus halert
    exact congrArg Host.Outcome.next (if_pos (by rw [hon, hsmbus, halert]; rfl))
  case tap =>
    intro s c i cells hon hc
    obtain ⟨hpreload, hexec⟩ | ⟨hother, hexec⟩ := exec_tap hon hc
    · exact ⟨_, hexec, rfl, fun _ => rfl, fun h => absurd hpreload h, rfl, tapActing_pins cells, tapActing_reset cells⟩
    · exact ⟨_, hexec, rfl, fun h => absurd h hother, fun _ => rfl, rfl, tapActing_pins _, tapActing_reset _⟩
end

section
/-!
PROOFS. SEC_RECOVER and FETCH_STATUS.KEPT (14 R451, 16 R481, 17 R499): the two registers whose write has an effect of its own.
-/

namespace Sys2Proof.Machine

/-! ### The bytes that a write leaves depend on the memory alone -/

section
variable {s t : State} (hhbm : s.hbm = t.hbm) (hmarks : s.marks = t.marks) (a : Nat) (bs : List Byte)
include hhbm hmarks

theorem narrowWrite_congr :
    (narrowWrite s a bs).hbm = (narrowWrite t a bs).hbm ∧ (narrowWrite s a bs).marks = (narrowWrite t a bs).marks := by
  unfold narrowWrite
  dsimp only
  rw [hhbm, hmarks]
  by_cases hempty : bs.isEmpty = true
  · rw [if_pos hempty, if_pos hempty]
    exact ⟨hhbm, hmarks⟩
  · rw [if_neg hempty, if_neg hempty]
    cases lookup t.marks (a / 8 * 8) with
    | none => exact ⟨rfl, rfl⟩
    | some c =>
      cases c with
      | correctable => exact ⟨by simp [hhbm], by simp [hmarks]⟩
      | uncorrectable => exact ⟨rfl, by simp [hmarks]⟩
      | _ => exact ⟨rfl, rfl⟩

theorem writeWords_congr :
    (writeWords s a bs).hbm = (writeWords t a bs).hbm ∧ (writeWords s a bs).marks = (writeWords t a bs).marks := by
  unfold writeWords
  rw [hhbm, hmarks]
  split
  · exact ⟨hhbm, hmarks⟩
  · exact ⟨rfl, rfl⟩

theorem writeHbm_congr : (writeHbm s a bs).hbm = (writeHbm t a bs).hbm := by
  unfold writeHbm
  obtain ⟨hhead, hheadMarks⟩ := narrowWrite_congr hhbm hmarks a (bs.take (if a % 8 = 0 then 0 else min bs.length (8 - a % 8)))
  obtain ⟨hmid, hmidMarks⟩ := writeWords_congr hhead hheadMarks _ _
  exact (narrowWrite_congr hmid hmidMarks _ _).1

end

/-! ### SEC_RECOVER (16 R481, 17 R499) -/

theorem exec_secRecover {s : State} {p : Nat} {v : Word} (hr : Reaches s p 0x5018) (hgo : v.toNat % 2 = 1)
    (hphase : s.power.phase = .recovery) : exec (.secRecover p v) s = .next (recover (recoverFlag s v.toNat)) := by
  obtain ⟨hopen, -, hpower⟩ := hr
  have hflag : (recoverFlag s v.toNat).power.phase = .recovery := by rw [recoverFlag, setReg_power, hphase]
  have hwrite : writeReg recover s p 0x5018 v.toNat 0 = (.ok (0, if v.toNat % 2 = 1 ∧ (recoverFlag s v.toNat).power.phase = .recovery
      then recover (recoverFlag s v.toNat) else recoverFlag s v.toNat), s) := by
    rw [writeReg]
    simp only [show regInfo 0x5018 = some _ from rfl, if_neg (powered hpower)]
    rfl
  show Host.Outcome.next (accessWrite s p 0x5018 v 0) = _
  rw [accessWrite, if_pos hopen, show (0 : Word).toNat = 0 from rfl, hwrite, if_pos ⟨hgo, hflag⟩]
  rfl

theorem recoverFlag_sec (s : State) (v : Nat) : (recoverFlag s v).sec = s.sec := setReg_sec ..

/-- An image that passes is installed in slot A and booted. -/
theorem recover_passes {s : State} (h : slotBoots s.sec.otp (recoveryImage s) = true) :
    (recover s).sec = { s.sec with slotA := recoveryImage s, preferB := false, recovered := true, bootB := false } ∧
      (recover s).power.phase = .booted := by
  rw [recover, if_pos h]
  refine ⟨?_, runSlot_phase ..⟩
  rw [runSlot, event_sec, event_sec]

/-- An image that fails sets FAILED, and nothing is installed. -/
theorem recover_fails {s : State} (h : slotBoots s.sec.otp (recoveryImage s) = false) :
    regBit (recover s) 0x5018 2 = true ∧ (recover s).sec = s.sec := by
  rw [recover, if_neg (by rw [h]; decide)]
  refine ⟨?_, by rw [event_sec, orReg_sec]⟩
  have hfailed := regBit_orReg_same s 0x5018 (b := 2) (by decide)
  rw [regBit] at hfailed ⊢
  rw [regVal_event _ _ _ _ _ _ (by decide)]
  exact hfailed

/-! ### FETCH_STATUS.KEPT (14 R451) -/

theorem exec_fetchStatusKept {s : State} {p : Nat} {v : Word} (hr : Reaches s p 0x2024) (hone : bitOf v.toNat 2 = 1) :
    exec (.fetchStatusKept p v) s = .next (clearKept s) := by
  obtain ⟨hopen, -, hpower⟩ := hr
  have hwrite : writeReg recover s p 0x2024 v.toNat 0 = (.ok (0, if bitOf v.toNat 2 = 1 then clearKept s else s), s) := by
    rw [writeReg]
    simp only [show regInfo 0x2024 = some _ from rfl, if_neg (powered hpower)]
    rfl
  show Host.Outcome.next (accessWrite s p 0x2024 v 0) = _
  rw [accessWrite, if_pos hopen, show (0 : Word).toNat = 0 from rfl, hwrite, if_pos hone]
  rfl

/-- The register's KEPT is 0. -/
def keptCleared (s : State) : State := { s with faults := { s.faults with dump := { s.faults.dump with kept := false } } }

theorem clearKept_of_kept {s : State} (h : s.faults.dump.kept = true) :
    clearKept s = if s.faults.dump.valid then writeHbm (keptCleared s) (fetchAddr 0x16) [0] else keptCleared s := if_pos h

end Sys2Proof.Machine

open Sys2Proof Sys2Proof.Machine

/-- Settles O15: GO runs the recovery (`exec_secRecover`) with its two outcomes (`recover_passes`, `recover_fails`); a 1 written to
KEPT clears it (`exec_fetchStatusKept`), the header's byte as a write of the memory before would (`writeHbm_congr`). -/
theorem recoveryAndKept : Obligations.RecoveryAndKept := by
  refine ⟨?recover, ?kept⟩
  case recover =>
    intro s p v hr hgo hphase
    have hsec := recoverFlag_sec s v.toNat
    have himage : recoveryImage (recoverFlag s v.toNat) = recoveryImage s := by rw [recoveryImage, hsec, ← recoveryImage]
    refine ⟨_, exec_secRecover hr hgo hphase, fun hboots => ?_, fun hboots => ?_⟩
    · rw [← himage, ← hsec] at hboots
      obtain ⟨hinstalled, hbooted⟩ := recover_passes hboots
      rw [hinstalled, himage]
      exact ⟨rfl, rfl, rfl, rfl, hbooted⟩
    · rw [← himage, ← hsec] at hboots
      obtain ⟨hfailed, hkeeps⟩ := recover_fails hboots
      exact ⟨hfailed, hkeeps.trans hsec⟩
  case kept =>
    intro s p v hr hone hkept
    have hexec := exec_fetchStatusKept hr hone
    rw [clearKept_of_kept hkept] at hexec
    refine ⟨_, hexec, ?_, fun hvalid => ?_, fun hinvalid => ?_⟩
    · split
      · rw [writeHbm_faults]
        rfl
      · rfl
    · rw [if_pos hvalid]
      exact writeHbm_congr (s := keptCleared s) (t := s) rfl rfl _ _
    · rw [if_neg (by rw [hinvalid]; decide)]
      rfl
end

section
/-!
PROOFS. Thermal steps, alerts, relocks, clock gates and the thermal trip (15 R465 to R468).
-/

namespace Sys2Proof.Machine

/-! ### What a change of target leaves (15 R466) -/

theorem workEvent_only (repro : Bool) (s : State) (bit : Nat) : ∃ x, workEvent repro s bit = { s with regs := x } := by
  unfold workEvent
  split
  · exact setReg_only ..
  · exact ⟨s.regs, rfl⟩

/-- `t` differs from `s` in registers, the Trail and the steps being entered alone. -/
def Relocked (s t : State) : Prop :=
  ∃ x y a b, t = { s with regs := x, trail := y, power := { s.power with
    north := { s.power.north with relock := a }, south := { s.power.south with relock := b } } }

section
variable {s t : State}

theorem relocked_refl (s : State) : Relocked s s := ⟨_, _, _, _, rfl⟩

theorem Relocked.enter (h : Relocked s t) (k : Nat) (w : Option Nat) : Relocked s (setHalf t k { half t k with relock := w }) := by
  obtain ⟨x, y, a, b, rfl⟩ := h
  unfold setHalf half
  split
  · exact ⟨x, y, w, b, rfl⟩
  · exact ⟨x, y, a, w, rfl⟩

theorem Relocked.regs (h : Relocked s t) (x : Map Word) : Relocked s { t with regs := x } := by
  obtain ⟨_, y, a, b, rfl⟩ := h
  exact ⟨x, y, a, b, rfl⟩

theorem Relocked.counted (h : Relocked s t) (bit : Nat) : Relocked s (reproEvent (bump t 0x102C 1) bit) := by
  obtain ⟨x, hbump⟩ := bump_only t 0x102C 1
  obtain ⟨y, hrepro⟩ := reproEvent_only (bump t 0x102C 1) bit
  rw [hrepro]
  exact Relocked.regs (hbump ▸ h.regs x) y

theorem Relocked.event (h : Relocked s t) (c v u x : Nat) (d : List Byte) : Relocked s (event t c v u x d) := by
  obtain ⟨_, _, a, b, rfl⟩ := h
  obtain ⟨x, y, hevent⟩ := event_only _ c v u x d
  exact ⟨x, y, a, b, hevent⟩

end

theorem retarget_relocked (s : State) : Relocked s (retarget s) := by
  have hgo (k : Nat) := (relocked_refl s).enter k (some (wantedStep s k))
  unfold retarget
  dsimp only
  split
  · split
    · exact (((hgo 0).enter 1 _).counted 1).event ..
    · exact ((((hgo 0).enter 1 _).counted 1).event ..).event ..
  · split
    · exact ((hgo 0).counted 1).event ..
    · split
      · exact ((hgo 1).counted 1).event ..
      · exact relocked_refl s

theorem Relocked.thermal {s t : State} (h : Relocked s t) (k : Nat) : (half t k).thermal = (half s k).thermal := by
  obtain ⟨x, y, a, b, rfl⟩ := h
  unfold half
  split <;> rfl

theorem Relocked.sensor {s t : State} (h : Relocked s t) (k : Nat) : sensor t k = sensor s k := by
  obtain ⟨x, y, a, b, rfl⟩ := h
  rfl

theorem Relocked.alertTemps {s t : State} (h : Relocked s t) : t.power.alertTemps = s.power.alertTemps := by
  obtain ⟨x, y, a, b, rfl⟩ := h
  rfl

/-! ### The halves and the sensors -/

theorem half_setHalf_same (s : State) (k : Nat) (v : Half) : half (setHalf s k v) k = v := by
  unfold setHalf half
  split <;> rfl

theorem half_setHalf_other (s : State) {h k : Nat} (v : Half) (hne : ¬ (k = 0 ↔ h = 0)) : half (setHalf s k v) h = half s h := by
  unfold setHalf half
  by_cases hk : k = 0
  · have hh : h ≠ 0 := fun hh => hne (by simp [hk, hh])
    rw [if_pos hk, if_neg hh, if_neg hh]
  · have hh : h = 0 := by
      by_contra hh
      exact hne (by simp [hk, hh])
    rw [if_neg hk, if_pos hh, if_pos hh]

theorem sensor_setHalf (s : State) (k : Nat) (v : Half) (n : Nat) : sensor (setHalf s k v) n = sensor s n := by
  unfold setHalf
  split <;> rfl

/-! ### Throttle steps (15 R467) -/

theorem exec_throttleTempReached {s : State} {n : Nat} {temp : Int} (hn : n < 24) (hon : thermalOn s = true)
    (hbelow : hottest s (12 * halfOfSensor n) 12 < throttleTemp s) (hreached : throttleTemp s ≤ reading s n temp) :
    exec (.throttleTempReached n temp) s = .next (retarget (setHalf (setSensor s n temp) (halfOfSensor n)
      { half s (halfOfSensor n) with thermal := min 5 ((half s (halfOfSensor n)).thermal + 1) })) := by
  have hrise : (!decide (throttleTemp s ≤ hottest s (12 * halfOfSensor n) 12) &&
      decide (throttleTemp (setSensor s n temp) ≤ reading (setSensor s n temp) n temp)) = true := by
    rw [decide_eq_false (Int.not_le.mpr hbelow)]
    exact decide_eq_true hreached
  exact congrArg Host.Outcome.next ((if_pos ⟨hn, hon⟩).trans (if_pos hrise))

theorem exec_throttleStepTimer_up {s : State} {h : Nat} (hh : h < 2) (hon : thermalOn s = true)
    (habove : throttleTemp s ≤ hottest s (12 * h) 12) :
    exec (.throttleStepTimer h) s = .next (retarget (setHalf s h { half s h with thermal := min 5 ((half s h).thermal + 1) })) :=
  congrArg Host.Outcome.next ((if_pos ⟨hh, hon⟩).trans (if_pos habove))

theorem exec_throttleStepTimer_down {s : State} {h : Nat} (hh : h < 2) (hon : thermalOn s = true)
    (hbelow : hottest s (12 * h) 12 < throttleTemp s - hystTemp s) :
    exec (.throttleStepTimer h) s = .next (retarget (setHalf s h { half s h with thermal := (half s h).thermal - 1 })) := by
  have hnot : ¬ throttleTemp s ≤ hottest s (12 * h) 12 := by
    have : 0 ≤ hystTemp s := by unfold hystTemp; omega
    omega
  exact congrArg Host.Outcome.next ((if_pos ⟨hh, hon⟩).trans ((if_neg hnot).trans (if_pos hbelow)))

theorem retarget_setHalf_thermal (s : State) (h : Nat) (v : Half) : (half (retarget (setHalf s h v)) h).thermal = v.thermal := by
  rw [(retarget_relocked _).thermal, half_setHalf_same]

/-! ### Alerts (15 R467) -/

theorem mem_insertBy_self (n : Nat) (l : List Nat) : n ∈ insertBy id n l := by
  induction l with
  | nil => exact List.mem_singleton_self n
  | cons b l ih =>
    unfold insertBy
    split
    · exact List.mem_cons_self
    · exact List.mem_cons_of_mem _ ih

theorem inBand_power (s : State) (b : Byte) : (inBand s b).power = s.power := by
  unfold inBand
  split <;> rfl

/-- The state in which a sensor has read and is named in ALERT_TEMPS. -/
def alertNamed (s : State) (n : Nat) (temp : Int) : State :=
  { setSensor s n temp with power := { (setSensor s n temp).power with alertTemps := insertBy id n s.power.alertTemps } }

/-- What a sensor leaves that newly reaches ALERT_TEMP: it is named and recorded, and the halves turn to their steps. -/
def alertRaised (s : State) (n : Nat) (temp : Int) : State :=
  retarget (event (alertNamed s n temp) 0x0906 2 unitHandler 0
    [BitVec.ofNat 8 (halfOfSensor n), BitVec.ofNat 8 (degrees (reading s n temp))])

theorem exec_alertTemp_new {s : State} {n : Nat} {temp : Int} (hn : n < 24) (hon : thermalOn s = true)
    (hreached : alertTempOf s ≤ reading s n temp) (hnew : n ∉ s.power.alertTemps) :
    exec (.alertTemp n temp) s = .next (if alertN s then alertRaised s n temp else inBand (alertRaised s n temp) 2) := by
  have hraise : alertTempOf (setSensor s n temp) ≤ reading (setSensor s n temp) n temp ∧
      (setSensor s n temp).power.alertTemps.contains n = false := ⟨hreached, by simpa [setSensor] using hnew⟩
  exact congrArg Host.Outcome.next ((if_pos ⟨hn, hon⟩).trans (if_pos hraise))

theorem exec_alertTemp_named {s : State} {n : Nat} {temp : Int} (hn : n < 24) (hon : thermalOn s = true)
    (hnamed : n ∈ s.power.alertTemps) : exec (.alertTemp n temp) s = .next (setSensor s n temp) := by
  have hstays : ¬ (alertTempOf (setSensor s n temp) ≤ reading (setSensor s n temp) n temp ∧
      (setSensor s n temp).power.alertTemps.contains n = false) := fun h => by simp [setSensor, hnamed] at h
  exact congrArg Host.Outcome.next ((if_pos ⟨hn, hon⟩).trans (if_neg hstays))

/-- The alert leaves the module powered and RST_N as it was, and names the sensor. -/
theorem alertRaised_power (s : State) (n : Nat) (temp : Int) : n ∈ (alertRaised s n temp).power.alertTemps ∧
    (alertRaised s n temp).power.phase = s.power.phase ∧ (alertRaised s n temp).power.rstN = s.power.rstN := by
  obtain ⟨_, _, _, _, hraised⟩ := retarget_relocked (event (alertNamed s n temp) 0x0906 2 unitHandler 0
    [BitVec.ofNat 8 (halfOfSensor n), BitVec.ofNat 8 (degrees (reading s n temp))])
  rw [alertRaised, hraised, event_power]
  exact ⟨mem_insertBy_self n _, rfl, rfl⟩

/-- A sensor at or above ALERT_TEMP is named, whether it was before or not. -/
theorem exec_alertTemp {s : State} {n : Nat} {temp : Int} (hn : n < 24) (hon : thermalOn s = true)
    (hreached : alertTempOf s ≤ reading s n temp) : ∃ t, exec (.alertTemp n temp) s = .next t ∧
      n ∈ t.power.alertTemps ∧ t.power.phase = s.power.phase ∧ t.power.rstN = s.power.rstN := by
  by_cases hnamed : n ∈ s.power.alertTemps
  · exact ⟨_, exec_alertTemp_named hn hon hnamed, hnamed, rfl, rfl⟩
  · refine ⟨_, exec_alertTemp_new hn hon hreached hnamed, ?_⟩
    split
    · exact alertRaised_power s n temp
    · rw [inBand_power]
      exact alertRaised_power s n temp

theorem exec_alertTempRelease {s : State} {n : Nat} {temp : Int} (hn : n < 24) (hon : thermalOn s = true)
    (hbelow : reading s n temp < alertTempOf s - hystTemp s) : exec (.alertTempRelease n temp) s =
      .next (retarget { setSensor s n temp with power := { (setSensor s n temp).power with
        alertTemps := s.power.alertTemps.filter (· != n) } }) :=
  congrArg Host.Outcome.next ((if_pos ⟨hn, hon⟩).trans (if_pos hbelow))

theorem thermalOn_powered {s : State} (hon : thermalOn s = true) : s.power.phase ≠ .off := fun hoff => by
  simp [thermalOn, hoff] at hon

theorem alertN_of_named {t : State} {n : Nat} (hn : n ∈ t.power.alertTemps) (hoff : t.power.phase ≠ .off)
    (hrstN : t.power.rstN = false) : alertN t = true := by
  have hsome : t.power.alertTemps.isEmpty = false := by
    rw [List.isEmpty_eq_false_iff]
    exact List.ne_nil_of_mem hn
  simp [alertN, hsome, hrstN, hoff]

theorem thermalOf_of_named {t : State} {n : Nat} (hn : n < 24) (hnamed : n ∈ t.power.alertTemps) :
    5 ≤ thermalOf t (halfOfSensor n) := by
  have hany : (t.power.alertTemps.any fun k => if halfOfSensor n = 0 then k < 12 else 12 ≤ k && k < 24) = true := by
    refine List.any_eq_true.mpr ⟨n, hnamed, ?_⟩
    unfold halfOfSensor
    split <;> simp <;> omega
  rw [thermalOf, if_pos hany]
  exact le_max_right _ _

/-! ### Relocks, gates and the thermal trip (15 R465, R466, R468) -/

theorem exec_relockDone {s : State} (h : s.power.north.relock.isSome = true ∨ s.power.south.relock.isSome = true) :
    exec .relockDone s = .next (seamEvent { s with power := { s.power with
      north := { s.power.north with step := namedStep s.power.north, relock := none },
      south := { s.power.south with step := namedStep s.power.south, relock := none } } }) :=
  congrArg Host.Outcome.next (if_pos h)

theorem seamEvent_power (s : State) : (seamEvent s).power = s.power := by
  obtain ⟨_, h⟩ := workEvent_only (spanningWork s && !halvesEqual s) s 2
  rw [seamEvent, h]

theorem exec_coreClkGate {s : State} {h : Nat} (hh : h < 2) (hrun : s.power.st = .run) (hphase : s.power.phase = .running)
    (hidle : halfBusy s h = false) : exec (.coreClkGate h) s = .next (setHalf s h { half s h with gated := true }) :=
  congrArg Host.Outcome.next (if_pos ⟨hh, hrun, hphase, hidle⟩)

/-- What THERMTRIP leaves: the signal asserted, the module off and HBM lost. -/
def thermTripped (s : State) : State :=
  { s with hbm := [], marks := [], spad := [], spadMarks := [],
           power := { s.power with thermtrip := true, phase := .tripped, resetDue := none } }

theorem exec_thermtrip {s : State} {n : Nat} {temp : Int} (hoff : s.power.phase ≠ .off) (htripped : s.power.phase ≠ .tripped)
    (hn : n < 24) (hhot : 115 * 16 ≤ reading s n temp) : exec (.thermtrip n temp) s =
      .next (thermTripped (event (setSensor s n temp) 0x0904 4 unitHandler 0
        [BitVec.ofNat 8 n, BitVec.ofNat 8 (degrees (reading s n temp))])) := by
  have htrip : ∀ u v : State, (if n < 24 ∧ 115 * 16 ≤ reading s n temp then u else v) = u := fun _ _ => if_pos ⟨hn, hhot⟩
  show execThermtrip n temp s = _
  unfold execThermtrip
  split
  · next h => exact absurd h hoff
  · next h => exact absurd h htripped
  · rw [htrip]
    rfl

end Sys2Proof.Machine

open Sys2Proof Sys2Proof.Machine

/-- Settles O43: the steps rise and fall by the rows' own lemmas (`exec_throttleTempReached`, `exec_throttleStepTimer_up`,
`exec_throttleStepTimer_down`), and a change of target leaves all but the steps being entered (`retarget_relocked`); then the alerts
(`exec_alertTemp`, `exec_alertTempRelease`), relocks, gates and the trip. -/
theorem thermalStepsAndClocks : Obligations.ThermalStepsAndClocks := by
  refine ⟨⟨?reached, ?timer, ?alert, ?relock, ?gate⟩, ?trip⟩
  case reached =>
    intro s n temp hn hon h hbelow hreached
    refine ⟨_, exec_throttleTempReached hn hon hbelow hreached, retarget_setHalf_thermal .., ?_⟩
    rw [(retarget_relocked _).sensor, sensor_setHalf, sensor_setSensor]
  case timer =>
    intro s h hh hon
    exact ⟨fun habove => ⟨_, exec_throttleStepTimer_up hh hon habove, retarget_setHalf_thermal ..⟩,
      fun hbelow => ⟨_, exec_throttleStepTimer_down hh hon hbelow, retarget_setHalf_thermal ..⟩⟩
  case alert =>
    intro s n temp hn hon
    refine ⟨fun hreached => ?_, fun hbelow => ⟨_, exec_alertTempRelease hn hon hbelow, (retarget_relocked _).alertTemps⟩⟩
    obtain ⟨t, hexec, hnamed, hphase, hrstN⟩ := exec_alertTemp hn hon hreached
    exact ⟨t, hexec, hnamed, fun hreset => alertN_of_named hnamed (hphase ▸ thermalOn_powered hon) (hrstN.trans hreset),
      thermalOf_of_named hn hnamed⟩
  case relock =>
    intro s h
    refine ⟨_, exec_relockDone h, ?_, ?_⟩
    · rw [seamEvent_power]
    · rw [seamEvent_power]
  case gate =>
    intro s h hh hrun hphase hidle
    exact ⟨_, exec_coreClkGate hh hrun hphase hidle, half_setHalf_same .., half_setHalf_other _ _ (by omega)⟩
  case trip =>
    intro s n temp hoff htripped hn hhot
    refine ⟨_, exec_thermtrip hoff htripped hn hhot, rfl, rfl, rfl, rfl, event_faults .., ?_⟩
    simp [engineOn, thermTripped]
end

section
/-!
PROOFS. Leash messages (12 R375, R391, R398, R399): WRITEs for this member and for others, the answers that end a MOVE, READ_REQ and
the segments of Valaz packets.
-/

namespace Sys2Proof.Machine

/-! ### What the Leash transmitter leaves of memory and of the commands' state -/

theorem Sends.ctxView {s t : State} (h : Sends s t) : ctxView t = ctxView s := by
  rw [h.only]
  rfl

theorem Sends.marks {s t : State} (h : Sends s t) : t.marks = s.marks := by rw [h.only]

theorem Sends.ctxs {s t : State} (h : Sends s t) : t.ctxs = s.ctxs := by rw [h.only]

theorem Sends.models {s t : State} (h : Sends s t) : t.models = s.models := by rw [h.only]

theorem Sends.moves {s t : State} (h : Sends s t) : t.moves = s.moves := by rw [h.only]

theorem Sends.sessions {s t : State} (h : Sends s t) : t.sessions = s.sessions := by rw [h.only]

theorem Sends.regs {s t : State} (h : Sends s t) : t.regs = s.regs := by rw [h.only]

theorem Sends.writeProtected {s t : State} (h : Sends s t) (a n : Nat) : writeProtected t a n = writeProtected s a n := by
  rw [h.only]
  rfl

theorem Sends.moveOf {s t : State} (h : Sends s t) (tag : Word) (read : Bool) : moveOf t tag read = moveOf s tag read := by
  rw [Machine.moveOf, h.moves, Machine.moveOf]

theorem Sends.regVal {s t : State} (h : Sends s t) (a : Nat) : regVal t a = regVal s a := by
  rw [h.only]
  rfl

theorem sends_answerMsg (s : State) (m : LeashMsg) (vl kind : Nat) (data : List Byte) : Sends s (answerMsg s m vl kind data) := by
  unfold answerMsg
  split
  · exact sends_sendMsg ..
  · exact sends_sendTo ..

theorem sends_forward (s : State) (m : LeashMsg) : Sends s (forward s m) := by
  unfold forward
  split
  · split
    · exact sends_freeFlits ..
    · exact sends_queueMsg ..
  · exact sends_freeFlits ..

/-! ### A message that is queued waits on its port, or its flits have left (12 R377, R381, R391) -/

theorem mem_eraseFirst_of_ne {α : Type} [DecidableEq α] {l : List α} {a b : α} (h : a ∈ l) (hne : a ≠ b) :
    a ∈ eraseFirst (fun x => x == b) l := by
  induction l with
  | nil => cases h
  | cons c l ih =>
    unfold eraseFirst
    rcases List.mem_cons.mp h with rfl | hrest
    · rw [if_neg (by simpa using hne)]
      exact List.mem_cons_self
    · split
      · exact hrest
      · exact List.mem_cons_of_mem _ (ih hrest)

theorem mem_replaceFirst_of_ne {α : Type} [DecidableEq α] {l : List α} {a b : α} (c : α) (h : a ∈ l) (hne : a ≠ b) :
    a ∈ replaceFirst (fun x => x == b) c l := by
  induction l with
  | nil => cases h
  | cons d l ih =>
    unfold replaceFirst
    rcases List.mem_cons.mp h with rfl | hrest
    · rw [if_neg (by simpa using hne)]
      exact List.mem_cons_self
    · split
      · exact List.mem_cons_of_mem _ hrest
      · exact List.mem_cons_of_mem _ (ih hrest)

/-- Two messages agree in what the sender gave them; port and SEQ are the transmitter's. -/
def SameMsg (x m : LeashMsg) : Prop :=
  x.kind = m.kind ∧ x.tag = m.tag ∧ x.addr = m.addr ∧ x.destMember = m.destMember ∧ x.data = m.data

/-- A port carries a message: it waits there, or one of its flits stands in the replay buffer. -/
def Carries (p : Port) (m : LeashMsg) : Prop :=
  (∃ o ∈ p.waiting, SameMsg o.msg m) ∨ (∃ y ∈ p.replay, SameMsg y.msg m)

theorem Carries.of_eq {p q : Port} {m : LeashMsg} (h : Carries p m) (hwaiting : q.waiting = p.waiting) (hreplay : q.replay = p.replay) :
    Carries q m := by
  rw [Carries, hwaiting, hreplay]
  exact h

theorem Carries.modPort {s : State} {n : Nat} {m : LeashMsg} (h : Carries (port s n) m) (k : Nat) {f : Port → Port}
    (hwaiting : ∀ p, (f p).waiting = p.waiting) (hreplay : ∀ p, (f p).replay = p.replay) :
    Carries (port (modPort s k f) n) m := by
  by_cases hk : n = k
  · subst hk
    rw [port_modPort_same]
    exact h.of_eq (hwaiting _) (hreplay _)
  · rw [Machine.modPort, port_setPort_other _ _ hk]
    exact h

/-- A flit of any message is sent: the message it belongs to is then in the replay buffer, every other stays where it was. -/
theorem Carries.sendFlit {s : State} {n : Nat} {m : LeashMsg} (h : Carries (port s n) m) (o : Outgoing) :
    Carries (port (sendFlit s n o) n) m := by
  unfold Machine.sendFlit
  extract_lets p src msg rest held sent t
  have hsame : SameMsg msg o.msg := by
    unfold msg
    split
    · exact ⟨rfl, rfl, rfl, rfl, rfl⟩
    · exact ⟨rfl, rfl, rfl, rfl, rfl⟩
  have hport : port t n = _ := port_setPort_same s n _
  have ht : Carries (port t n) m := by
    rw [hport]
    obtain ⟨x, hx, hmsg⟩ | ⟨y, hy, hmsg⟩ := h
    · by_cases hxo : x = o
      · subst hxo
        refine .inr ⟨_, List.mem_append_right _ (List.mem_singleton_self _), ?_⟩
        obtain ⟨hkind, htag, haddr, hdest, hdata⟩ := hsame
        obtain ⟨hkind', htag', haddr', hdest', hdata'⟩ := hmsg
        exact ⟨hkind.trans hkind', htag.trans htag', haddr.trans haddr', hdest.trans hdest', hdata.trans hdata'⟩
      · refine .inl ⟨x, ?_, hmsg⟩
        dsimp only
        split
        · exact mem_eraseFirst_of_ne hx hxo
        · exact mem_replaceFirst_of_ne _ hx hxo
    · exact .inr ⟨y, List.mem_append_left _ hy, hmsg⟩
  split
  · exact ht
  · exact ht.modPort _ (fun _ => rfl) (fun _ => rfl)

theorem Carries.pumpFlits (k : Nat) {s : State} {n : Nat} {m : LeashMsg} (h : Carries (port s n) m) :
    Carries (port (pumpFlits k s n) n) m := by
  induction k generalizing s with
  | zero => exact h
  | succ k ih =>
    unfold Machine.pumpFlits
    split
    · exact h
    · exact ih (h.sendFlit _)

theorem Carries.firstWhistle {s : State} {n : Nat} {m : LeashMsg} (h : Carries (port s n) m) :
    Carries (port (firstWhistle s n) n) m := by
  unfold Machine.firstWhistle
  split
  · show Carries (port (Machine.modPort s n fun p => { p with whistling := true }) n) m
    exact h.modPort n (fun _ => rfl) (fun _ => rfl)
  · exact h

theorem carries_waits (s : State) (n : Nat) {o : Outgoing} {m : LeashMsg} (h : SameMsg o.msg m) :
    Carries (port (modPort s n fun p => { p with waiting := p.waiting ++ [o] }) n) m := by
  rw [port_modPort_same]
  exact .inl ⟨o, List.mem_append_right _ (List.mem_singleton_self _), h⟩

theorem carries_queueMsg (s : State) (n : Nat) (m : LeashMsg) (origin : Option Nat) : Carries (port (queueMsg s n m origin) n) m :=
  .pumpFlits _ (.firstWhistle (carries_waits s n ⟨rfl, rfl, rfl, rfl, rfl⟩))

theorem forward_route {s : State} {m : LeashMsg} {n : Nat} {ns : List Nat} (hroute : routesTo s m.destMember = n :: ns)
    (hlost : m.destMember ∉ s.join.lost) : forward s m = queueMsg s n m (some m.port) := by
  rw [forward, hroute]
  exact if_neg (by simpa using hlost)

/-! ### WRITE (12 R375, R391) -/

/-- What the row of a WRITE does with a whole message. -/
def takeWrite (m : LeashMsg) (s : State) : State :=
  if m.destMember ≠ s.join.self then forward s m
  else if inMap m.addr m.data.length && !writeProtected s m.addr m.data.length then
    answerMsg (writeHbm s m.addr m.data) m 2 0x02 [0x00]
  else answerMsg s m 2 0x02 [0x04]

theorem exec_write {s : State} {m : LeashMsg} (h : Arrives s 1 m) : exec (.write m) s = .next (takeWrite m (afterFlits s m)) :=
  congrArg Host.Outcome.next (receiveMsg_arrives h takeWrite)

section
variable {s : State} {m : LeashMsg} (hself : m.destMember = s.join.self)
include hself

theorem takeWrite_lands (hmap : inMap m.addr m.data.length = true) (hclear : writeProtected s m.addr m.data.length = false) :
    takeWrite m s = answerMsg (writeHbm s m.addr m.data) m 2 0x02 [0x00] := by
  rw [takeWrite, if_neg (not_not_intro hself), if_pos (by rw [hmap, hclear]; rfl)]

theorem takeWrite_refused (hbad : inMap m.addr m.data.length = false ∨ writeProtected s m.addr m.data.length = true) :
    takeWrite m s = answerMsg s m 2 0x02 [0x04] := by
  have hno : (inMap m.addr m.data.length && !writeProtected s m.addr m.data.length) = false := by
    obtain hmap | hprotected := hbad
    · rw [hmap, Bool.false_and]
    · rw [hprotected, Bool.not_true, Bool.and_false]
  rw [takeWrite, if_neg (not_not_intro hself), if_neg (by rw [hno]; decide)]

end

theorem takeWrite_forwards {s : State} {m : LeashMsg} (hother : m.destMember ≠ s.join.self) : takeWrite m s = forward s m := if_pos hother

/-! ### What ends a MOVE (12 R375, R391) -/

/-- A MOVE is over: it is gone, and its messages that have not begun to leave are gone. -/
def moveOver (s : State) (v : Move) : State :=
  { s with
    moves := s.moves.filter (fun x => !(x.r == v.r))
    ports := s.ports.map (fun e => (e.1, { e.2 with
      waiting := e.2.waiting.filter (fun o => !(o.next == 0 && ownPiece (v.tags.map (·.1)) o)) })) }

theorem endMove_eq (s : State) (v : Move) (st : Status) (d : Nat) :
    endMove s v st d = reply (moveOver s v) v.r 0x60 st d (leBytes 8 v.done) := rfl

theorem moveOver_moves (s : State) (v : Move) : (moveOver s v).moves = s.moves.filter (fun x => !(x.r == v.r)) := rfl

theorem moveOver_hbm (s : State) (v : Move) : (moveOver s v).hbm = s.hbm := rfl

theorem setMove_hbm (s : State) (v : Move) : (setMove s v).hbm = s.hbm := rfl

theorem ctxView_moveOver (s : State) (v : Move) : ctxView (moveOver s v) = ctxView s := rfl

theorem ctxView_setMove (s : State) (v : Move) : ctxView (setMove s v) = ctxView s := rfl

/-- A move leaves the table whatever its entry there has become. -/
theorem moves_moveOver_setMove (s : State) (v : Move) :
    (moveOver (setMove s v) v).moves = s.moves.filter (fun x => !(x.r == v.r)) := by
  rw [moveOver_moves]
  show (s.moves.map _).filter _ = _
  induction s.moves with
  | nil => rfl
  | cons x l ih =>
    by_cases hx : x.r = v.r
    · simpa [hx] using ih
    · simpa [hx] using ih

theorem finishIfDone_ends {s : State} {v : Move} (htags : v.tags = []) (hgood : v.bad = false) :
    finishIfDone s v = reply (moveOver s v) v.r 0x60 .ok 0 (leBytes 8 v.done) := by
  rw [finishIfDone, htags, hgood]
  rfl

/-- The last message of a move has been answered, with `n` bytes more done. -/
def lastPiece (v : Move) (n : Nat) : Move := { v with tags := [], done := v.done + n }

theorem lastPiece_r (v : Move) (n : Nat) : (lastPiece v n).r = v.r := rfl

theorem tags_last {v : Move} {tag : Word} {off len : Nat} (htags : v.tags = [(tag, off, len)]) :
    v.tags.filter (fun t => t.1 != tag) = [] := by
  simp [htags]

/-- What the row of a WRITE_ACK does with a whole message. -/
def takeAck (m : LeashMsg) (s : State) : State :=
  if m.destMember ≠ s.join.self then forward s m
  else
    match moveOf s m.tag false with
    | none => s
    | some (v, _, len) =>
      let v := { v with tags := v.tags.filter (fun t => t.1 != m.tag) }
      if u8 m.data 0 = 0 then
        let v := { v with done := v.done + len }
        finishIfDone (setMove s v) v
      else endMove s v .badParam 0x0304

theorem exec_writeAck {s : State} {m : LeashMsg} (h : Arrives s 2 m) : exec (.writeAck m) s = .next (takeAck m (afterFlits s m)) :=
  congrArg Host.Outcome.next (receiveMsg_arrives h takeAck)

section
variable {s : State} {m : LeashMsg} {v : Move} {off len : Nat} (hself : m.destMember = s.join.self)
  (hmove : moveOf s m.tag false = some (v, off, len))
include hself hmove

theorem takeAck_last (hok : u8 m.data 0 = 0) (htags : v.tags = [(m.tag, off, len)]) (hgood : v.bad = false) :
    takeAck m s = reply (moveOver (setMove s (lastPiece v len)) (lastPiece v len)) v.r 0x60 .ok 0 (leBytes 8 (v.done + len)) := by
  rw [takeAck, if_neg (not_not_intro hself), hmove]
  dsimp only
  rw [if_pos hok, tags_last htags]
  exact finishIfDone_ends rfl hgood

theorem takeAck_refuses (hbad : u8 m.data 0 ≠ 0) :
    takeAck m s = reply (moveOver s { v with tags := v.tags.filter (fun t => t.1 != m.tag) }) v.r 0x60 .badParam 0x0304
      (leBytes 8 v.done) := by
  rw [takeAck, if_neg (not_not_intro hself), hmove]
  exact if_neg hbad

end

/-- What the row of a READ_DATA does with a whole message. -/
def takeData (m : LeashMsg) (s : State) : State :=
  match moveOf s m.tag true with
  | none => s
  | some (v, off, len) =>
    let data := m.data.take len
    let v := { v with tags := v.tags.filter (fun t => t.1 != m.tag), done := v.done + data.length }
    finishIfDone (setMove (writeHbm s (v.dst + off) data) v) v

theorem exec_readData {s : State} {m : LeashMsg} (h : Arrives s 4 m) : exec (.readData m) s = .next (takeData m (afterFlits s m)) :=
  congrArg Host.Outcome.next (receiveMsg_arrives h takeData)

theorem takeData_last {s : State} {m : LeashMsg} {v : Move} {off len : Nat} (hmove : moveOf s m.tag true = some (v, off, len))
    (htags : v.tags = [(m.tag, off, len)]) (hgood : v.bad = false) (hlen : m.data.length = len) :
    takeData m s = reply (moveOver (setMove (writeHbm s (v.dst + off) m.data) (lastPiece v len)) (lastPiece v len)) v.r 0x60 .ok 0
      (leBytes 8 (v.done + len)) := by
  rw [takeData, hmove]
  dsimp only
  rw [tags_last htags, ← hlen, List.take_length]
  exact finishIfDone_ends rfl hgood

/-! ### READ_REQ and violations (12 R398) -/

theorem exec_readReq {s : State} {m : LeashMsg} (h : Arrives s 3 m) :
    exec (.readReq m) s = .next (violation (afterFlits s m) m.port m.vl 5) := by
  have hexec : exec (.readReq m) s = .next (brokenMsg (afterFlits s m) m) :=
    congrArg Host.Outcome.next (receiveMsg_arrives h fun m s => brokenMsg s m)
  obtain ⟨-, hkind, -⟩ := h
  have hleaves : staysHeld (afterFlits s m) m = false := by simp [staysHeld, hkind]
  have hother : m.kind ≠ 5 := by omega
  rw [hexec, brokenMsg, hleaves]
  exact congrArg (fun t => Host.Outcome.next (violation t m.port m.vl 5)) (if_neg hother)

theorem regVal_violation (s : State) (n vl row : Nat) :
    regVal (violation s n vl row) (portReg n 0x28) = min (regVal s (portReg n 0x28) + 1) 0xFFFFFFFF := by
  rw [violation, regVal_coalesce _ _ _ _ _ _ (by unfold portReg; omega), regVal_bump_same]

theorem violation_only (s : State) (n vl row : Nat) : ∃ x y, violation s n vl row = { s with regs := x, trail := y } := by
  obtain ⟨x, hbump⟩ := bump_only s (portReg n 0x28) 1
  obtain ⟨y, z, hcoalesce⟩ := coalesce_only (bump s (portReg n 0x28) 1) (.link n) 0x0600 2 (unitLeash n)
    [BitVec.ofNat 8 vl, BitVec.ofNat 8 row]
  rw [violation, hcoalesce, hbump]
  exact ⟨y, z, rfl⟩

theorem port_violation (s : State) (n vl row k : Nat) : port (violation s n vl row) k = port s k := by
  obtain ⟨x, y, h⟩ := violation_only s n vl row
  rw [h]
  rfl

theorem violation_sessions (s : State) (n vl row : Nat) : (violation s n vl row).sessions = s.sessions := by
  obtain ⟨x, y, h⟩ := violation_only s n vl row
  rw [h]

/-! ### Valaz packets (12 R399) -/

/-- The segments of a Valaz packet that a port holds. -/
def holdSegments (s : State) (n : Nat) (v : Option (Word × Nat × List Byte)) : State := modPort s n (fun p => { p with partial? := v })

/-- What the row of a VALAZ does with a whole message. -/
def takeValaz (m : LeashMsg) (s : State) : State :=
  match joinSegment (port s m.port).partial? m with
  | .broken => violation (holdSegments s m.port none) m.port m.vl 5
  | .more v => holdSegments s m.port (some v)
  | .whole bytes =>
    receivePacket (holdSegments s m.port none) ⟨.leash, m.port, [], 0, m.srcMember, none, []⟩ bytes (fun t => t == bytes.length)

theorem exec_valaz {s : State} {m : LeashMsg} (h : Arrives s 5 m) : exec (.valaz m) s = .next (takeValaz m (afterFlits s m)) :=
  congrArg Host.Outcome.next (receiveMsg_arrives h takeValaz)

section
variable {s : State} {m : LeashMsg}

theorem takeValaz_broken (h : joinSegment (port s m.port).partial? m = .broken) :
    takeValaz m s = violation (holdSegments s m.port none) m.port m.vl 5 := by
  rw [takeValaz, h]

theorem takeValaz_more {v : Word × Nat × List Byte} (h : joinSegment (port s m.port).partial? m = .more v) :
    takeValaz m s = holdSegments s m.port (some v) := by
  rw [takeValaz, h]

theorem takeValaz_whole {bs : List Byte} (h : joinSegment (port s m.port).partial? m = .whole bs) : takeValaz m s =
    receivePacket (holdSegments s m.port none) ⟨.leash, m.port, [], 0, m.srcMember, none, []⟩ bs (fun t => t == bs.length) := by
  rw [takeValaz, h]

end

theorem holdSegments_sessions (s : State) (n : Nat) (v : Option (Word × Nat × List Byte)) :
    (holdSegments s n v).sessions = s.sessions := rfl

theorem holdSegments_regs (s : State) (n : Nat) (v : Option (Word × Nat × List Byte)) : (holdSegments s n v).regs = s.regs := rfl

theorem regVal_holdSegments (s : State) (n : Nat) (v : Option (Word × Nat × List Byte)) (a : Nat) :
    regVal (holdSegments s n v) a = regVal s a := rfl

theorem partial_modPort (s : State) (n k : Nat) {f : Port → Port} (h : ∀ p, (f p).partial? = p.partial?) :
    (port (modPort s n f) k).partial? = (port s k).partial? := by
  by_cases hk : k = n
  · subst hk
    rw [port_modPort_same, h]
  · rw [modPort, port_setPort_other _ _ hk]

theorem partial_sendCtrl (s : State) (n : Nat) (nak : Bool) (notice k : Nat) :
    (port (sendCtrl s n nak notice) k).partial? = (port s k).partial? :=
  partial_modPort s n k (f := fun p => { p with sinceCtrl := 0 }) fun _ => rfl

theorem partial_freeFlits (s : State) (n vl j k : Nat) : (port (freeFlits s n vl j) k).partial? = (port s k).partial? :=
  partial_modPort s n k (f := fun p => { p with freed := p.freed.modify vl (fun v => (v + j) % 4096) }) fun _ => rfl

theorem partial_afterFlits (s : State) (m : LeashMsg) (k : Nat) : (port (afterFlits s m) k).partial? = (port s k).partial? := by
  refine (partial_modPort (acceptFlits s m (runFlits m)) m.port k fun _ => ?_).trans ?_
  · rfl
  unfold acceptFlits
  extract_lets t u
  have ht : (port t k).partial? = (port s k).partial? := partial_modPort s m.port k fun _ => rfl
  have hu : (port u k).partial? = (port s k).partial? := by
    unfold u
    split
    · exact ht
    · exact (partial_freeFlits ..).trans ht
  split
  · exact (partial_sendCtrl ..).trans hu
  · exact hu

theorem partial_holdSegments (s : State) (n : Nat) (v : Option (Word × Nat × List Byte)) :
    (port (holdSegments s n v) n).partial? = v := by
  rw [holdSegments, port_modPort_same]

end Sys2Proof.Machine

open Sys2Proof Sys2Proof.Machine

/-- Settles O56: each message that arrives whole is handled by its row (`exec_write`, `exec_writeAck`, `exec_readReq`,
`exec_readData`, `exec_valaz`) in a state whose memory and moves are those of before (`sends_afterFlits`). -/
theorem leashMessagesAreServed : Obligations.LeashMessagesAreServed := by
  refine ⟨?lands, ?refused, ?forwarded, ?acked, ?readReq, ?readData, ?valaz⟩
  case lands =>
    intro s m harrives hself hmap hclear
    have hsent := sends_afterFlits s m
    have hanswered := sends_answerMsg (writeHbm (afterFlits s m) m.addr m.data) m 2 0x02 [0x00]
    have hexec := exec_write harrives
    rw [takeWrite_lands (by rw [hsent.join]; exact hself) hmap (by rw [hsent.writeProtected]; exact hclear)] at hexec
    refine ⟨_, hexec, ?_, ?_, ?_⟩
    · exact (writeHbm_written (afterFlits s m) m.addr m.data).of_ctxView hsent.ctxView hanswered.ctxView
    · rw [hanswered.ctxs, writeHbm_ctxs, hsent.ctxs]
    · rw [hanswered.models, writeHbm_models, hsent.models]
  case refused =>
    intro s m harrives hself hbad
    have hsent := sends_afterFlits s m
    have hanswered := sends_answerMsg (afterFlits s m) m 2 0x02 [0x04]
    have hexec := exec_write harrives
    rw [takeWrite_refused (by rw [hsent.join]; exact hself) (by rw [hsent.writeProtected]; exact hbad)] at hexec
    exact ⟨_, hexec, hanswered.hbm.trans hsent.hbm, hanswered.marks.trans hsent.marks⟩
  case forwarded =>
    intro s m harrives hother
    have hsent := sends_afterFlits s m
    have hforwarded := sends_forward (afterFlits s m) m
    have hexec := exec_write harrives
    rw [takeWrite_forwards (by rw [hsent.join]; exact hother)] at hexec
    refine ⟨_, hexec, hforwarded.hbm.trans hsent.hbm, hforwarded.marks.trans hsent.marks, fun n ns hroute hlost => ?_⟩
    rw [forward_route (by rw [hsent.routesTo]; exact hroute) (by rw [hsent.join]; exact hlost)]
    obtain ⟨-, hkind, -⟩ := harrives
    obtain ⟨o, ho, hsame⟩ | ⟨y, hy, hsame⟩ := carries_queueMsg (afterFlits s m) n m (some m.port)
    · obtain ⟨hk, htag, haddr, hdest, hdata⟩ := hsame
      exact ⟨o.msg, hk.trans hkind, htag, haddr, hdest, hdata, .inl ⟨o, ho, rfl⟩⟩
    · obtain ⟨hk, htag, haddr, hdest, hdata⟩ := hsame
      exact ⟨y.msg, hk.trans hkind, htag, haddr, hdest, hdata, .inr ⟨y, hy, rfl⟩⟩
  case acked =>
    intro s m v off len harrives hself hmove
    have hsent := sends_afterFlits s m
    have hexec := exec_writeAck harrives
    have hself' : m.destMember = (afterFlits s m).join.self := by rw [hsent.join]; exact hself
    have hmove' : moveOf (afterFlits s m) m.tag false = some (v, off, len) := by rw [hsent.moveOf]; exact hmove
    refine ⟨fun hok htags hgood => ?_, fun hbad => ?_⟩
    · rw [takeAck_last hself' hmove' hok htags hgood] at hexec
      refine ⟨_, hexec, ?_, ?_⟩
      · rw [moves_moveOver_setMove, hsent.moves, lastPiece_r]
      · rw [moveOver_hbm, setMove_hbm, hsent.hbm]
    · rw [takeAck_refuses hself' hmove' hbad] at hexec
      refine ⟨_, hexec, ?_, ?_⟩
      · rw [moveOver_moves, hsent.moves]
      · rw [moveOver_hbm, hsent.hbm]
  case readReq =>
    intro s m harrives
    have hsent := sends_afterFlits s m
    obtain ⟨x, y, hviolation⟩ := violation_only (afterFlits s m) m.port m.vl 5
    refine ⟨_, exec_readReq harrives, ?_, ?_, ?_⟩
    · rw [hviolation]
      exact hsent.hbm
    · rw [hviolation]
      exact hsent.moves
    · rw [regVal_violation, hsent.regVal]
  case readData =>
    intro s m v off len harrives hmove htags hgood hlen
    have hsent := sends_afterFlits s m
    have hexec := exec_readData harrives
    rw [takeData_last (by rw [hsent.moveOf]; exact hmove) htags hgood hlen] at hexec
    refine ⟨_, hexec, ?_, ?_⟩
    · rw [moves_moveOver_setMove, writeHbm_moves, hsent.moves, lastPiece_r]
    · exact (writeHbm_written (afterFlits s m) (v.dst + off) m.data).of_ctxView hsent.ctxView
        (by rw [ctxView_moveOver, ctxView_setMove])
  case valaz =>
    intro s m harrives
    have hsent := sends_afterFlits s m
    have hexec := exec_valaz harrives
    have hpartial := partial_afterFlits s m m.port
    refine ⟨fun hbroken => ?_, fun v hmore => ?_, fun bs hwhole => ?_⟩
    · rw [takeValaz_broken (by rw [hpartial, hbroken])] at hexec
      refine ⟨_, hexec, ?_, ?_, ?_⟩
      · rw [port_violation, partial_holdSegments]
      · rw [violation_sessions, holdSegments_sessions, hsent.sessions]
      · rw [regVal_violation, regVal_holdSegments, hsent.regVal]
    · rw [takeValaz_more (by rw [hpartial, hmore])] at hexec
      refine ⟨_, hexec, ?_, ?_⟩
      · rw [partial_holdSegments]
      · rw [holdSegments_sessions, hsent.sessions]
    · rw [takeValaz_whole (by rw [hpartial, hwhole])] at hexec
      refine ⟨_, hexec, ?_, ?_, ?_⟩
      · rw [partial_holdSegments]
      · rw [holdSegments_sessions, hsent.sessions]
      · rw [holdSegments_regs, hsent.regs]
end

section
/-!
PROOFS. The loss of a member (12 R387, R394 to R396): what a loss that is new ends, and the Whistles that a sleeping partner does not
answer.
-/

namespace Sys2Proof.Machine

/-! ### What a reply leaves of the join -/

/-- The join but for the tag of the message that comes next, which a reply over Leash takes. -/
def joinCore (s : State) : Join := { s.join with nextTag := 0 }

theorem sendReply_joinCore (s : State) (r : Reply) : joinCore (sendReply s r) = joinCore s := by
  unfold sendReply
  split
  · obtain ⟨x, y, h⟩ := sendAll_only (valazSegments { s with join := { s.join with nextTag := s.join.nextTag + 1 } } r.dest.port
      r.dest.member s.join.nextTag.toNat r.bytes) { s with join := { s.join with nextTag := s.join.nextTag + 1 } } r.dest.port
    exact (congrArg joinCore h).trans rfl
  · dsimp only
    repeat' split
    all_goals rfl

theorem reply_joinCore (s : State) (r : Req) (op : Nat) (st : Status) (d : Nat) (p : List Byte) (o : Nat) :
    joinCore (reply s r op st d p o) = joinCore s := by
  unfold reply answer
  split
  · exact sendReply_joinCore ..
  · split
    · exact sendReply_joinCore ..
    · rfl

/-! ### What a loss ends (12 R396) -/

/-- The member-to-member MOVEs are over, with their replies. -/
def endMoves (s : State) : State := each (s.moves.filter (fun m => m.kind == 3)) s (fun s m => endMove s m .joinIncomplete 0x0350)

/-- The barriers are over, with their replies. -/
def endBarriers (s : State) : State :=
  each s.join.barriers { s with join := { s.join with barriers := [] } } (fun s b => barrierReply s b .joinIncomplete 0x0350 [])

/-- A SET that waits is over, with its reply. -/
def endSet (s : State) : State :=
  match s.join.setReq with
  | some r => reply { s with join := { s.join with setReq := none, selfTest := false } } r 0xA0 .joinIncomplete 0x0350 (joinBytes s)
  | none => s

theorem endJoinedWork_eq (s : State) : endJoinedWork s = endSet (endBarriers (endMoves s)) := rfl

/-- Of a state, what ending joined work leaves alone. -/
def unjoinedView (s : State) : List Host.Cell × Map Ctx := (s.hbm, s.ctxs)

theorem endMoves_joinCore (s : State) : joinCore (endMoves s) = joinCore s :=
  each_keeps joinCore (fun s m => (reply_joinCore (moveOver s m) m.r ..).trans rfl) _ s

theorem endMoves_unjoined (s : State) : unjoinedView (endMoves s) = unjoinedView s :=
  each_keeps unjoinedView (fun s m => by rw [endMove_eq, unjoinedView, reply_hbm, reply_ctxs]; rfl) _ s

/-- A MOVE that has ended is gone, and no other has come. -/
theorem mem_endMove {s : State} {v m : Move} {st : Status} {d : Nat} (h : m ∈ (endMove s v st d).moves) : m ∈ s.moves ∧ m.r ≠ v.r := by
  rw [endMove_eq, reply_moves, moveOver_moves] at h
  simpa using h

theorem mem_endMoves {s : State} {m : Move} (h : m ∈ (endMoves s).moves) : m.kind ≠ 3 := by
  have hmem : ∀ (l : List Move) (u : State), m ∈ (each l u (fun s m => endMove s m .joinIncomplete 0x0350)).moves →
      m ∈ u.moves ∧ ∀ v ∈ l, m.r ≠ v.r := by
    intro l
    induction l with
    | nil => exact fun u hu => ⟨hu, nofun⟩
    | cons v l ih =>
      intro u hu
      obtain ⟨hleft, hrest⟩ := ih (endMove u v .joinIncomplete 0x0350) hu
      obtain ⟨hold, hne⟩ := mem_endMove hleft
      exact ⟨hold, List.forall_mem_cons.mpr ⟨hne, hrest⟩⟩
  obtain ⟨hold, hgone⟩ := hmem _ s h
  intro hkind
  exact hgone m (List.mem_filter.mpr ⟨hold, by rw [hkind]; rfl⟩) rfl

theorem barrierReply_joinCore (s : State) (b : Barrier) (st : Status) (d : Nat) (p : List Byte) :
    joinCore (barrierReply s b st d p) = joinCore s := by
  unfold barrierReply
  cases b.r with
  | none => rfl
  | some r => exact reply_joinCore ..

theorem barrierReply_moves (s : State) (b : Barrier) (st : Status) (d : Nat) (p : List Byte) :
    (barrierReply s b st d p).moves = s.moves := by
  unfold barrierReply
  cases b.r with
  | none => rfl
  | some r => exact reply_moves ..

theorem barrierReply_unjoined (s : State) (b : Barrier) (st : Status) (d : Nat) (p : List Byte) :
    unjoinedView (barrierReply s b st d p) = unjoinedView s := by
  unfold barrierReply
  cases b.r with
  | none => rfl
  | some r => rw [Option.elim_some, unjoinedView, reply_hbm, reply_ctxs, unjoinedView]

theorem endBarriers_joinCore (s : State) : joinCore (endBarriers s) = { joinCore s with barriers := [] } :=
  each_keeps joinCore (fun _ _ => barrierReply_joinCore ..) s.join.barriers { s with join := { s.join with barriers := [] } }

theorem endBarriers_moves (s : State) : (endBarriers s).moves = s.moves :=
  each_keeps State.moves (fun _ _ => barrierReply_moves ..) s.join.barriers _

theorem endBarriers_unjoined (s : State) : unjoinedView (endBarriers s) = unjoinedView s :=
  each_keeps unjoinedView (fun _ _ => barrierReply_unjoined ..) s.join.barriers _

theorem endSet_moves (s : State) : (endSet s).moves = s.moves := by
  unfold endSet
  split
  · exact reply_moves ..
  · rfl

theorem endSet_unjoined (s : State) : unjoinedView (endSet s) = unjoinedView s := by
  unfold endSet
  split
  · rw [unjoinedView, reply_hbm, reply_ctxs, unjoinedView]
  · rfl

/-- The end of a SET leaves the rest of the join, and no SET. -/
theorem endSet_joinCore (s : State) : ∃ selfTest, joinCore (endSet s) = { joinCore s with setReq := none, selfTest := selfTest } := by
  unfold endSet
  split
  · exact ⟨false, reply_joinCore ..⟩
  · next hnone =>
    refine ⟨s.join.selfTest, ?_⟩
    rw [← hnone]
    rfl

theorem endJoinedWork_joinCore (s : State) :
    ∃ selfTest, joinCore (endJoinedWork s) = { joinCore s with barriers := [], setReq := none, selfTest := selfTest } := by
  obtain ⟨selfTest, hset⟩ := endSet_joinCore (endBarriers (endMoves s))
  rw [endJoinedWork_eq, hset, endBarriers_joinCore, endMoves_joinCore]
  exact ⟨selfTest, rfl⟩

theorem endJoinedWork_unjoined (s : State) : unjoinedView (endJoinedWork s) = unjoinedView s := by
  rw [endJoinedWork_eq, endSet_unjoined, endBarriers_unjoined, endMoves_unjoined]

theorem endJoinedWork_moves {s : State} {m : Move} (h : m ∈ (endJoinedWork s).moves) : m.kind ≠ 3 := by
  rw [endJoinedWork_eq, endSet_moves, endBarriers_moves] at h
  exact mem_endMoves h

/-! ### Declaring a loss (12 R394, R395) -/

theorem dropTraffic_join (s : State) (n : Nat) : (dropTraffic s n).join = s.join := by
  unfold dropTraffic
  refine (modPort_join ..).trans (each_keeps State.join (fun t o => ?_) _ s)
  cases o.origin <;> rfl

theorem dropTraffic_unjoined (s : State) (n : Nat) : unjoinedView (dropTraffic s n) = unjoinedView s := by
  unfold dropTraffic
  refine Eq.trans (b := unjoinedView (each _ s _)) rfl (each_keeps unjoinedView (fun t o => ?_) _ s)
  cases o.origin <;> rfl

/-- LOST leaves on every joined port but the one that the news came from. -/
def spreadLoss (s : State) (j : Nat) (from_ : Option Nat) : State :=
  each ((joinedPorts s).filter (fun n => some n != from_)) s (fun s n => sendMsg s n (lostMsg s n j))

/-- The join knows of the loss. -/
def lossNoted (s : State) (j : Nat) : State :=
  { s with join := { s.join with lost := s.join.lost ++ [j], lostFirst := some (s.join.lostFirst.getD j), st := .incomplete } }

/-- The ports that led to the lost member carry nothing for it any more. -/
def lossDropped (s : State) (j : Nat) : State :=
  each ((joinedPorts s).filter (fun n => memberAt s n == some j)) (lossNoted s j) dropTraffic

theorem sends_spreadLoss (s : State) (j : Nat) (from_ : Option Nat) : Sends s (spreadLoss s j from_) :=
  Sends.each (fun _ _ => sends_sendMsg ..) _ s

theorem lossDropped_join (s : State) (j : Nat) : (lossDropped s j).join = (lossNoted s j).join :=
  each_keeps State.join dropTraffic_join _ _

theorem lossDropped_unjoined (s : State) (j : Nat) : unjoinedView (lossDropped s j) = unjoinedView s :=
  each_keeps unjoinedView dropTraffic_unjoined ((joinedPorts s).filter (fun n => memberAt s n == some j)) (lossNoted s j)

theorem declareLost_new {s : State} {j : Nat} (unit : Nat) (from_ : Option Nat) (hjoined : s.join.st ≠ .single)
    (hnew : j ∉ s.join.lost) : declareLost s j unit from_ =
      endJoinedWork (event (lossDropped (spreadLoss s j from_) j) 0x0601 2 (unitLeash unit) 0 (leBytes 4 j)) := by
  have hno : ¬ (s.join.st = .single ∨ s.join.lost.contains j = true) := by simp [hjoined, hnew]
  exact if_neg hno

theorem declareLost_known {s : State} {j : Nat} (unit : Nat) (from_ : Option Nat) (h : j ∈ s.join.lost) :
    declareLost s j unit from_ = s := if_pos (.inr (by simpa using h))

/-- A loss that is new is known from then on, and what it ends has ended; memory and contexts stay. -/
theorem declareLost_knows {s : State} {j : Nat} (unit : Nat) (from_ : Option Nat) (hjoined : s.join.st ≠ .single)
    (hnew : j ∉ s.join.lost) : KnowsLost s (declareLost s j unit from_) j ∧ (declareLost s j unit from_).hbm = s.hbm ∧
      (declareLost s j unit from_).ctxs = s.ctxs := by
  rw [declareLost_new unit from_ hjoined hnew]
  generalize hevent : event (lossDropped (spreadLoss s j from_) j) 0x0601 2 (unitLeash unit) 0 (leBytes 4 j) = t
  have hsent := sends_spreadLoss s j from_
  have hnoted : t.join = (lossNoted s j).join := by
    rw [← hevent, event_join, lossDropped_join, lossNoted, lossNoted, hsent.join]
  have hview : unjoinedView (endJoinedWork t) = unjoinedView s := by
    rw [endJoinedWork_unjoined, ← hevent, unjoinedView, event_hbm, event_ctxs, ← unjoinedView, lossDropped_unjoined, unjoinedView,
      hsent.hbm, hsent.ctxs, unjoinedView]
  obtain ⟨selfTest, hcore⟩ := endJoinedWork_joinCore t
  rw [joinCore, joinCore, hnoted] at hcore
  exact ⟨⟨congrArg Join.st hcore, congrArg Join.lost hcore, congrArg Join.lostFirst hcore, congrArg Join.barriers hcore,
    fun m hm => endJoinedWork_moves hm, congrArg Join.setReq hcore⟩, congrArg Prod.fst hview, congrArg Prod.snd hview⟩

/-! ### The rows (12 R387, R394, R395) -/

/-- What the row of a LOST does with a whole message. -/
def takeLost (m : LeashMsg) (s : State) : State :=
  if u32 m.data 0 < s.join.count then declareLost s (u32 m.data 0) m.port (some m.port) else s

theorem exec_lost {s : State} {m : LeashMsg} (h : Arrives s 8 m) : exec (.lost m) s = .next (takeLost m (afterFlits s m)) :=
  congrArg Host.Outcome.next (receiveMsg_arrives h takeLost)

theorem takeLost_known {s : State} {m : LeashMsg} (h : u32 m.data 0 ∈ s.join.lost) : takeLost m s = s := by
  unfold takeLost
  split
  · exact declareLost_known _ _ h
  · rfl

/-- What is known of a loss depends on the join alone. -/
theorem KnowsLost.of_join {s u t : State} {j : Nat} (h : KnowsLost u t j) (hjoin : u.join = s.join) : KnowsLost s t j := by
  unfold KnowsLost at h ⊢
  rw [hjoin] at h
  exact h

theorem exec_lossTimeout {s : State} {n j : Nat} (hmember : memberAt s n = some j) (hn : n < 4)
    (hst : (port s n).st = .training ∨ (port s n).st = .down) (hawake : (port s n).sleepNotice = false) :
    exec (.lossTimeout n) s = .next (declareLost s j n none) := by
  show Host.Outcome.next _ = _
  rw [hmember]
  exact congrArg Host.Outcome.next (if_pos ⟨hn, hst, hawake⟩)

section
variable {s : State} {n : Nat} (hn : n < 4) (hst : (port s n).st = .asleep)
include hn hst

theorem exec_whistleTimeout_member {j : Nat} (hmember : memberAt s n = some j) (hwhistling : (port s n).whistling = true) :
    exec (.whistleTimeout n) s = .next (declareLost s j n none) := by
  refine congrArg Host.Outcome.next ((if_pos ⟨hn, hst, hwhistling⟩).trans ?_)
  rw [hmember]

theorem exec_whistleTimeout_alone (hmember : memberAt s n = none) (hwhistling : (port s n).whistling = true) :
    exec (.whistleTimeout n) s = .next (modPort s n (fun p => { p with st := .lost, whistling := false })) := by
  refine congrArg Host.Outcome.next ((if_pos ⟨hn, hst, hwhistling⟩).trans ?_)
  rw [hmember]

theorem exec_whistleRepeat (hon : serdesOn s = true) (htraffic : hasTraffic (port s n) = true)
    (henabled : regBit s (portReg n 0) 3 = true) : exec (.whistleRepeat n) s =
      .next { modPort s n (fun p => { p with whistling := true }) with out := .whistle n :: s.out } :=
  congrArg Host.Outcome.next (if_pos ⟨hn, hon, hst, htraffic, henabled⟩)

end

end Sys2Proof.Machine

open Sys2Proof Sys2Proof.Machine

/-- Settles O54: LOST, LOSS_TIMEOUT and WHISTLE_TIMEOUT declare the loss (`exec_lost`, `exec_lossTimeout`,
`exec_whistleTimeout_member`), which is known from then on (`declareLost_knows`) and changes nothing again (`declareLost_known`). -/
theorem lossIsDeclaredOnce : Obligations.LossIsDeclaredOnce := by
  refine ⟨?lost, ?timeout, ?unanswered, ?known, ?whistle, ?alone⟩
  case lost =>
    intro s m hjoined harrives hmember hnew
    have hsent := sends_afterFlits s m
    have hexec := exec_lost harrives
    rw [takeLost, if_pos (by rw [hsent.join]; exact hmember)] at hexec
    obtain ⟨hknows, hhbm, hctxs⟩ := declareLost_knows (s := afterFlits s m) (j := u32 m.data 0) m.port (some m.port)
      (by rw [hsent.join]; exact hjoined) (by rw [hsent.join]; exact hnew)
    exact ⟨_, hexec, hknows.of_join hsent.join, hhbm.trans hsent.hbm, hctxs.trans hsent.ctxs⟩
  case timeout =>
    intro s n j hjoined hnew hmember hn hst hawake
    exact ⟨_, exec_lossTimeout hmember hn hst hawake, declareLost_knows n none hjoined hnew⟩
  case unanswered =>
    intro s n j hjoined hnew hmember hn hst hwhistling
    exact ⟨_, exec_whistleTimeout_member hn hst hmember hwhistling, declareLost_knows n none hjoined hnew⟩
  case known =>
    intro s m harrives hknown
    have hsent := sends_afterFlits s m
    have hexec := exec_lost harrives
    rw [takeLost_known (by rw [hsent.join]; exact hknown)] at hexec
    exact ⟨_, hexec, hsent.join, hsent.moves⟩
  case whistle =>
    intro s n hn hon hst htraffic henabled
    exact ⟨_, exec_whistleRepeat hn hst hon htraffic henabled, rfl,
      port_modPort_same s n fun p => { p with whistling := true }, rfl⟩
  case alone =>
    intro s n hn hst hwhistling hmember
    exact ⟨_, exec_whistleTimeout_alone hn hst hmember hwhistling, port_modPort_same .., rfl⟩
end

section
/-!
PROOFS. Leash ports (12 R380 to R385, R400): CTRL flits, replay, training, discarded flits, and LK_CTRL at the end of a frame.
-/

namespace Sys2Proof.Machine

/-! ### What the transmitter leaves of a port -/

/-- Of a port: its state, its trained width and lanes, its partner, and what its partner last reported. -/
def linkShape (p : Port) : LinkState × Nat × BitVec 8 × Option LinkParams × Bool × List Nat × Bool × Nat :=
  (p.st, p.width, p.lanes, p.partner, p.partnerJoined, p.freedByPartner, p.sleepNotice, p.naks)

/-- The transmitter runs: the links stand, and what has left has left. -/
structure Transmits (s t : State) : Prop where
  shape : ∀ k, linkShape (port t k) = linkShape (port s k)
  out : ∀ x ∈ s.out, x ∈ t.out

theorem Transmits.refl (s : State) : Transmits s s := ⟨fun _ => rfl, fun _ hx => hx⟩

theorem Transmits.trans {s t u : State} (h : Transmits s t) (g : Transmits t u) : Transmits s u :=
  ⟨fun k => (g.shape k).trans (h.shape k), fun x hx => g.out x (h.out x hx)⟩

theorem Transmits.of_eq {s t : State} (hports : t.ports = s.ports) (hout : t.out = s.out) : Transmits s t := by
  refine ⟨fun k => ?_, fun x hx => by rw [hout]; exact hx⟩
  rw [port, hports, ← port]

theorem Transmits.each {α : Type} {f : State → α → State} (h : ∀ s a, Transmits s (f s a)) (l : List α) (s : State) :
    Transmits s (each l s f) :=
  List.foldlRecOn (motive := Transmits s) l f (.refl s) (fun t ht a _ => ht.trans (h t a))

theorem Transmits.setPort (s : State) (n : Nat) {v : Port} (h : linkShape v = linkShape (port s n)) :
    Transmits s (setPort s n v) := by
  refine ⟨fun k => ?_, fun x hx => hx⟩
  by_cases hk : k = n
  · rw [hk, port_setPort_same, h]
  · rw [port_setPort_other s v hk]

theorem Transmits.modPort (s : State) (n : Nat) {f : Port → Port} (h : ∀ p, linkShape (f p) = linkShape p) :
    Transmits s (modPort s n f) := .setPort s n (h _)

theorem Transmits.emits {s t : State} (h : Transmits s t) (x : Out) : Transmits s { t with out := x :: t.out } :=
  ⟨h.shape, fun y hy => List.mem_cons_of_mem _ (h.out y hy)⟩

theorem transmits_freeFlits (s : State) (n vl k : Nat) : Transmits s (freeFlits s n vl k) := .modPort s n (fun _ => rfl)

theorem transmits_sendFlit (s : State) (n : Nat) (o : Outgoing) : Transmits s (sendFlit s n o) := by
  unfold sendFlit
  extract_lets p src msg rest held sent t
  have hsent : Transmits s sent := .setPort s n rfl
  have ht : Transmits s t := hsent.emits _
  split
  · exact ht
  · exact ht.trans (transmits_freeFlits ..)

theorem transmits_pumpFlits (k : Nat) (s : State) (n : Nat) : Transmits s (pumpFlits k s n) := by
  induction k generalizing s with
  | zero => exact .refl s
  | succ k ih =>
    unfold pumpFlits
    split
    · exact .refl s
    · exact (transmits_sendFlit ..).trans (ih _)

theorem transmits_pump (s : State) (n : Nat) : Transmits s (pump s n) := transmits_pumpFlits ..

theorem transmits_firstWhistle (s : State) (n : Nat) : Transmits s (firstWhistle s n) := by
  unfold firstWhistle
  split
  · exact (Transmits.modPort s n (f := fun p => { p with whistling := true }) fun _ => rfl).emits _
  · exact .refl s

theorem transmits_sendMsg (s : State) (n : Nat) (m : LeashMsg) : Transmits s (sendMsg s n m) := by
  refine .trans (.modPort s n (fun _ => ?_)) (.trans (transmits_firstWhistle _ n) (transmits_pumpFlits ..))
  rfl

theorem transmits_sendRound (s : State) (b : Barrier) : Transmits s (sendRound s b) := by
  unfold sendRound sendTo
  dsimp only
  split
  · exact transmits_sendMsg ..
  · exact .refl s

/-! ### The self-test keeps the links (12 R393) -/

theorem transmits_entered (s : State) (b : Barrier) : Transmits s (entered s b) := by
  refine ⟨fun k => ?_, fun x hx => hx⟩
  rw [port, entered, lookupD,
    lookup_map s.ports (fun p => ({ p with barrierMsgs := p.barrierMsgs.filter (fun m => m.tag != b.id) } : Port)), port, lookupD]
  cases lookup s.ports k with
  | none => rfl
  | some p => rfl

theorem transmits_advance {b : Barrier} (hnone : b.r = none) (k : Nat) (s : State) : Transmits s (advance k s b) := by
  induction k generalizing s b with
  | zero => exact .refl s
  | succ k ih =>
    unfold advance
    split
    · rw [barrierReply, hnone]
      exact .of_eq rfl rfl
    · split
      · refine .trans (t := setBarrier s (nextRound b)) (.of_eq rfl rfl) (.trans ?_ (ih (b := nextRound b) hnone _))
        split
        · exact transmits_sendRound ..
        · exact .refl _
      · exact .refl s

theorem transmits_enterSelfBarrier (s : State) (k : Nat) : Transmits s (enterSelfBarrier s k) := by
  refine .trans ?_ (transmits_advance rfl 20 _)
  have hentered := transmits_entered s ⟨selfBarrierId k, 0, none, 0, heldRounds s (selfBarrierId k) 0⟩
  split
  · exact hentered.trans (transmits_sendRound ..)
  · exact hentered

theorem transmits_startSelfTest (s : State) : Transmits s (startSelfTest s) := by
  unfold startSelfTest
  split
  · refine .trans ?_ (.each transmits_enterSelfBarrier _ _)
    exact .trans (t := { s with join := { s.join with selfTest := true, selfBytes := 0 } }) (.of_eq rfl rfl)
      (.each (fun _ _ => .each (fun _ _ => transmits_sendMsg ..) _ _) _ _)
  · exact .refl s

/-! ### CTRL flits (12 R380, R381) -/

theorem linkActive_st {s : State} {n : Nat} (h : linkActive s n = true) : (port s n).st = .active := by
  simp only [linkActive, Bool.and_eq_true, beq_iff_eq] at h
  exact h.2

theorem port_modPort_other (s : State) {n k : Nat} (f : Port → Port) (h : k ≠ n) : port (modPort s n f) k = port s k :=
  port_setPort_other s _ h

theorem port_sendCtrl_same (s : State) (n : Nat) (nak : Bool) (notice : Nat) :
    port (sendCtrl s n nak notice) n = { port s n with sinceCtrl := 0 } :=
  port_setPort_same s n _

theorem port_sendCtrl_other (s : State) {n k : Nat} (nak : Bool) (notice : Nat) (h : k ≠ n) :
    port (sendCtrl s n nak notice) k = port s k :=
  port_setPort_other s _ h

section
variable {s : State} {n : Nat} (hactive : linkActive s n = true)
include hactive

theorem exec_ctrlFlitDue : exec (.ctrlFlitDue n) s = .next (sendCtrl s n false 0) := congrArg Host.Outcome.next (if_pos hactive)

/-- The part of a CTRL flit that frees credit: the partner's counters, and what is acknowledged leaves the replay buffer. -/
def credited (f : CtrlFlit) (p : Port) : Port :=
  let q := { p with freedByPartner := (List.range 4).map (fun v => f.freed.getD v 0 % 4096) }
  if f.ackValid then acknowledge q (f.ackSeq % 4096) else q

/-- A good CTRL flit without a NAK: credit is freed, the count of NAKs ends, and a SLEEP notice marks the partner asleep. -/
def ctrlTaken (s : State) (n : Nat) (f : CtrlFlit) : State :=
  let t := modPort (modPort s n (credited f)) n (fun p => { p with naks := 0 })
  pump (if f.notice = 1 then firstWhistle (modPort t n (fun p => { p with st := .asleep, carry := false, sleepNotice := true })) n
    else t) n

theorem exec_leashCtrlFlit_bad {f : CtrlFlit} (hok : f.ok = false) :
    exec (.leashCtrlFlit n f) s = .next (bump s (portReg n 0x20) 1) := by
  refine congrArg Host.Outcome.next ((if_neg (by rw [hactive]; decide)).trans (if_pos ?_))
  rw [hok]
  rfl

theorem exec_leashCtrlFlit_reserved {f : CtrlFlit} (hok : f.ok = true) (hreserved : f.reservedZero = false) :
    exec (.leashCtrlFlit n f) s = .next (bump s (portReg n 0x28) 1) := by
  refine congrArg Host.Outcome.next ((if_neg (by rw [hactive]; decide)).trans ((if_neg ?_).trans (if_pos ?_)))
  · rw [hok]
    decide
  · rw [hreserved]
    rfl

theorem exec_leashCtrlFlit_good {f : CtrlFlit} (hok : f.ok = true) (hreserved : f.reservedZero = true) (hnak : f.nak = false)
    (hnotice : f.notice < 2) : exec (.leashCtrlFlit n f) s = .next (ctrlTaken s n f) := by
  refine congrArg Host.Outcome.next ((if_neg (by rw [hactive]; decide)).trans ((if_neg (by rw [hok]; decide)).trans
    ((if_neg (by rw [hreserved]; decide)).trans ?_)))
  have hleaves : f.notice ≠ 2 := by omega
  have hquiet : ¬ f.nak = true := by rw [hnak]; decide
  dsimp only
  rw [if_neg hquiet, if_neg hleaves]
  rfl

end

theorem acknowledge_shape (p : Port) (seq : Nat) : linkShape (acknowledge p seq) = linkShape p := by
  unfold acknowledge
  split <;> rfl

theorem credited_shape (f : CtrlFlit) (p : Port) : linkShape (credited f p) =
    linkShape { p with freedByPartner := (List.range 4).map (fun v => f.freed.getD v 0 % 4096) } := by
  unfold credited
  dsimp only
  split
  · exact acknowledge_shape ..
  · rfl

/-- What a good CTRL flit leaves of its port, from the shape of the port alone. -/
theorem ctrlTaken_shape (s : State) (n : Nat) (f : CtrlFlit) : linkShape (port (ctrlTaken s n f) n) =
    linkShape { port s n with
      freedByPartner := (List.range 4).map (fun v => f.freed.getD v 0 % 4096), naks := 0
      st := if f.notice = 1 then .asleep else (port s n).st, sleepNotice := f.notice == 1 || (port s n).sleepNotice } := by
  have hcredited := credited_shape f (port s n)
  simp only [linkShape, Prod.mk.injEq] at hcredited
  obtain ⟨hst, hwidth, hlanes, hpartner, hjoined, hfreed, hsleep, -⟩ := hcredited
  unfold ctrlTaken
  extract_lets t
  refine ((transmits_pump _ n).shape n).trans ?_
  have ht : port t n = { credited f (port s n) with naks := 0 } := by
    rw [port_modPort_same, port_modPort_same]
  split
  · next hsleeps =>
    refine ((transmits_firstWhistle _ n).shape n).trans ?_
    rw [port_modPort_same, ht]
    simp only [linkShape, hsleeps, hwidth, hlanes, hpartner, hjoined, hfreed, beq_self_eq_true, Bool.true_or]
    rfl
  · next hstays =>
    rw [ht]
    simp only [linkShape, beq_false_of_ne hstays, hst, hwidth, hlanes, hpartner, hjoined, hfreed, hsleep,
      Bool.false_or]
    rfl

theorem ctrlTaken_hbm (s : State) (n : Nat) (f : CtrlFlit) : (ctrlTaken s n f).hbm = s.hbm := by
  unfold ctrlTaken
  dsimp only
  refine (sends_pumpFlits ..).hbm.trans ?_
  split
  · exact (sends_firstWhistle ..).hbm.trans rfl
  · rfl

/-! ### Replay (12 R381) -/

theorem replayPlace_oldest {p : Port} {x : Sent} {xs : List Sent} (h : p.replay = x :: xs) : replayPlace p x.seq = some 0 := by
  have hzero : (x.seq + 4096 - x.seq) % 4096 = 0 := by omega
  rw [replayPlace, h]
  dsimp only
  rw [hzero]
  exact if_pos (Nat.succ_pos _)

theorem exec_leashReplayTimeout {s : State} {n : Nat} (hactive : linkActive s n = true) (hsome : (port s n).replay ≠ []) :
    exec (.leashReplayTimeout n) s = .next (sendAgain (bump s (portReg n 0x30) 1) n (port s n).replay) := by
  obtain ⟨x, xs, hreplay⟩ := List.exists_cons_of_ne_nil hsome
  refine congrArg Host.Outcome.next ((if_pos hactive).trans ?_)
  have hplace := replayPlace_oldest hreplay
  rw [hreplay]
  dsimp only
  rw [replayFrom, hplace, hreplay]
  rfl

/-! ### Training starts (12 R382, R383) -/

theorem port_trainingBoundary (s : State) (n k : Nat) : port (trainingBoundary s n) k = port s k := by
  rw [port, trainingBoundary, applyHeld_ports, ← port]

/-- A port that begins to train. -/
def trainingPort (p : Port) : Port := { p with st := .training, lanes := 0, naks := 0, overruns := [], whistling := false }

/-- A training that follows another is counted. -/
def retrainCounted (s : State) (n : Nat) : State := if (port s n).everActive then bump s (portReg n 0x2C) 1 else s

theorem startTraining_eq (s : State) (n : Nat) :
    startTraining s n = trainingBoundary (modPort (retrainCounted s n) n trainingPort) n := rfl

theorem port_retrainCounted (s : State) (n k : Nat) : port (retrainCounted s n) k = port s k := by
  unfold retrainCounted
  split
  · rw [port, bump_ports, ← port]
  · rfl

theorem port_startTraining_same (s : State) (n : Nat) : port (startTraining s n) n = trainingPort (port s n) := by
  rw [startTraining_eq, port_trainingBoundary, port_modPort_same, port_retrainCounted]

theorem port_startTraining_other (s : State) {n k : Nat} (h : k ≠ n) : port (startTraining s n) k = port s k := by
  rw [startTraining_eq, port_trainingBoundary, port_modPort_other _ _ h, port_retrainCounted]

/-- With nothing that waits, the boundary of a training changes no register. -/
theorem regVal_trainingBoundary_idle {s : State} (n a : Nat) (h : s.heldRegs = []) : regVal (trainingBoundary s n) a = regVal s a := by
  rw [trainingBoundary, applyHeld, h]
  rfl

/-- The retrains of a port that has been ACTIVE are counted. -/
theorem regVal_startTraining_counted {s : State} {n : Nat} (h : s.heldRegs = []) (hactive : (port s n).everActive = true) :
    regVal (startTraining s n) (portReg n 0x2C) = min (regVal s (portReg n 0x2C) + 1) 0xFFFFFFFF := by
  have hcounted : retrainCounted s n = bump s (portReg n 0x2C) 1 := if_pos hactive
  rw [startTraining_eq, hcounted, regVal_trainingBoundary_idle n _ (by rw [modPort_heldRegs, bump_heldRegs, h])]
  exact regVal_bump_same ..

/-! ### Training ends (12 R383 to R385) -/

/-- The port as training leaves it. -/
def trainedPort (s : State) (n w g : Nat) (q : Option LinkParams) (words : List LaneWord) (p : Port) : Port :=
  { becomeActive s p with
    width := w, lanes := BitVec.ofNat 8 g, partner := q, partnerJoined := q.any (partnerAgrees s n), laneWords := words
    whistling := false, sleepNotice := false }

/-- The port is trained, and has sent its parameters. -/
def trainedLink (s : State) (n w g : Nat) (q : Option LinkParams) (words : List LaneWord) : State :=
  { modPort s n (trainedPort s n w g q words) with
    out := .training n ⟨s.join.systemId, s.join.self, s.join.topology, n⟩ :: s.out }

/-- Training ends: the port is trained, sends what it still owes, and may complete the wait of a self-test. -/
def trained (s : State) (n w g : Nat) (q : Option LinkParams) (words : List LaneWord) : State :=
  startSelfTest (pump (sendAgain (trainedLink s n w g q words) n (port (trainedLink s n w g q words) n).replay) n)

theorem exec_leashTrainingDone {s : State} {n w g : Nat} {lanes : BitVec 8} (q : Option LinkParams) (words : List LaneWord)
    (hn : n < 4) (hon : serdesOn s = true) (hst : (port s n).st = .training) (henabled : regBit s (portReg n 0) 0 = true)
    (hwidth : chooseWidth lanes.toNat (regField s (portReg n 0) 1 2) = some (w, g)) :
    exec (.leashTrainingDone n lanes q words) s = .next (trained s n w g q words) := by
  have hidle : (port s n).st ≠ .active := by rw [hst]; decide
  refine congrArg Host.Outcome.next ((if_pos ⟨hn, hon, hidle, henabled⟩).trans ?_)
  dsimp only
  rw [if_pos hst, hwidth]
  cases q <;> rfl

theorem transmits_trained (s : State) (n w g : Nat) (q : Option LinkParams) (words : List LaneWord) :
    Transmits (trainedLink s n w g q words) (trained s n w g q words) := by
  refine .trans ?_ ((transmits_pump _ n).trans (transmits_startSelfTest _))
  exact ⟨fun _ => rfl, fun x hx => List.mem_append_right _ hx⟩

theorem becomeActive_st (s : State) (p : Port) : (becomeActive s p).st = .active := by
  unfold becomeActive
  split <;> rfl

/-! ### Discarded flits (12 R381, R398) -/

theorem discardFlit_rxSeq (s : State) (n : Nat) : (port (discardFlit s n) n).rxSeq = (port s n).rxSeq := by
  unfold discardFlit
  split
  · rfl
  · rw [port_sendCtrl_same, port_modPort_same]

theorem regVal_discardFlit (s : State) (n a : Nat) : regVal (discardFlit s n) a = regVal s a := by
  unfold discardFlit
  split <;> rfl

/-- The first flit discarded draws a NAK. -/
theorem discardFlit_first {s : State} {n : Nat} (h : (port s n).nakSent = false) :
    (port (discardFlit s n) n).nakSent = true ∧ (discardFlit s n).out = .ctrl n (ctrlFlit (port (discardFlit s n) n) true 0) :: s.out := by
  have hsends : discardFlit s n = sendCtrl (modPort s n (fun p => { p with nakSent := true })) n true 0 :=
    if_neg (by rw [h]; decide)
  rw [hsends, port_sendCtrl_same, port_modPort_same]
  refine ⟨rfl, ?_⟩
  rw [sendCtrl, port_modPort_same]
  rfl

theorem discardFlit_again {s : State} {n : Nat} (h : (port s n).nakSent = true) : discardFlit s n = s := if_pos h

/-- What a flit that cannot be accepted is counted as (12 R398). -/
def flitCounted (s : State) (n : Nat) : FlitError → State
  | .crc => bump s (portReg n 0x20) 1
  | .ctrlCrc => bump s (portReg n 0x20) 1
  | .fec => bump s (portReg n 0x24) 1
  | .type3 => bump s (portReg n 0x28) 1
  | .ctrlReserved => bump s (portReg n 0x28) 1
  | .unexpectedSeq => s
  | .seqWindow => bump s (portReg n 0x28) 1

/-- The flits that had a SEQ (12 R381). -/
def sequenced (why : FlitError) : Prop := why ∈ [.crc, .fec, .unexpectedSeq, .seqWindow]

theorem exec_flitCrcError_sequenced {s : State} {n : Nat} (seq vl : Nat) {why : FlitError} (hactive : linkActive s n = true)
    (h : sequenced why) : exec (.flitCrcError n seq vl why) s = .next (discardFlit (flitCounted s n why) n) := by
  refine congrArg Host.Outcome.next ((if_neg (by rw [hactive]; decide)).trans ?_)
  cases why
  case crc | fec | unexpectedSeq | seqWindow => rfl
  all_goals simp [sequenced] at h

theorem exec_flitCrcError_other {s : State} {n : Nat} (seq vl : Nat) {why : FlitError} (hactive : linkActive s n = true)
    (h : ¬ sequenced why) : exec (.flitCrcError n seq vl why) s = .next (flitCounted s n why) := by
  refine congrArg Host.Outcome.next ((if_neg (by rw [hactive]; decide)).trans ?_)
  cases why
  case ctrlCrc | type3 | ctrlReserved => rfl
  all_goals simp [sequenced] at h

theorem flitCounted_only (s : State) (n : Nat) (why : FlitError) : ∃ x, flitCounted s n why = { s with regs := x } := by
  cases why
  case unexpectedSeq => exact ⟨s.regs, rfl⟩
  all_goals exact bump_only ..

/-! ### LK_CTRL at the end of a frame (12 R400) -/

theorem port_frameBoundary (s : State) (n k : Nat) : port (frameBoundary s n) k = port s k := by
  rw [port, frameBoundary, applyHeld_ports, ← port]

theorem frameBoundary_power (s : State) (n : Nat) : (frameBoundary s n).power = s.power := applyHeld_power ..

theorem serdesOn_frameBoundary (s : State) (n : Nat) : serdesOn (frameBoundary s n) = serdesOn s := by
  unfold serdesOn
  rw [frameBoundary_power]

/-- The port is DOWN. -/
def downPort (p : Port) : Port := { p with st := .down, lanes := 0, width := 0, carry := false, whistling := false }

section
variable {s : State} {n : Nat} (hn : n < 4)
include hn

theorem exec_leashFrameBoundary_down (hoff : regBit (frameBoundary s n) (portReg n 0) 0 = false) :
    exec (.leashFrameBoundary n) s = .next (modPort (frameBoundary s n) n downPort) :=
  congrArg Host.Outcome.next ((if_pos hn).trans (if_neg (by rw [hoff]; decide)))

theorem exec_leashFrameBoundary_on (hon : regBit (frameBoundary s n) (portReg n 0) 0 = true) :
    exec (.leashFrameBoundary n) s = .next (if (port s n).st = .down ∧ serdesOn s = true ∧ s.power.phase ≠ .starting then
      startTraining (frameBoundary s n) n else frameBoundary s n) := by
  refine congrArg Host.Outcome.next ((if_pos hn).trans ((if_pos hon).trans ?_))
  rw [port_frameBoundary, serdesOn_frameBoundary, frameBoundary_power]
  refine if_congr ?_ rfl rfl
  simp [and_assoc]

end

end Sys2Proof.Machine

open Sys2Proof Sys2Proof.Machine

/-- Settles O55: what each row does is said by its own lemma (`exec_ctrlFlitDue`, `exec_leashCtrlFlit_good`,
`exec_leashReplayTimeout`, `exec_leashTrainingDone`, `exec_flitCrcError_sequenced`, `exec_leashFrameBoundary_on`), a training that starts
by `port_startTraining_same`, and what the transmitter leaves of the links by `Transmits`. -/
theorem leashPortsTrainAndReplay : Obligations.LeashPortsTrainAndReplay := by
  refine ⟨?due, ?ctrl, ?replay, ?trains, ?done, ?discard, ?frame⟩
  case due =>
    intro s n hactive
    refine ⟨_, exec_ctrlFlitDue hactive, rfl, port_sendCtrl_same .., fun k hk => port_sendCtrl_other s false 0 hk⟩
  case ctrl =>
    intro s n f hactive
    refine ⟨exec_leashCtrlFlit_bad hactive, exec_leashCtrlFlit_reserved hactive, fun hok hreserved hnak hnotice => ?_⟩
    refine ⟨_, exec_leashCtrlFlit_good hactive hok hreserved hnak hnotice, ?_⟩
    have hshape := ctrlTaken_shape s n f
    rw [linkActive_st hactive] at hshape
    simp only [linkShape, Prod.mk.injEq] at hshape
    obtain ⟨hst, -, -, -, -, hfreed, hsleep, hnaks⟩ := hshape
    exact ⟨hfreed, hst, fun hnotified => by rw [hsleep, hnotified]; rfl, hnaks, ctrlTaken_hbm s n f⟩
  case replay =>
    intro s n hactive hsome
    refine ⟨_, exec_leashReplayTimeout hactive hsome, bump_ports .., regVal_bump_same .., ?_⟩
    rw [sendAgain, bump_out]
  case trains =>
    have htrains (s : State) (n : Nat) (hidle : s.heldRegs = []) : (port (startTraining s n) n).st = .training ∧
        (port (startTraining s n) n).lanes = 0 ∧ (port (startTraining s n) n).replay = (port s n).replay ∧
        (∀ k, k ≠ n → port (startTraining s n) k = port s k) ∧ ((port s n).everActive = true →
          regVal (startTraining s n) (portReg n 0x2C) = min (regVal s (portReg n 0x2C) + 1) 0xFFFFFFFF) := by
      rw [port_startTraining_same]
      exact ⟨rfl, rfl, rfl, fun k hk => port_startTraining_other s hk, regVal_startTraining_counted hidle⟩
    refine ⟨?_, ?_, ?_⟩
    · intro s n hactive hidle
      exact ⟨_, congrArg Host.Outcome.next (if_pos hactive), htrains s n hidle⟩
    · intro s n lane hactive hlane hidle
      exact ⟨_, congrArg Host.Outcome.next (if_pos (by rw [hactive, hlane]; rfl)), htrains s n hidle⟩
    · intro s n hn hon hst hidle
      exact ⟨_, congrArg Host.Outcome.next (if_pos (by simp [hn, hon, hst])), htrains s n hidle⟩
  case done =>
    intro s n w g lanes q words hn hon hst henabled hwidth
    have hsent := transmits_trained s n w g q words
    have hport : port (trainedLink s n w g q words) n = trainedPort s n w g q words (port s n) :=
      port_modPort_same s n (trainedPort s n w g q words)
    have hshape := hsent.shape n
    rw [hport] at hshape
    simp only [linkShape, Prod.mk.injEq] at hshape
    obtain ⟨hstate, hwide, hlanes, hpartner, hjoined, -, -, -⟩ := hshape
    exact ⟨_, exec_leashTrainingDone q words hn hon hst henabled hwidth, hstate.trans (becomeActive_st ..), hwide, hlanes, hpartner,
      hjoined, hsent.out _ List.mem_cons_self⟩
  case discard =>
    intro s n seq vl why hactive
    obtain ⟨x, hcounted⟩ := flitCounted_only s n why
    have hport : port (flitCounted s n why) n = port s n := by
      rw [hcounted]
      rfl
    have hcrc (hwhy : why ∈ [.crc, .ctrlCrc]) :
        regVal (flitCounted s n why) (portReg n 0x20) = min (regVal s (portReg n 0x20) + 1) 0xFFFFFFFF := by
      simp only [List.mem_cons, List.not_mem_nil, or_false] at hwhy
      obtain rfl | rfl := hwhy <;> exact regVal_bump_same ..
    have hfec (hwhy : why = .fec) :
        regVal (flitCounted s n why) (portReg n 0x24) = min (regVal s (portReg n 0x24) + 1) 0xFFFFFFFF := by
      subst hwhy
      exact regVal_bump_same ..
    have hrule (hwhy : why ∈ [.type3, .ctrlReserved, .seqWindow]) :
        regVal (flitCounted s n why) (portReg n 0x28) = min (regVal s (portReg n 0x28) + 1) 0xFFFFFFFF := by
      simp only [List.mem_cons, List.not_mem_nil, or_false] at hwhy
      obtain rfl | rfl | rfl := hwhy <;> exact regVal_bump_same ..
    by_cases hseq : sequenced why
    · refine ⟨_, exec_flitCrcError_sequenced seq vl hactive hseq, ?_, ?_, ?_, ?_, ?_⟩
      · rw [discardFlit_rxSeq, hport]
      · rw [regVal_discardFlit]
        exact hcrc
      · rw [regVal_discardFlit]
        exact hfec
      · rw [regVal_discardFlit]
        exact hrule
      · cases hsent : (port s n).nakSent with
        | false =>
          rw [if_pos ⟨hseq, rfl⟩]
          obtain ⟨hnak, hout⟩ := discardFlit_first (hport ▸ hsent)
          exact ⟨hnak, hout.trans (by rw [hcounted])⟩
        | true =>
          rw [if_neg (by simp), discardFlit_again (hport ▸ hsent), hcounted]
          exact ⟨rfl, rfl⟩
    · refine ⟨_, exec_flitCrcError_other seq vl hactive hseq, congrArg Port.rxSeq hport, hcrc, hfec, hrule, ?_⟩
      rw [if_neg (fun h => hseq h.1), hcounted]
      exact ⟨rfl, rfl⟩
  case frame =>
    intro s n hn
    refine ⟨fun hon => ?_, fun hoff => ⟨_, exec_leashFrameBoundary_down hn hoff, ?_⟩⟩
    · have hexec := exec_leashFrameBoundary_on hn hon
      split
      · next hdown =>
        rw [if_pos hdown] at hexec
        refine ⟨_, hexec, ?_⟩
        rw [port_startTraining_same]
        exact ⟨rfl, rfl⟩
      · next hstays =>
        rw [if_neg hstays] at hexec
        exact hexec
    · rw [port_modPort_same, port_frameBoundary]
      exact ⟨rfl, rfl, rfl⟩
end

section
/-!
PROOFS. Retries and fences (14 R430, R431): a table of cores that is out of order, in which a fault that is counted enters a core a
second time.
-/

namespace Sys2Proof.Machine

/-- A TENSOR_OP of session 0, sent as a raw frame. -/
def tensorReq : Req := ⟨some 0, 0, ⟨.raw, 0, [], 0, 0, none, []⟩⟩

/-- Its program, at the first tile of its first step. -/
def tensorProg : Prog := { (default : Prog) with r := tensorReq }

/-- The tile that the program works on. -/
def tensorTile : WorkItem := .tile tensorReq 0 0

/-- The module at work, with RETRY_MAX 2 and FENCE_THRESHOLD 8. Core 0, on which one attempt at the tile has failed, stands behind core 5
in the table of cores, which is therefore not in rising order. -/
def misfiled : State := { State.reset with
  power := { phase := .running }
  regs := [(0x2000, 0x0802#32)]
  cores := [(5, {}), (0, { failed := [(tensorTile, 1)] })]
  progs := [tensorProg] }

/-- With this failure two attempts have failed, which RETRY_MAX allows. -/
theorem failedAttempts_misfiled : failedAttempts misfiled tensorTile = 2 := by decide

/-- Counting the fault puts core 0 in front of core 5 and leaves its old entry, so that three attempts have failed: the row decides
the fence of core 0. -/
theorem due_tileFault_misfiled : (tileFault misfiled 0 tensorReq).faults.due = [(0, 0)] := by decide

theorem exec_tileResidue_misfiled :
    exec (.faultRetry (.tileResidue 0 tensorReq)) misfiled = .next (tileFault misfiled 0 tensorReq) :=
  congrArg Host.Outcome.next (if_pos (by decide))

end Sys2Proof.Machine

open Sys2Proof Sys2Proof.Machine

/-- Refutes O49: its first clause holds of states whose table of cores is in order, and asks for no such order. In `misfiled` the
failed attempts (`failedAttempts_misfiled`) are those that RETRY_MAX allows, and the row decides the fence of the core all the same
(`due_tileFault_misfiled`). -/
theorem not_faultsAreRetriedThenFenced : ¬ Obligations.FaultsAreRetriedThenFenced := by
  rintro ⟨hretried, -, -⟩
  obtain ⟨t, hexec, -, -, -, -, -, hdue, -, -⟩ := hretried misfiled 0 tensorReq tensorProg (by decide) rfl rfl rfl (by decide)
    (failedAttempts_misfiled ▸ by decide) (by decide)
  rw [exec_tileResidue_misfiled] at hexec
  obtain rfl := Host.Outcome.next.inj hexec
  rw [due_tileFault_misfiled] at hdue
  exact absurd hdue (by decide)
end
